-- ==== Sys2Proof/Word.lean ====
section
/-! DEFINITION. The words of the block: bytes, strings of bytes, and the 24-bit word of the engines (R166). -/

namespace Sys2Proof

/-- A byte. -/
abbrev Byte := BitVec 8

/-- A string of bytes, the first in front. -/
abbrev Bytes := List Byte

/-- The engine word (R166). -/
abbrev W24 := BitVec 24

end Sys2Proof
end

