-- ==== Sys2Proof/Syntax.lean ====
section
/-! DEFINITION. The commands the block takes: the operand types and the one inductive Instr, a constructor for every
row of the opcode table, in the table's order. A command carries what the world supplies with it (a register write's
value, what a flash or the host's memory answers, a measurement); everything else the block reads from its own state. -/

namespace Sys2Proof

/-- Who sends a command: PF0 host software, the management program, or virtual function n (R229, R233). -/
inductive Agent where
  | pf0
  | mgmt
  | vf (n : Fin 16)
deriving DecidableEq, Repr

/-- The memories whose uncorrectable error is a cold reset cause (R69). -/
inductive CritMem where
  | fuseShadow
  | vaultMeta
  | wshTables
  | sdlTables
deriving DecidableEq, Repr

/-- Which copy of an image object a check has read (R318). -/
inductive SlotSel where
  | a
  | b
  | golden
deriving DecidableEq, Repr

/-- SPDM requests of the row SPDM_REQUEST (R246). -/
inductive SpdmKind where
  | version
  | capabilities
  | algorithms
  | certificate
  | challenge
  | keyExchange
  | finish
  | heartbeat
  | keyUpdate
  | endSession
deriving DecidableEq, Repr

/-- How far the flash takes a configuration update (R138): to its end, to a write or readback fault, or not beyond
a step (0 for the erase, 1 for the programming, 2 for the readback) with the target then holding `content`. -/
inductive UpdProg where
  | completes
  | flashFault (content : Bytes)
  | hangs (step : Fin 3) (content : Bytes)
deriving DecidableEq, Repr

/-- What the device meets at a start (R37, R82, R86, R120): the supply, the cell, the junction, DEV_RST#, the self-test
results, a framing fault during either configuration copy, and the measured completion times of the steps. -/
structure StartIn where
  vinMv : BitVec 16
  holdMs : BitVec 32
  batPresent : Bool
  vbatMv : BitVec 12
  tj : Int
  devRstLow : Bool
  selftest : BitVec 11
  faultA : Bool
  faultB : Bool
  xtalUs : BitVec 32
  stepUs : List (BitVec 24)
deriving DecidableEq, Repr

/-- What is read again at a wake (R59): flash identities with unique IDs, and the ledger head. -/
structure WakeIn where
  ids : List (Nat × Nat)
  ledgerSeq : BitVec 32
deriving DecidableEq, Repr

/-- A Horior patch package as read from host memory (R104): its bytes, and the entries it holds (target word,
replacement word). -/
structure PatchPkg where
  bytes : Bytes
  entries : List (BitVec 32 × BitVec 32)
deriving DecidableEq, Repr

/-- A C0 request (R154, R155): what it needs, whether it is a host job, and its service start time and bound in ticks. -/
structure C0Req where
  needsFab : Bool
  needsDma : Bool
  host : Bool
  startTicks : BitVec 16
  boundTicks : BitVec 16
deriving DecidableEq, Repr

/-- One entry of a scatter-gather list (R254). -/
structure SglEnt where
  addr : BitVec 64
  len : BitVec 32
  zero : BitVec 32
deriving DecidableEq, Repr

/-- What host memory holds for a job (R254, R257): its source and AUX bytes, and the lists it names. -/
structure JobIo where
  src : Bytes
  aux : Bytes
  srcSgl : List SglEnt
  dstSgl : List SglEnt
deriving DecidableEq, Repr

/-- A 4 KiB leaf as read from a flash, with the sibling hashes of its path, lowest level first (R297, R298); `none`
stands for a level at which the node is passed up unchanged. -/
structure LeafIn where
  leaf : Bytes
  path : List (Option Bytes)
deriving DecidableEq, Repr

/-- What one flash answers at discovery (R282). -/
structure FlashId where
  jedec : BitVec 24
  dens : Nat
  uid : Nat
  sfdpOk : Bool
  modeOk : Bool
  minDummy : List (BitVec 8 × Nat)
  erases : List (BitVec 8 × Nat)
deriving DecidableEq, Repr

/-- What a channel's two chip selects answer at discovery; `none` is a flash that does not answer (R282). -/
structure DiscIn where
  cs0 : Option FlashId
  cs1 : Option FlashId
deriving DecidableEq, Repr

/-- A command on a channel's platform port (R283): opcode, 8D extension byte, address, bytes clocked, data written. -/
structure FlashCmd where
  opcode : BitVec 8
  ext : BitVec 8
  addr : BitVec 32
  len : Nat
  data : Bytes
deriving DecidableEq, Repr

/-- What a check of a slot reads (R318): the manifest bytes, the root computed over the image, a read or discovery fault. -/
structure SlotFacts where
  man : Bytes
  root : Bytes
  fault : Bool
deriving DecidableEq, Repr

/-- A recovery package as delivered (R332): its manifest bytes, the root computed over its image, and whether the
target flash takes the erase and the programming. -/
structure PkgIn where
  man : Bytes
  root : Bytes
  flashOk : Bool
deriving DecidableEq, Repr

/-- The fields of a ledger record to append (R322); SEQ and CRC are the ledger's. -/
structure LedIn where
  obj : Fin 64
  slotB : Bool
  st : Fin 6
  origin : Fin 8
  version : BitVec 32
  secver : BitVec 16
  digest : BitVec 256
deriving DecidableEq, Repr

/-- What a configuration write leaves in a function (R236): Bus Master Enable, Memory Space Enable, D3hot, ARI Capable
Hierarchy, and the link states enabled (bit 0 L0s, 1 L1, 2 L1.1, 3 L1.2, 4 L2). -/
structure CfgReq where
  bme : Bool
  mse : Bool
  d3 : Bool
  ari : Bool
  aspm : BitVec 5
deriving DecidableEq, Repr

/-- A job descriptor of 64 bytes (R253), little-endian, field by field; `zero` is bytes 60 to 63. -/
structure Desc where
  op : BitVec 8
  flags : BitVec 8
  progId : BitVec 16
  keySlot : BitVec 16
  dstSlot : BitVec 16
  src : BitVec 64
  srcLen : BitVec 32
  dstLen : BitVec 32
  dst : BitVec 64
  aux : BitVec 64
  auxLen : BitVec 32
  arg0 : BitVec 32
  arg1 : BitVec 32
  arg2 : BitVec 32
  tag : BitVec 32
  zero : BitVec 32
deriving DecidableEq, Repr

/-- The commands, one constructor a row of the opcode table. -/
inductive Instr where
  /-- SUPPLY_VALID (R37). -/
  | supplyValid (i : StartIn)
  /-- VIN_LOSS (R41). -/
  | vinLoss (choldMv : BitVec 16)
  /-- VIN_RETURN (R41). -/
  | vinReturn (vinMv choldMv : BitVec 16)
  /-- VIN_FORCE_SET (R38). -/
  | vinForceSet (vinMv : BitVec 16)
  /-- VIN_FORCE_CLEAR (R38). -/
  | vinForceClear (vinMv : BitVec 16)
  /-- VIN_SURGE (R36). -/
  | vinSurge (peakMv durUs : BitVec 32)
  /-- HOLD_UP_EXHAUSTED (R42). -/
  | holdUpExhausted
  /-- VFLASH_TRIP (R44). -/
  | vflashTrip (ma : BitVec 16)
  /-- VFLASH_RETRY (R44). -/
  | vflashRetry
  /-- VFLASH_RETRY_SUCCESS (R44). -/
  | vflashRetrySuccess
  /-- VFLASH_FAULT_CLR (R44). -/
  | vflashFaultClr (a : Agent)
  /-- VFLASH_EN_WRITE (R45). -/
  | vflashEnWrite (a : Agent) (en : Bool)
  /-- BATTERY_ONLY_ENTRY (R46). -/
  | batteryOnlyEntry (vbatMv : BitVec 12)
  /-- VBAT_CHECK (R49). -/
  | vbatCheck (vbatMv : BitVec 12)
  /-- AUTO_IDLE_ENTRY (R55). -/
  | autoIdleEntry
  /-- AUTO_DOZE_ENTRY (R55). -/
  | autoDozeEntry
  /-- RUNG_REQ_IDLE (R55). -/
  | rungReqIdle (a : Agent)
  /-- RUNG_REQ_DOZE (R55). -/
  | rungReqDoze (a : Agent)
  /-- RUNG_REQ_NAP (R56). -/
  | rungReqNap (a : Agent)
  /-- RUNG_REQ_REST (R56). -/
  | rungReqRest (a : Agent)
  /-- RUNG_REQ_RETAIN (R56). -/
  | rungReqRetain (a : Agent)
  /-- LOW_RUNG_ENTRY (R55). -/
  | lowRungEntry
  /-- RUNG_REQ_TIMEOUT (R55). -/
  | rungReqTimeout
  /-- WAKE (R58). -/
  | wake (cause : Fin 5) (w : WakeIn)
  /-- WAKE_TIMER_EXPIRY (R58). -/
  | wakeTimerExpiry (w : WakeIn)
  /-- RETAIN_ON_PG_ENTRY (R62). -/
  | retainOnPgEntry
  /-- POWER_MEASUREMENT (R66). -/
  | powerMeasurement (pinMw loadMw : BitVec 24) (vinMv choldMv : BitVec 16) (restored : Bool)
  /-- THERMAL_FORCE (R67). -/
  | thermalForce (tj : Int)
  /-- THERMAL_FORCE_RELEASE (R67). -/
  | thermalForceRelease (tj : Int)
  /-- PROFILE_SEL_WRITE (R64). -/
  | profileSelWrite (a : Agent) (sel : BitVec 2)
  /-- POWER_ON_RESET (R69). -/
  | powerOnReset
  /-- BROWN_OUT (R69). -/
  | brownOut (vinMv choldMv : BitVec 16)
  /-- DEV_RST_LOW (R69). -/
  | devRstLow
  /-- DEV_RST_RELEASE (R35). -/
  | devRstRelease (i : StartIn)
  /-- DEBUG_RESET (R69). -/
  | debugReset
  /-- DOUBLE_BIT_ERROR (R69). -/
  | doubleBitError (w : CritMem)
  /-- GLB_SWRST (R69). -/
  | glbSwrst (a : Agent) (key : BitVec 16)
  /-- MANAGEMENT_LOCKUP (R69). -/
  | managementLockup (cause : BitVec 32)
  /-- WARM_RESET_RELEASE (R75). -/
  | warmResetRelease (i : StartIn)
  /-- DELAYED_RESET (R77). -/
  | delayedReset
  /-- FLASH_BUSY_POLL_TIMEOUT (R78). -/
  | flashBusyPollTimeout (c : Fin 16)
  /-- BLOCK_RESET_FUS (R81). -/
  | blockResetFus (a : Agent)
  /-- BLOCK_RESET_WSH (R81). -/
  | blockResetWsh (a : Agent)
  /-- BLOCK_RESET_JOB (R81). -/
  | blockResetJob (a : Agent)
  /-- BLOCK_RESET_SDL (R81). -/
  | blockResetSdl (a : Agent)
  /-- BLOCK_RESET_LDG (R81). -/
  | blockResetLdg (a : Agent)
  /-- BLOCK_RESET_KVT (R81). -/
  | blockResetKvt (a : Agent)
  /-- BLOCK_RESET_ENT (R81). -/
  | blockResetEnt (a : Agent)
  /-- BLOCK_RESET_ATT (R81). -/
  | blockResetAtt (a : Agent)
  /-- BLOCK_RESET_CHP (R81). -/
  | blockResetChp (a : Agent)
  /-- BLOCK_RESET_EVR (R81). -/
  | blockResetEvr (a : Agent)
  /-- BLOCK_RESET_PMC (R81). -/
  | blockResetPmc (a : Agent)
  /-- UNSERVED_BAR_ACCESS (R88). -/
  | unservedBarAccess (a : Agent) (bar : Fin 6) (off : BitVec 34) (write : Bool)
  /-- FUS_READ (R91). -/
  | fusRead (a : Agent) (key : BitVec 16)
  /-- FUS_PROGRAM (R116). -/
  | fusProgram (a : Agent) (key : BitVec 16)
  /-- COMPLETE (R93). -/
  | complete (a : Agent) (key : BitVec 16) (region : Fin 16)
  /-- LOCK_WRITE (R99). -/
  | lockWrite (a : Agent) (key : BitVec 16) (region : Fin 16)
  /-- LOCK_READ (R100). -/
  | lockRead (a : Agent) (key : BitVec 16) (region : Fin 16)
  /-- FORCE_LOCK_WRITE (R99). -/
  | forceLockWrite (a : Agent) (key : BitVec 16) (region : Fin 16)
  /-- CTR_ADVANCE (R106). -/
  | ctrAdvance (a : Agent) (key : BitVec 16) (index : BitVec 8)
  /-- OWN_REVOKE (R109). -/
  | ownRevoke (a : Agent) (key : BitVec 16) (index : BitVec 8)
  /-- PATCH_LOAD (R104). -/
  | patchLoad (a : Agent) (key : BitVec 16) (pkg : PatchPkg)
  /-- TRANSITION (R113). -/
  | transition (a : Agent) (key : BitVec 16) (target : BitVec 8) (msg : Bytes)
  /-- FUSE_PULSE_DONE (R117). -/
  | fusePulseDone (tight loose : BitVec 39)
  /-- TRANSITION_RESUME (R114). -/
  | transitionResume (i : StartIn)
  /-- CONFIG_FIELD_WRITE (R134). -/
  | configFieldWrite (a : Agent) (off : BitVec 26) (v : BitVec 32)
  /-- LIVE_WRITE_APPLY (R133). -/
  | liveWriteApply (off : BitVec 26)
  /-- CONFIG_UPDATE (R137). -/
  | configUpdate (a : Agent) (key : BitVec 16) (go : Bool) (msg : Bytes) (p : UpdProg)
  /-- CONFIG_UPDATE_TIMEOUT (R138). -/
  | configUpdateTimeout
  /-- FRAME_BOUNDARY (R143). -/
  | frameBoundary
  /-- FRAME_MIDPOINT (R153). -/
  | frameMidpoint
  /-- PARTITION_EXHAUSTED (R150). -/
  | partitionExhausted (p : Fin 24) (r : Fin 3) (use : Nat)
  /-- C0_REQUEST (R155). -/
  | c0Request (p : Fin 24) (r : C0Req)
  /-- WSH_C0_MAX_CLR (R158). -/
  | wshC0MaxClr (a : Agent)
  /-- SLICE_POINT (R181). -/
  | slicePoint (e : Fin 1024)
  /-- PIN_WAIT_END (R187). -/
  | pinWaitEnd (e : Fin 1024)
  /-- JOB_DISPATCH (R255). -/
  | jobDispatch (id : Nat) (c : Fin 64) (lane : Fin 16) (io : JobIo)
  /-- ENGINE_JOIN (R165). -/
  | engineJoin (id : Nat) (lane : Fin 16)
  /-- PROGRAM_STORE_WRITE (R174). -/
  | programStoreWrite (a : Agent) (off : BitVec 26)
  /-- ACCEL_COMMAND_DONE (R209). -/
  | accelCommandDone (e : Fin 1024)
  /-- SUPPLY_DIFFERENCE_FAULT (R182). -/
  | supplyDifferenceFault (c n : Fin 64) (mv : BitVec 10) (second : Bool)
  /-- TEMPERATURE_DIFFERENCE (R183). -/
  | temperatureDifference (hot cool : Fin 64) (dt : BitVec 8)
  /-- PLN_GRAD_CLR (R190). -/
  | plnGradClr (a : Agent)
  /-- OFFLINE_WRITE (R191). -/
  | offlineWrite (a : Agent) (c : Fin 64) (v : Bool)
  /-- CLUSTER_OFFLINE (R191). -/
  | clusterOffline (c : Fin 64)
  /-- ADD (R199). -/
  | iAdd (e : Fin 1024) (gd ga gb : BitVec 5)
  /-- SUB (R199). -/
  | iSub (e : Fin 1024) (gd ga gb : BitVec 5)
  /-- AND (R199). -/
  | iAnd (e : Fin 1024) (gd ga gb : BitVec 5)
  /-- OR (R199). -/
  | iOr (e : Fin 1024) (gd ga gb : BitVec 5)
  /-- XOR (R199). -/
  | iXor (e : Fin 1024) (gd ga gb : BitVec 5)
  /-- SHL (R199). -/
  | iShl (e : Fin 1024) (gd ga gb : BitVec 5)
  /-- SHR (R199). -/
  | iShr (e : Fin 1024) (gd ga gb : BitVec 5)
  /-- SRA (R199). -/
  | iSra (e : Fin 1024) (gd ga gb : BitVec 5)
  /-- SLTU (R199). -/
  | iSltu (e : Fin 1024) (gd ga gb : BitVec 5)
  /-- CSEL (R199). -/
  | iCsel (e : Fin 1024) (gd ga gb : BitVec 5)
  /-- ADDI (R199). -/
  | iAddi (e : Fin 1024) (gd ga : BitVec 5) (imm : BitVec 8)
  /-- ANDI (R199). -/
  | iAndi (e : Fin 1024) (gd ga : BitVec 5) (imm : BitVec 8)
  /-- ORI (R199). -/
  | iOri (e : Fin 1024) (gd ga : BitVec 5) (imm : BitVec 8)
  /-- SHLI (R199). -/
  | iShli (e : Fin 1024) (gd ga : BitVec 5) (imm : BitVec 8)
  /-- SHRI (R199). -/
  | iShri (e : Fin 1024) (gd ga : BitVec 5) (imm : BitVec 8)
  /-- LDI (R199). -/
  | iLdi (e : Fin 1024) (gd : BitVec 5) (imm : BitVec 13)
  /-- LDHI (R199). -/
  | iLdhi (e : Fin 1024) (gd : BitVec 5) (imm : BitVec 13)
  /-- ADDC (R199). -/
  | iAddc (e : Fin 1024) (gd ga gb : BitVec 5)
  /-- ADDC_S (R199). -/
  | iAddcS (e : Fin 1024) (gd ga gb : BitVec 5)
  /-- SUBB (R199). -/
  | iSubb (e : Fin 1024) (gd ga gb : BitVec 5)
  /-- SUBB_S (R199). -/
  | iSubbS (e : Fin 1024) (gd ga gb : BitVec 5)
  /-- MULLO (R199). -/
  | iMullo (e : Fin 1024) (gd ga gb : BitVec 5)
  /-- MULHI (R199). -/
  | iMulhi (e : Fin 1024) (gd ga gb : BitVec 5)
  /-- MMUL (R199). -/
  | iMmul (e : Fin 1024) (gd ga gb : BitVec 5)
  /-- MADD (R199). -/
  | iMadd (e : Fin 1024) (gd ga gb : BitVec 5)
  /-- MSUB (R199). -/
  | iMsub (e : Fin 1024) (gd ga gb : BitVec 5)
  /-- BFLY (R200). -/
  | iBfly (e : Fin 1024) (gd ga gb : BitVec 5)
  /-- BFLY_I (R200). -/
  | iBflyI (e : Fin 1024) (gd ga gb : BitVec 5)
  /-- LDW (R201). -/
  | iLdw (e : Fin 1024) (gd ga : BitVec 5) (off : BitVec 8)
  /-- STW (R201). -/
  | iStw (e : Fin 1024) (gd ga : BitVec 5) (off : BitVec 8)
  /-- LDP (R201). -/
  | iLdp (e : Fin 1024) (gd ga : BitVec 5) (stp : BitVec 8)
  /-- STP (R201). -/
  | iStp (e : Fin 1024) (gd ga : BitVec 5) (stp : BitVec 8)
  /-- SIN (R202). -/
  | iSin (e : Fin 1024) (gd : BitVec 5)
  /-- STREAM_IN_WORD (R202). -/
  | streamInWord (e : Fin 1024) (w : BitVec 24) (last : Bool)
  /-- SOUT (R202). -/
  | iSout (e : Fin 1024) (ga : BitVec 5)
  /-- STREAM_OUT_CREDIT (R179). -/
  | streamOutCredit (e : Fin 1024)
  /-- KCK_INIT (R210). -/
  | kckInit (e : Fin 1024) (ga : BitVec 5)
  /-- KCK_ABSORB (R210). -/
  | kckAbsorb (e : Fin 1024) (ga gb : BitVec 5)
  /-- KCK_FINAL (R210). -/
  | kckFinal (e : Fin 1024)
  /-- KCK_SQUEEZE (R210). -/
  | kckSqueeze (e : Fin 1024) (gd gb : BitVec 5)
  /-- KCK_RELEASE (R210). -/
  | kckRelease (e : Fin 1024)
  /-- SHA_INIT (R210). -/
  | shaInit (e : Fin 1024) (ga : BitVec 5)
  /-- SHA_ABSORB (R210). -/
  | shaAbsorb (e : Fin 1024) (ga gb : BitVec 5)
  /-- SHA_FINAL (R210). -/
  | shaFinal (e : Fin 1024) (gd : BitVec 5)
  /-- SHA_RELEASE (R210). -/
  | shaRelease (e : Fin 1024)
  /-- AES_INIT (R210). -/
  | aesInit (e : Fin 1024) (ga gb : BitVec 5)
  /-- AES_AAD (R210). -/
  | aesAad (e : Fin 1024) (ga gb : BitVec 5)
  /-- AES_ENC (R210). -/
  | aesEnc (e : Fin 1024) (gd ga gb : BitVec 5)
  /-- AES_DEC (R210). -/
  | aesDec (e : Fin 1024) (gd ga gb : BitVec 5)
  /-- AES_TAG (R210). -/
  | aesTag (e : Fin 1024) (gd : BitVec 5)
  /-- AES_RELEASE (R210). -/
  | aesRelease (e : Fin 1024)
  /-- BEQ (R199). -/
  | iBeq (e : Fin 1024) (gd ga : BitVec 5) (off : BitVec 8)
  /-- BNE (R199). -/
  | iBne (e : Fin 1024) (gd ga : BitVec 5) (off : BitVec 8)
  /-- BLT (R199). -/
  | iBlt (e : Fin 1024) (gd ga : BitVec 5) (off : BitVec 8)
  /-- BGE (R199). -/
  | iBge (e : Fin 1024) (gd ga : BitVec 5) (off : BitVec 8)
  /-- JMP (R199). -/
  | iJmp (e : Fin 1024) (off : BitVec 13)
  /-- CALL (R199). -/
  | iCall (e : Fin 1024) (gd : BitVec 5) (off : BitVec 13)
  /-- RET (R199). -/
  | iRet (e : Fin 1024) (ga : BitVec 5)
  /-- LOOP (R203). -/
  | iLoop (e : Fin 1024) (gd : BitVec 5) (n : BitVec 13)
  /-- WAITC (R205). -/
  | iWaitc (e : Fin 1024) (ga : BitVec 5) (b : BitVec 8)
  /-- SIGNAL (R205). -/
  | iSignal (e : Fin 1024) (b : BitVec 8)
  /-- MFS (R192). -/
  | iMfs (e : Fin 1024) (gd : BitVec 5) (s : BitVec 8)
  /-- MTS (R193). -/
  | iMts (e : Fin 1024) (s : BitVec 8) (ga : BitVec 5)
  /-- KEYLD (R207). -/
  | iKeyld (e : Fin 1024) (gd ga gb : BitVec 5)
  /-- KEYLD_A (R207). -/
  | iKeyldA (e : Fin 1024) (ga : BitVec 5)
  /-- KEYLD_COMPLETE (R177). -/
  | keyldComplete (e : Fin 1024)
  /-- DCL (R208). -/
  | iDcl (e : Fin 1024) (gd : BitVec 5)
  /-- HALT (R206). -/
  | iHalt (e : Fin 1024)
  /-- TRAP (R199). -/
  | iTrap (e : Fin 1024) (code : BitVec 8)
  /-- LINK_UP (R464). -/
  | linkUp (width : BitVec 5) (reversed flit : Bool)
  /-- LINK_DOWN (R227). -/
  | linkDown (ltssm : BitVec 32)
  /-- HOT_RESET (R227). -/
  | hotReset
  /-- PERST_ASSERT (R227). -/
  | perstAssert
  /-- PERST_RELEASE (R464). -/
  | perstRelease
  /-- FUNCTION_LEVEL_RESET (R227). -/
  | functionLevelReset (f : Fin 16)
  /-- VF_ENABLE_WRITE (R226). -/
  | vfEnableWrite (en : Bool) (numVf : BitVec 16)
  /-- FUNCTION_RETURN_D0 (R236). -/
  | functionReturnD0 (f : Fin 16)
  /-- BAR2_READ (R231). -/
  | bar2Read (off : BitVec 34) (n : Nat) (l : LeafIn)
  /-- BAR2_READ_TIMEOUT (R231). -/
  | bar2ReadTimeout (off : BitVec 34)
  /-- BAR2_WRITE (R231). -/
  | bar2Write (off : BitVec 34)
  /-- ATOMIC_OP (R230). -/
  | atomicOp (f : Fin 16) (bar : Fin 6) (off : BitVec 34)
  /-- WIDE_LOW_READ (R235). -/
  | wideLowRead (a : Agent) (off : BitVec 26)
  /-- EVENT_RING_BASE_WRITE (R238). -/
  | eventRingBaseWrite (a : Agent) (hi : Bool) (v : BitVec 32)
  /-- EVENT_RING_CTRL_WRITE (R238). -/
  | eventRingCtrlWrite (a : Agent) (v : BitVec 32)
  /-- EVENT_RING_HEAD_WRITE (R241). -/
  | eventRingHeadWrite (a : Agent) (v : BitVec 32)
  /-- MESSAGE_POST (R240). -/
  | messagePost
  /-- MSIX_HOLDOFF_EXPIRY (R243). -/
  | msixHoldoffExpiry
  /-- IDE_INTEGRITY_FAILURE (R244). -/
  | ideIntegrityFailure (st : Fin 9)
  /-- IDE_POLICY_REFUSAL (R245). -/
  | idePolicyRefusal (f : Fin 16) (bar : Fin 6) (off : BitVec 34) (posted : Bool)
  /-- IDE_KM_KEY_PROG (R345). -/
  | ideKmKeyProg (st : Fin 9) (kid : Fin 12) (key : Bytes)
  /-- IDE_KM_KEY_SET_STOP (R345). -/
  | ideKmKeySetStop (st : Fin 9) (kid : Fin 12)
  /-- SPDM_GET_MEASUREMENTS (R366). -/
  | spdmGetMeasurements (index : BitVec 8)
  /-- SPDM_SET_CERTIFICATE (R366). -/
  | spdmSetCertificate
  /-- DOE_ABORT (R246). -/
  | doeAbort
  /-- PME_TURN_OFF (R237). -/
  | pmeTurnOff
  /-- PME_TIMEOUT (R237). -/
  | pmeTimeout
  /-- QUEUE_ENABLE (R249). -/
  | queueEnable (a : Agent) (f : Fin 16) (q : Fin 64) (v : BitVec 32)
  /-- QUEUE_DISABLE (R264). -/
  | queueDisable (a : Agent) (f : Fin 16) (q : Fin 64)
  /-- QUEUE_ABORT (R264). -/
  | queueAbort (a : Agent) (f : Fin 16) (q : Fin 64)
  /-- SQ_TAIL_DOORBELL (R250). -/
  | sqTailDoorbell (f : Fin 16) (q : Fin 64) (v : BitVec 32)
  /-- CQ_HEAD_DOORBELL (R250). -/
  | cqHeadDoorbell (f : Fin 16) (q : Fin 64) (v : BitVec 32)
  /-- DESCRIPTOR_FETCH (R251). -/
  | descriptorFetch (f : Fin 16) (q : Fin 64) (ds : List Desc)
  /-- DESCRIPTOR_READ_FAILURE (R274). -/
  | descriptorReadFailure (f : Fin 16) (q : Fin 64)
  /-- HASH (R266). -/
  | opHash (id : Nat)
  /-- MERKLE_VERIFY (R268). -/
  | opMerkleVerify (id : Nat)
  /-- SIG_VERIFY (R270). -/
  | opSigVerify (id : Nat)
  /-- SIG_SIGN (R267). -/
  | opSigSign (id : Nat)
  /-- KEM_DECAPS (R267). -/
  | opKemDecaps (id : Nat)
  /-- AEAD_SEAL (R266). -/
  | opAeadSeal (id : Nat)
  /-- AEAD_OPEN (R269). -/
  | opAeadOpen (id : Nat)
  /-- DERIVE (R267). -/
  | opDerive (id : Nat)
  /-- IMAGE_CHECK (R270). -/
  | opImageCheck (id : Nat)
  /-- EVIDENCE (R365). -/
  | opEvidence (id : Nat)
  /-- LOAD_PROGRAM (R218). -/
  | opLoadProgram (id : Nat) (img : Bytes)
  /-- CUSTOM (R266). -/
  | opCustom (id : Nat)
  /-- COALESCING_TIMER (R261). -/
  | coalescingTimer (f : Fin 16) (q : Fin 64)
  /-- JOB_TIMEOUT (R263). -/
  | jobTimeout (id : Nat)
  /-- DISCOVERY (R282). -/
  | discovery (c : Fin 16) (r : DiscIn)
  /-- CMD_READ (R289). -/
  | cmdRead (c : Fin 16) (k : FlashCmd)
  /-- CMD_FAST_READ (R289). -/
  | cmdFastRead (c : Fin 16) (k : FlashCmd)
  /-- CMD_REG_READ (R289). -/
  | cmdRegRead (c : Fin 16) (k : FlashCmd)
  /-- CMD_SEC_READ (R289). -/
  | cmdSecRead (c : Fin 16) (k : FlashCmd)
  /-- CMD_PROGRAM (R289). -/
  | cmdProgram (c : Fin 16) (k : FlashCmd)
  /-- CMD_ERASE (R466). -/
  | cmdErase (c : Fin 16) (k : FlashCmd)
  /-- CMD_REG_WRITE (R289). -/
  | cmdRegWrite (c : Fin 16) (k : FlashCmd)
  /-- CMD_SEC_WRITE (R289). -/
  | cmdSecWrite (c : Fin 16) (k : FlashCmd)
  /-- CMD_DISCOVERY (R290). -/
  | cmdDiscovery (c : Fin 16) (k : FlashCmd)
  /-- CMD_WRITE_EN (R290). -/
  | cmdWriteEn (c : Fin 16) (k : FlashCmd)
  /-- CMD_RESET (R290). -/
  | cmdReset (c : Fin 16) (k : FlashCmd)
  /-- CMD_POWER (R290). -/
  | cmdPower (c : Fin 16) (k : FlashCmd)
  /-- CMD_SUSPEND (R290). -/
  | cmdSuspend (c : Fin 16) (k : FlashCmd)
  /-- CMD_UNDEFINED (R284). -/
  | cmdUndefined (c : Fin 16) (k : FlashCmd)
  /-- FLASH_READY (R291). -/
  | flashReady (c : Fin 16)
  /-- PRESENTED_DEVICE_RESET (R292). -/
  | presentedDeviceReset (c : Fin 16) (waitUs : BitVec 32)
  /-- MAILBOX_COMMIT (R293). -/
  | mailboxCommit (c : Fin 16) (o : Fin 64)
  /-- MAILBOX_ABANDON (R295). -/
  | mailboxAbandon (c : Fin 16) (o : Fin 64)
  /-- MAILBOX_READ (R293). -/
  | mailboxRead (c : Fin 16)
  /-- STAGED_CHECK_DONE (R294). -/
  | stagedCheckDone (o : Fin 64) (f : SlotFacts)
  /-- DEVICE_READ_STARVED (R296). -/
  | deviceReadStarved (c : Fin 16) (kind : BitVec 3)
  /-- CV_LEAF_CHECK (R298). -/
  | cvLeafCheck (c : Fin 16) (l : LeafIn)
  /-- SDL_COMMIT (R293). -/
  | sdlCommit (a : Agent) (key : BitVec 16) (c : Fin 16) (o : Fin 64)
  /-- SDL_ABANDON (R295). -/
  | sdlAbandon (a : Agent) (key : BitVec 16) (c : Fin 16) (o : Fin 64)
  /-- PWR_CYCLE (R302). -/
  | pwrCycle (a : Agent) (key : BitVec 16) (c : Fin 16)
  /-- PWR_CYCLE_END (R302). -/
  | pwrCycleEnd (c : Fin 16)
  /-- GOLDEN_VIEW_OFF (R333). -/
  | goldenViewOff (a : Agent) (key : BitVec 16)
  /-- CONTVER_WRITE (R305). -/
  | contverWrite (a : Agent) (v : BitVec 32)
  /-- CONTVER_APPLY (R305). -/
  | contverApply (c : Fin 16)
  /-- SDL_CH_CLR (R304). -/
  | sdlChClr (a : Agent) (c : Fin 16)
  /-- VIO_PLAT_LOW (R25). -/
  | vioPlatLow (c : Fin 16) (mv : BitVec 16)
  /-- VIO_PLAT_VALID (R456). -/
  | vioPlatValid (c : Fin 16) (mv : BitVec 16)
  /-- SLOT_CHECK_DONE (R318). -/
  | slotCheckDone (o : Fin 64) (w : SlotSel) (f : SlotFacts)
  /-- RELEASE_DELAY_EXPIRY (R316). -/
  | releaseDelayExpiry (d : Fin 32)
  /-- PRS_HOLD (R308). -/
  | prsHold (a : Agent) (key : BitVec 16) (d : Fin 32)
  /-- PRS_RELEASE (R308). -/
  | prsRelease (a : Agent) (key : BitVec 16) (d : Fin 32)
  /-- PRS_RESTART (R308). -/
  | prsRestart (a : Agent) (key : BitVec 16) (d : Fin 32)
  /-- HOLD_CAUSE_TIMER (R308). -/
  | holdCauseTimer (d : Fin 32) (bit : Fin 8)
  /-- DOM_PG_CHANGE (R308). -/
  | domPgChange (d : Fin 32) (good : Bool)
  /-- READBACK_LOW (R309). -/
  | readbackLow (d : Fin 32) (ms : BitVec 32)
  /-- READBACK_HIGH (R309). -/
  | readbackHigh (d : Fin 32)
  /-- LEDGER_APPEND (R324). -/
  | ledgerAppend (r : LedIn) (bad : Nat)
  /-- ADOPT (R329). -/
  | adopt (a : Agent) (key : BitVec 16) (o : Fin 64) (slotB : Bool) (f : SlotFacts)
  /-- RCV_WRITE (R333). -/
  | rcvWrite (a : Agent) (key : BitVec 16) (o : BitVec 6) (dmaOk : Bool) (p : PkgIn)
  /-- RCV_DONE (R333). -/
  | rcvDone (a : Agent) (key : BitVec 16)
  /-- RETRY (R334). -/
  | retry (a : Agent) (key : BitVec 16)
  /-- COMPACT (R326). -/
  | compact (a : Agent) (key : BitVec 16)
  /-- RECOVERY_PACKAGE (R332). -/
  | recoveryPackage (p : PkgIn)
  /-- RECOVERY_READBACK_DONE (R332). -/
  | recoveryReadbackDone (f : SlotFacts)
  /-- RCV_TIMEOUT (R333). -/
  | rcvTimeout
  /-- RETRY_MIN_EXPIRY (R334). -/
  | retryMinExpiry
  /-- KVT_GENERATE (R346). -/
  | kvtGenerate (a : Agent) (key : BitVec 16) (slot : BitVec 8) (checkOk dmaOk : Bool)
  /-- KVT_ZEROISE (R354). -/
  | kvtZeroise (a : Agent) (key : BitVec 16) (slot : BitVec 8)
  /-- KVT_MSG (R348). -/
  | kvtMsg (a : Agent) (key : BitVec 16) (dmaOk checkOk : Bool) (msg : Bytes)
  /-- KVT_PUBKEY (R358). -/
  | kvtPubkey (a : Agent) (key : BitVec 16) (slot : BitVec 8) (dmaOk : Bool)
  /-- IMAGE_WRITE_DONE (R352). -/
  | imageWriteDone (ok : Bool) (cause : BitVec 32)
  /-- RESTORE_DONE (R353). -/
  | restoreDone
  /-- REMASK_PASS (R355). -/
  | remaskPass (delayUs : BitVec 32)
  /-- ENT_STARTUP_DONE (R356). -/
  | entStartupDone
  /-- HEALTH_TEST_FAILURE (R357). -/
  | healthTestFailure (adaptive : Bool) (n : BitVec 32)
  /-- DRBG_RESEED (R356). -/
  | drbgReseed
  /-- AGGREGATE (R375). -/
  | aggregate (a : Agent) (key : BitVec 16) (nonce : Bytes) (dmaOk : Bool)
  /-- REJOIN (R371). -/
  | rejoin (a : Agent) (key : BitVec 16)
  /-- ENDORSE (R361). -/
  | endorse (a : Agent) (key : BitVec 16) (dmaOk : Bool)
  /-- ATT_EVIDENCE (R365). -/
  | attEvidence (a : Agent) (key : BitVec 16) (nonce : Bytes) (dmaOk : Bool)
  /-- JOIN_HELLO (R371). -/
  | joinHello
  /-- JOIN_CHAL (R371). -/
  | joinChal
  /-- JOIN_REQ (R371). -/
  | joinReq
  /-- JOIN_KEY (R371). -/
  | joinKey
  /-- EVID_REQ (R375). -/
  | evidReq
  /-- EVID (R375). -/
  | evid
  /-- RCV_REQ (R379). -/
  | rcvReq (data : Bytes) (readFault : Bool)
  /-- RCV_DATA (R379). -/
  | rcvData
  /-- RCV_END (R379). -/
  | rcvEnd
  /-- NAK (R372). -/
  | nak
  /-- ROUND_DEADLINE (R375). -/
  | roundDeadline
  /-- INBOX_CLAIM (R374). -/
  | inboxClaim (a : Agent)
  /-- INBOX_DOORBELL (R374). -/
  | inboxDoorbell (a : Agent) (slot : Fin 4) (len : BitVec 15)
  /-- INBOX_CLAIM_EXPIRY (R374). -/
  | inboxClaimExpiry (slot : Fin 4)
  /-- PEER_TX_TIMEOUT (R373). -/
  | peerTxTimeout
  /-- ATT_TX_HEAD_WRITE (R373). -/
  | attTxHeadWrite (a : Agent) (v : BitVec 32)
  /-- TAMPER_ALARM (R386). -/
  | tamperAlarm (src : Fin 17) (det : BitVec 2) (cause : BitVec 32)
  /-- TAMPER_CONDITION_END (R385). -/
  | tamperConditionEnd (src : Fin 17)
  /-- TAMPER_SAMPLE (R382). -/
  | tamperSample (a b : BitVec 6)
  /-- TMP_ACK (R389). -/
  | tmpAck (a : Agent) (key : BitVec 16) (src : BitVec 5)
  /-- HOLD_AUTO_RELEASE (R389). -/
  | holdAutoRelease (src : Fin 17)
  /-- SELFTEST (R393). -/
  | selftest (a : Agent) (key : BitVec 16) (src : BitVec 5)
  /-- SELFTEST_DONE (R393). -/
  | selftestDone (okA okB : Bool)
  /-- TIMEBASE_LOSS (R395). -/
  | timebaseLoss
  /-- TIMEBASE_RESTORE (R396). -/
  | timebaseRestore
  /-- REF32_LOSS (R396). -/
  | ref32Loss
  /-- REF32_RESTORE (R396). -/
  | ref32Restore
  /-- WDG_DEV_START (R397). -/
  | wdgDevStart (a : Agent) (key : BitVec 16)
  /-- WDG_CHECKIN (R399). -/
  | wdgCheckin (a : Agent) (key : BitVec 16) (task : BitVec 4)
  /-- WDG_WINDOW_OPEN (R398). -/
  | wdgWindowOpen
  /-- WDG_PERIOD_END (R399). -/
  | wdgPeriodEnd
  /-- PLAT_KICK (R400). -/
  | platKick (a : Agent) (d : Fin 32) (token : BitVec 16)
  /-- PLAT_WDG_EXPIRY (R401). -/
  | platWdgExpiry (d : Fin 32)
  /-- CHP_START (R410). -/
  | chpStart (a : Agent) (key : BitVec 16)
  /-- CHP_FRAME_END (R411). -/
  | chpFrameEnd (edges : Nat) (inBytes : Bytes)
  /-- CHP_SEL_WRITE (R407). -/
  | chpSelWrite (a : Agent) (v : BitVec 16)
  /-- CHP_GPIO_WRITE (R408). -/
  | chpGpioWrite (a : Agent) (v : BitVec 16)
  /-- WINDOW_READ (R415). -/
  | windowRead (a : Agent) (off : BitVec 24) (n : Nat) (edges : Nat) (data : Bytes)
  /-- WINDOW_WRITE (R415). -/
  | windowWrite (a : Agent) (off : BitVec 24)
  /-- WINDOW_READ_TIMEOUT (R416). -/
  | windowReadTimeout (off : BitVec 24) (n : Nat)
  /-- DATA (R418). -/
  | slvData (f : Bytes)
  /-- END (R419). -/
  | slvEnd (f : Bytes)
  /-- STATUS (R418). -/
  | slvStatus
  /-- EVENT_RAISED (R426). -/
  | eventRaised (code : BitVec 16) (p0 p1 p2 : BitVec 32)
  /-- SPILL_FLUSH (R432). -/
  | spillFlush (bad : Nat)
  /-- FREEZE (R436). -/
  | freeze (a : Agent) (key : BitVec 16)
  /-- THAW (R436). -/
  | thaw (a : Agent) (key : BitVec 16)
  /-- FREEZE_TIME_LIMIT (R436). -/
  | freezeTimeLimit
  /-- SET_CAL (R438). -/
  | setCal (a : Agent) (key : BitVec 16)
  /-- EVR_CURSOR_WRITE (R435). -/
  | evrCursorWrite (a : Agent) (v : BitVec 32)
  /-- EVR_WIN_AUTO_READ (R435). -/
  | evrWinAutoRead (a : Agent)
  /-- SPILL_SNAPSHOT_LOADED (R435). -/
  | spillSnapshotLoaded
  /-- PMC_BW_WINDOW_END (R444). -/
  | pmcBwWindowEnd (m : Fin 4) (moved : Nat)
  /-- PMC_BW_CLR (R447). -/
  | pmcBwClr (a : Agent) (m : Fin 4)
  /-- PMC_TAG_ENABLE (R445). -/
  | pmcTagEnable (a : Agent)
  /-- PMC_TAG_CLR (R445). -/
  | pmcTagClr (a : Agent)
  /-- REGISTER_WRITE (R13). -/
  | registerWrite (a : Agent) (off : BitVec 26) (be : BitVec 4) (v : BitVec 32)
  /-- HOLD_RDY (R40). -/
  | holdRdy (choldMv : BitVec 16)
  /-- CONFIGURATION_WRITE (R236). -/
  | configurationWrite (f : Fin 16) (w : CfgReq)
  /-- LINK_SPEED_CHANGE (R222). -/
  | linkSpeedChange (speed : BitVec 3) (width : BitVec 5)
  /-- DMA_ERROR (R271). -/
  | dmaError (id : Nat) (which : BitVec 2)
  /-- IDE_KM_KEY_SET_GO (R244). -/
  | ideKmKeySetGo (st : Fin 9) (set : Fin 2)
  /-- SPDM_REQUEST (R246). -/
  | spdmRequest (k : SpdmKind) (session : BitVec 32)
  /-- SLAVE_FRAMING_FAULT (R420). -/
  | slaveFramingFault (edges : Nat)
  /-- PEER_INBOX_CLAIMED (R373). -/
  | peerInboxClaimed (slot : BitVec 4)
  /-- UNDEFINED_OPCODE (R195). -/
  | undefinedOpcode (e : Fin 1024) (w : BitVec 24)
deriving DecidableEq, Repr

end Sys2Proof
end

