-- ==== Sys2Proof/Decode.lean ====
section
/-! DEFINITION. Decoding of a word to a command. The opcode table gives no row of this block any bits, so no word spells
a command. -/

namespace Sys2Proof

/-- The command a word spells by the table's bits: none, since the table gives none. -/
def decodeTableWord (_nbits _w : Nat) : Option Instr := none

end Sys2Proof
end

