-- ==== Sys2Proof/Config.lean ====
section
/-! DEFINITION. The configuration record's fields with the defaults the spec gives them (R129, R160, R161, R303), and the
values the spec leaves open, as constants without a body. -/

namespace Sys2Proof

/-- 11 R286: one region rule. -/
structure Rule where
  /-- BASE (R286). -/
  base : BitVec 32 := 0#32
  /-- LIMIT (R286). -/
  limit : BitVec 32 := 0#32
  /-- OPS (R286). -/
  ops : BitVec 6 := 0#6
  /-- ACTION (R286). -/
  action : BitVec 2 := 0#2
  /-- OBJECT (R286). -/
  object : Option (Fin 64) := none
  /-- FLAGS bit 0 (R286). -/
  contver : Bool := false
  /-- FLAGS bit 1 (R286). -/
  readStaged : Bool := false
  /-- FILL (R286). -/
  fill : BitVec 8 := 0#8
deriving DecidableEq, Repr

/-- 11 R303: one channel block of section 0x0050. -/
structure ChCfg where
  /-- MODE (R303). -/
  xmode : BitVec 2 := 1#2
  /-- LAYOUT (R275). -/
  layout : BitVec 2 := 0#2
  /-- DOMAIN (R303). -/
  domain : Option (Fin 32) := none
  /-- FMAX_MHZ (R303). -/
  fmax : Nat := 50
  /-- FDEV_MHZ (R303). -/
  fdev : Nat := 50
  /-- DEFAULT_ACT is ALLOW (R303). -/
  defaultAllow : Bool := false
  /-- FILL (R303). -/
  fill : BitVec 8 := 0xFF#8
  /-- EXT (R303). -/
  ext : Bool := false
  /-- WP_REL (R303). -/
  wpRel : Bool := false
  /-- CV_ACT is HOLD (R303). -/
  cvHold : Bool := true
  /-- OPC_FROM names a table of the record (R303). -/
  ownTable : Bool := false
  /-- opcode table, 256 entries (R287). -/
  table : List (BitVec 16) := []
  /-- COMMIT_ADDR (R303). -/
  commitAddr : BitVec 32 := 0xFFFFFFFF#32
  /-- EREG_INIT (R303). -/
  eregInit : Vector (BitVec 64) 8 := Vector.replicate 8 0#64
  /-- region rules, lowest index first (R286). -/
  rules : List Rule := []
deriving DecidableEq, Repr

/-- 06 R160: one partition entry of section 0x0030. -/
structure PartCfg where
  /-- CLASS (3 disabled) (R160). -/
  cls : Nat := 2
  /-- BURST (R160). -/
  burst : Nat := 0
  /-- RATE (R160). -/
  rate : Nat := 0
  /-- ENGINE (R160). -/
  eng : BitVec 32 := 0xFFFFFFFF#32
  /-- FABRIC (R160). -/
  fab : BitVec 32 := 0xFFFFFFFF#32
  /-- DMA (R160). -/
  dma : BitVec 32 := 0xFFFFFFFF#32
deriving DecidableEq, Repr

/-- The entries of the default partition table (R161): P0 to P8 as written, P9 to P23 C2 without a cap. -/
def defaultParts : Vector PartCfg 24 :=
  ((((((((Vector.replicate 24 {}).set 0 ⟨0, 4, 64, 25000#32, 8000#32, 0#32⟩).set 1
    ⟨0, 8, 1024, 125000#32, 80000#32, 0#32⟩).set 2 ⟨1, 0, 0, 31500#32, 16000#32, 250000#32⟩).set 3
    ⟨1, 0, 0, 63000#32, 16000#32, 250000#32⟩).set 4 ⟨1, 0, 0, 63000#32, 40000#32, 10000000#32⟩).set 5
    ⟨1, 0, 0, 6300#32, 4000#32, 0#32⟩).set 7 ⟨1, 0, 0, 15750#32, 8000#32, 0#32⟩).set 8
    ⟨1, 0, 0, 1000000#32, 160000#32, 100000000#32⟩

/-- 12 R311: one object entry. -/
structure ObjCfg where
  /-- OBJECT (R311). -/
  obj : Fin 64 := 0
  /-- CH (R311). -/
  ch : Fin 16 := 0
  /-- BASE (R311). -/
  base : BitVec 32 := 0#32
  /-- LEN (R311). -/
  len : BitVec 32 := 0#32
  /-- GOLD_OFF (R311). -/
  goldOff : BitVec 32 := 0xFFFFFFFF#32
  /-- DOMAINS (R311). -/
  domains : BitVec 32 := 0#32
deriving DecidableEq, Repr

/-- 12 R314: one release plan. -/
structure Plan where
  /-- DOMAIN (R314). -/
  dom : Fin 32 := 0
  /-- FLAGS bit 0 (R314). -/
  pgReq : Bool := false
  /-- FLAGS bit 1 (R314). -/
  cascade : Bool := false
  /-- DELAY_MS (R314). -/
  delayMs : BitVec 16 := 0#16
  /-- PRED (R314). -/
  pred : BitVec 32 := 0#32
deriving DecidableEq, Repr

/-- 14 R367: one federation route. -/
structure Route where
  /-- MEMBER (R367). -/
  mem : BitVec 16 := 0#16
  /-- the peer's PF0 BAR0 base (R367). -/
  addr : BitVec 64 := 0#64
deriving DecidableEq, Repr

/-- 05 R129: the configuration record's fields (record values, or effective values after R128). -/
structure Cfg where
  /-- PROFILE (R129). -/
  profile : BitVec 2 := 0#2
  /-- AUTO (R129). -/
  auto : BitVec 32 := 0x00640A09#32
  /-- THERM (R129). -/
  therm : BitVec 32 := 0x00000A73#32
  /-- WAKE_EN (R129). -/
  wakeEn : BitVec 32 := 0x0000000F#32
  /-- WAKE_GPIO (R129). -/
  wakeGpio : BitVec 8 := 0#8
  /-- KEEP_DEEP (R129). -/
  keepDeep : Bool := false
  /-- PRESENT (R129). -/
  present : BitVec 16 := 0#16
  /-- GPIO_USE (R129). -/
  gpioUse : Vector (BitVec 8) 16 := (Vector.replicate 16 0#8).set 0 3#8
  /-- FRAME (R160). -/
  frame : Nat := 25000
  /-- RISK_N (R160). -/
  riskN : Nat := 3
  /-- partition entries (R161). -/
  parts : Vector PartCfg 24 := defaultParts
  /-- VF_COUNT (R129). -/
  vfCount : Nat := 0
  /-- PROG_LOAD_EN (R129). -/
  progLoadEn : Bool := false
  /-- PMC_USER_EN (R129). -/
  pmcUserEn : Bool := false
  /-- QUOTA (R272). -/
  quotas : Vector Nat 16 := (Vector.replicate 16 512).set 0 8192
  /-- CONTVER (R129). -/
  contver : BitVec 16 := 0#16
  /-- PASS (R129). -/
  pass : BitVec 16 := 0#16
  /-- channel blocks (R303). -/
  chans : Vector ChCfg 16 := (Vector.replicate 16 {}).set 15 ({ layout := 2#2 } : ChCfg)
  /-- RECOVERY_ORDER (R129). -/
  order : List Nat := [1]
  /-- AGENT_DOM (R310). -/
  agentDom : Option (Fin 32) := none
  /-- AGENT_STRAP (R310). -/
  agentStrap : BitVec 8 := 0#8
  /-- RCV_TIMEOUT_S (R310). -/
  rcvTimeoutS : Nat := 600
  /-- RETRY_MIN (R310). -/
  retryMin : Nat := 0
  /-- AGENT_OBJ (R310). -/
  agentObj : Option (Fin 64) := none
  /-- image objects (R310). -/
  objs : List ObjCfg := []
  /-- release plans (R310). -/
  plans : List Plan := []
  /-- REMASK_MS (R129). -/
  remaskMs : Nat := 4
  /-- MEMBER (R367). -/
  member : BitVec 16 := 0#16
  /-- PARENT (R367). -/
  parent : BitVec 16 := 0#16
  /-- ROLE (R367). -/
  role : Nat := 0
  /-- PEER_TX (R367). -/
  peerTx : Bool := false
  /-- AGG_MS (R367). -/
  aggMs : Nat := 2000
  /-- routes (R367). -/
  routes : List Route := []
  /-- RESP (R129). -/
  resp : Vector (BitVec 5) 17 := Vector.replicate 17 3#5
  /-- PINMODE (R129). -/
  pinmode : Vector Nat 8 := Vector.replicate 8 1
  /-- AND_MASK (R129). -/
  andMask : BitVec 6 := 0#6
  /-- HOLDSET (R129). -/
  holdset : Vector (BitVec 32) 17 := Vector.replicate 17 0xFFFFFFFF#32
  /-- HOLD_AUTO_S (R394). -/
  holdAutoS : Nat := 0
  /-- TASK_EN (R129). -/
  taskEn : BitVec 16 := 1#16
  /-- STRICT (R129). -/
  strict : BitVec 16 := 0#16
  /-- PLAT_MS (R129). -/
  platMs : Vector (BitVec 20) 32 := Vector.replicate 32 0#20
  /-- WIN_OPCODE (R129). -/
  winOpcode : BitVec 8 := 3#8
  /-- WIN_ADDR (R129). -/
  winAddr : Nat := 3
  /-- WIN_TURN (R129). -/
  winTurn : Nat := 0
  /-- MASTER_KHZ (R129). -/
  khz : Nat := 12500
  /-- WIN_SEL (R421). -/
  winSel : Fin 16 := 0
  /-- SLV_SEL (R421). -/
  slvSel : Option (Fin 16) := none
  /-- SLV_RDY (R421). -/
  slvRdy : Option (Fin 16) := none
  /-- NOTIFY_SEV (R129). -/
  notifySev : Nat := 4
  /-- SPILL_EN (R129). -/
  spillEn : Bool := true
  /-- RWL_MASK (R129). -/
  rwlMask : BitVec 32 := 0#32
  /-- PIN_IPUS (R121). -/
  pinIpus : Nat := 0
  /-- PIN_CLUSTERS (R121). -/
  pinClusters : Nat := 0
  /-- PIN_DMA (R121). -/
  pinDma : Nat := 0
  /-- section IDs with FREEZE set (R129). -/
  freeze : List Nat := []
deriving DecidableEq, Repr

/-- A value the spec leaves open, `w` bits wide, at the `n`th draw of the state's counter: nothing is known of it. -/
opaque Config.freeBits (w n : Nat) : BitVec w

/-- The `n`th byte the random generator yields (R356): nothing is known of it. -/
opaque Config.rbg (n : Nat) : Byte

/-- Signature verification with a public key, a context string, a message and a signature: algorithm 0 ML-DSA-65, 1 ECDSA
P-384 (R216, R313), 2 ML-DSA-44, 3 ML-DSA-87, 4 ECDSA P-256, 5 LMS (R215, R267), whose arithmetic is that of the standards
R267 names, not the spec's: uninterpreted. -/
opaque Config.sigVerify (alg : Nat) (pk ctx msg sig : Bytes) : Bool

/-- Signature with a private key (R267): uninterpreted; `draw` names the random bytes it takes. -/
opaque Config.sigSign (alg : Nat) (sk ctx msg : Bytes) (draw : Nat) : Bytes

/-- A key pair's private part grown from random or derived bytes, by KTYPE (R339, R346): uninterpreted. -/
opaque Config.keyGen (ktype : Nat) (seed : Bytes) : Bytes

/-- The public key of a private key, by KTYPE (R358): uninterpreted. -/
opaque Config.pubOf (ktype : Nat) (sk : Bytes) : Bytes

/-- ML-KEM-1024 decapsulation: the shared secret (R267): uninterpreted. -/
opaque Config.kemDecaps (sk ct : Bytes) : Bytes

/-- ML-KEM-768 decapsulation: the shared secret (R267): uninterpreted. -/
opaque Config.kemDecaps768 (sk ct : Bytes) : Bytes

/-- ML-KEM-1024 encapsulation to a public key from random bytes: ciphertext and shared secret (R371): uninterpreted. -/
opaque Config.kemEncaps (pk seed : Bytes) : Bytes × Bytes

/-- A public key's encoding is well formed (R270): uninterpreted. -/
opaque Config.pkOk (alg : Nat) (pk : Bytes) : Bool

/-- A signature's encoding is well formed (R270): uninterpreted. -/
opaque Config.sigOk (alg : Nat) (sig : Bytes) : Bool

/-- How many bytes of a SIG_VERIFY job's AUX an LMS public key takes, whose encoding is SP 800-208's (R267):
uninterpreted. -/
opaque Config.lmsKeyLen (aux : Bytes) : Nat

/-- The measurement of the mask ROM and ROM library (R343). -/
opaque Config.romDigest : Bytes

/-- The entry point of a ROM library program, by its ID (R166, R204): its address is not in the spec. -/
opaque Config.romEntry (id : Nat) : BitVec 14

/-- The Horior patch keys of the mask ROM: ML-DSA-65 and ECDSA P-384 public keys (R104). -/
opaque Config.patchKeys : Bytes × Bytes

end Sys2Proof
end

