-- ==== Sys2Proof/Machine/State.lean ====
section
/-! DEFINITION. Everything the spec gives the block to hold, as plain data, one structure for each of the spec's register
blocks; the reasons a step can stop; and the block right after power is first applied. -/

namespace Sys2Proof.Machine

/-- Why a step stops: no command of this block does, so there is no reason. -/
inductive Fault where
deriving DecidableEq, Repr

/-- Why a step refuses a command. -/
inductive Refusal where
  /-- Raised by the arms of `exec` alone, for a command without a meaning yet. Safe. -/
  | notModelled (mnemonic : String)
deriving DecidableEq, Repr

/-- What the block sends outward. The model's own record of it (no register of the spec): newest first in `Out.log`. -/
inductive OutEv where
  /-- bytes written to host memory by function `fn` -/
  | hostWrite (fn : Nat) (addr : BitVec 64) (bytes : Bytes)
  /-- an MSI-X vector of a function, sent -/
  | msix (fn vec : Nat)
  /-- a completion with data to a read of the host -/
  | readReply (bytes : Bytes)
  /-- a completion without data, of a write or an operation done -/
  | ack
  /-- the host receives Completer Abort -/
  | completerAbort
  /-- the host receives Unsupported Request -/
  | unsupported
  /-- a command the device sends to a flash: channel, chip select 1, opcode, address, data -/
  | flashCmd (ch : Fin 16) (cs1 : Bool) (opcode : BitVec 8) (addr : BitVec 32) (bytes : Bytes)
  /-- a platform port's command passed to the flash at an address -/
  | flashPass (ch : Fin 16) (cs1 : Bool) (opcode : BitVec 8) (addr : BitVec 32) (bytes : Bytes)
  /-- what the platform port answers from the device -/
  | platReply (ch : Fin 16) (bytes : Bytes)
  /-- the platform port answers with the fill byte -/
  | platFill (ch : Fin 16) (fill : BitVec 8)
  /-- a federation frame sent: destination member, bytes -/
  | linkFrame (dst : BitVec 16) (bytes : Bytes)
  /-- an SPDM or DOE response -/
  | doeReply (bytes : Bytes)
  /-- a SPDM request refused or a data object in error: SPDM ErrorCode -/
  | doeError (code : BitVec 8)
  /-- bytes clocked out on the Chain Port in a master frame, select pins asserted -/
  | chpOut (sel : BitVec 16) (bytes : Bytes)
  /-- a response in slave mode -/
  | slaveReply (bytes : Bytes)
  /-- the programming of a fuse pulse on a word -/
  | fusePulse (word : Nat)
deriving DecidableEq, Repr

/-- The response sets of the start phase (R388): LOG, NOTIFY and HOLD, with ERASE for the lid mesh, source 5. -/
def startResp : Vector (BitVec 5) 17 := (Vector.replicate 17 7#5).set 5 0x17#5

/-- 12 R313, R318: facts of a manifest as last checked. -/
structure ManInfo where
  /-- VERSION (R313). -/
  version : BitVec 32 := 0#32
  /-- SECVER (R313). -/
  secver : BitVec 16 := 0#16
  /-- SIZE (R313). -/
  size : BitVec 32 := 0#32
  /-- image measurement (R313). -/
  meas : BitVec 384 := 0#384
  /-- ROOT (R313). -/
  root : BitVec 384 := 0#384
  /-- HASH is SHA3-384 (R313). -/
  sha384 : Bool := false
deriving DecidableEq, Repr

/-- 13 R351: one entry of a vault image. -/
structure VEntry where
  /-- SLOT (R351). -/
  slot : Fin 256 := 16
  /-- KTYPE (R351). -/
  ktype : Nat := 0
  /-- OWNER (R351). -/
  owner : Nat := 0
  /-- attribute word (R351). -/
  attr : BitVec 32 := 0#32
  /-- VERSION (R351). -/
  version : Nat := 0
  /-- the key (sealed on flash under SK) (R351). -/
  key : Bytes := []
deriving DecidableEq, Repr

/-- 13 R351: one vault image copy. -/
structure VImage where
  /-- GEN (R351). -/
  gen : BitVec 32 := 0#32
  /-- counter mirror (R351). -/
  mirror : BitVec 64 := 0#64
  /-- KID (R351). -/
  kid : BitVec 128 := 0#128
  /-- header CRC is right (R351). -/
  crcOk : Bool := true
  /-- VALID written (R351). -/
  valid : Bool := false
  /-- the sealed body's tag verifies under the SK it was written with (R351). -/
  tagOk : Bool := true
  /-- plaintext entries, ascending slot (R351). -/
  entries : List VEntry := []
deriving DecidableEq, Repr

/-- 01 R32. -/
inductive PinLevel where
  | hiz
  | low
  | high
deriving DecidableEq, Repr

/-- 02 R51. -/
inductive Rung where
  | run
  | idle
  | doze
  | nap
  | rest
  | retain
deriving DecidableEq, Repr

/-- 11 R279. -/
inductive ChMode where
  | sealed
  | verifying
  | filtering
  | pass
deriving DecidableEq, Repr

/-- 12 R306. -/
inductive DomSt where
  | held
  | verifying
  | released
  | quarantined
  | recovering
deriving DecidableEq, Repr

/-- 02 R44. -/
inductive VfRetry where
  | fresh
  | tripped
  | retrying
  | faulted
deriving DecidableEq, Repr

/-- 03 R70, R73. -/
inductive ResetPh where
  | none
  | waitingCold
  | waitingWarm
  | coldHeld
  | warmHeld
deriving DecidableEq, Repr

/-- 17 R429, R430. -/
inductive RecPh where
  | battery
  | staging
  | running
deriving DecidableEq, Repr

/-- 13 R356, R357. -/
inductive EntSt where
  | startup
  | running
  | recovering
  | failed
deriving DecidableEq, Repr

/-- 16 R422. -/
inductive ChpMode where
  | masterIdle
  | masterFrame
  | slaveSession
deriving DecidableEq, Repr

/-- 07 R181, R187. -/
inductive EngSt where
  | running
  | atSlice
  | pinWait
deriving DecidableEq, Repr

/-- 17 R423: one event record. -/
structure EvRec where
  /-- CODE (R423). -/
  code : BitVec 16 := 0#16
  /-- SEV (R423). -/
  sev : Nat := 0
  /-- FLAGS (R424). -/
  flags : BitVec 8 := 0#8
  /-- REPEAT (R427). -/
  rep : Nat := 0
  /-- INST (R425). -/
  inst : BitVec 16 := 0#16
  /-- calendar seconds (R437). -/
  secs : BitVec 40 := 0#40
  /-- calendar fraction (R437). -/
  frac : BitVec 24 := 0#24
  /-- PARAM0 (R423). -/
  p0 : BitVec 32 := 0#32
  /-- PARAM1 (R423). -/
  p1 : BitVec 32 := 0#32
  /-- PARAM2 (R423). -/
  p2 : BitVec 32 := 0#32
  /-- SEQ (R426). -/
  seq : BitVec 24 := 0#24
  /-- Watershed frame (or 1 ms slot) in which it was raised, for folding (R427). -/
  frame : Nat := 0
  /-- already copied to the spill area (R428). -/
  spilled : Bool := false
deriving DecidableEq, Repr

/-- 09 R240: one message to the host. -/
structure Msg where
  /-- TYPE (R240). -/
  typ : Nat := 1
  /-- the event it reports (R240). -/
  ev : EvRec := {}
  /-- held before the ring could take it (R242). -/
  queued : Bool := false
deriving DecidableEq, Repr

/-- 11: one Saddle channel (x16). -/
structure Channel where
  /-- SDL_MODE (R279). -/
  mode : ChMode := .sealed
  /-- the channel's block of section 0x0050 in effect (R303). -/
  cfg : ChCfg := {}
  /-- platform port isolated (R25, R304). -/
  isolated : Bool := false
  /-- tick at which isolation began (R281). -/
  isoSince : Nat := 0
  /-- WIP_EMU: presented device busy (R291, R304). -/
  wip : Bool := false
  /-- golden view enabled (R304). -/
  golden : Bool := false
  /-- last discovery cause (R304). -/
  fault : Nat := 0
  /-- F_WP# driven high (R301, R304). -/
  wpHigh : Bool := false
  /-- PASS_CS1 (R304). -/
  passCs1 : Bool := false
  /-- SDL_CH_DENY (R304). -/
  deny : BitVec 32 := 0#32
  /-- SDL_CH_EMU (R304). -/
  emu : BitVec 32 := 0#32
  /-- last denial opcode (R304). -/
  ldOpcode : BitVec 8 := 0#8
  /-- last denial rule (R304). -/
  ldRule : BitVec 8 := 0#8
  /-- last denial address[31:16] (R304). -/
  ldPage : BitVec 16 := 0#16
  /-- mailbox state of the latest update (R293). -/
  mboxState : Nat := 0
  /-- object of the latest update (R293). -/
  mboxObj : BitVec 6 := 0#6
  /-- mailbox result (R293). -/
  mboxRes : Nat := 0
  /-- UNCHECKED (R299). -/
  unchecked : BitVec 16 := 0#16
  /-- unchecked reads in this frame (R299). -/
  uncheckedFrame : Nat := 0
  /-- cached verified leaves by chip select and address, most recent first (64) (R298). -/
  cache : List (Nat × Bytes) := []
  /-- cached verified tree nodes, most recent first (1,024) (R298). -/
  cvNodes : List (Nat × Bytes) := []
  /-- leaves awaiting check (16) (R298). -/
  cvQueue : List Nat := []
  /-- continuous verification applied (R298, R305). -/
  cvOn : Bool := false
  /-- change waiting for the idle point (R305). -/
  cvPend : Option Bool := none
  /-- JEDEC identity, chip select 0 (R304). -/
  jedec0 : BitVec 24 := 0#24
  /-- JEDEC identity, chip select 1 (R304). -/
  jedec1 : BitVec 24 := 0#24
  /-- DENSITY chip select 0 (R304). -/
  dens0 : Nat := 0
  /-- DENSITY chip select 1 (R304). -/
  dens1 : Nat := 0
  /-- unique ID read at discovery, chip select 0 (R282). -/
  uid0 : Nat := 0
  /-- unique ID, chip select 1 (R282). -/
  uid1 : Nat := 0
  /-- SFDP erase size per opcode (bytes) (R466, R282). -/
  eraseSizes : List (BitVec 8 × Nat) := []
  /-- discovery passed (R282). -/
  discovered : Bool := false
  /-- emulated registers (R290). -/
  eregs : Vector (BitVec 64) 8 := Vector.replicate 8 0#64
  /-- emulated WEL (R290). -/
  wel : Bool := false
  /-- WIP reads 1 for one status read (R289). -/
  wipOnce : Bool := false
  /-- 0x66 seen, 0x99 awaited (R290). -/
  rstArmed : Bool := false
  /-- a presented-device reset waits for an issued operation (R292). -/
  rstPend : Bool := false
  /-- the flashes' rediscovery after a power cycle is owed (R302). -/
  cycled : Bool := false
  /-- write class issued: opcode, chip select 1 (R283, R291). -/
  writeBusy : Option (BitVec 8 × Bool) := none
  /-- device-originated program or erase cut short, polled after a warm start (R78). -/
  devOp : Option (BitVec 8 × Bool) := none
  /-- starvation episode logged (R296). -/
  starved : Bool := false
  /-- power cycle in progress (R302). -/
  pwrCycle : Bool := false
  /-- VIO_PLAT measured, mV (R456). -/
  vioMv : BitVec 16 := 1800#16
  /-- bank level sensed: true 3.3 V, false 1.8 V (R456). -/
  bankHigh : Bool := false
deriving DecidableEq, Repr

/-- 12: one platform domain (x32). -/
structure Domain where
  /-- STATE (R306). -/
  st : DomSt := .held
  /-- READY (R306). -/
  ready : Bool := false
  /-- GOLDEN (R333). -/
  golden : Bool := false
  /-- release plan (R314). -/
  plan : Option Plan := none
  /-- HOLD causes (R308). -/
  hold : BitVec 8 := 0#8
  /-- CHECK (R335). -/
  check : BitVec 4 := 0#4
  /-- OBJECT (R335). -/
  obj : BitVec 6 := 0#6
  /-- PRS_DOM_TIME (R335). -/
  timeUs : BitVec 32 := 0#32
  /-- RELEASES (R335). -/
  releases : BitVec 16 := 0#16
  /-- HOLDS (R335). -/
  holds : BitVec 16 := 0#16
  /-- DELAY_MS has elapsed since it last began (R316). -/
  delayDone : Bool := false
  /-- CASCADE predecessors that have left RELEASED and set PRED (MODEL's own) (R316). -/
  predLeft : BitVec 32 := 0#32
  /-- readback (R309, R335). -/
  rbHigh : Bool := false
  /-- readback-low episode logged (R309). -/
  rbLogged : Bool := false
deriving DecidableEq, Repr

/-- 12 R311, R336: one image object (x64). -/
structure Obj where
  /-- configured entry (R311). -/
  cfg : Option ObjCfg := none
  /-- SEL: chosen slot B (R336). -/
  sel : Bool := false
  /-- CHOSEN (R336). -/
  chosen : Bool := false
  /-- CHECK_A (R336). -/
  checkA : BitVec 4 := 0#4
  /-- CHECK_B (R336). -/
  checkB : BitVec 4 := 0#4
  /-- CHECK_G (R336). -/
  checkG : BitVec 4 := 0#4
  /-- slot A check of this start stands (R319). -/
  okA : Bool := false
  /-- slot B check of this start stands (R319). -/
  okB : Bool := false
  /-- slot A has been checked (R319). -/
  doneA : Bool := false
  /-- slot B has been checked (R319). -/
  doneB : Bool := false
  /-- slot A's manifest verified at this start or a later commit (R297). -/
  mvA : Bool := false
  /-- the same of slot B (R297). -/
  mvB : Bool := false
  /-- the same of the golden copy (R297). -/
  mvG : Bool := false
  /-- manifest facts of slot A as last checked (R318). -/
  manA : Option ManInfo := none
  /-- manifest facts of slot B (R318). -/
  manB : Option ManInfo := none
  /-- manifest facts of the golden copy (R318). -/
  manG : Option ManInfo := none
  /-- redirection open (R336). -/
  redir : Bool := false
  /-- channel of the open redirection (R294). -/
  redirCh : Option (Fin 16) := none
  /-- 0 none, 1 staging, 2 verifying (steps 6-8), 3 abandoning (R294). -/
  redirPhase : Nat := 0
  /-- the recovery order failed for it and waits to run again (R334). -/
  rcvFailed : Bool := false
  /-- VERSION of the chosen slot (R336). -/
  version : BitVec 32 := 0#32
  /-- SECVER of the chosen slot (R336). -/
  secver : BitVec 16 := 0#16
deriving DecidableEq, Repr

/-- 12 R322: one ledger position. -/
structure LedRec where
  /-- SEQ (R322). -/
  seq : BitVec 32 := 0#32
  /-- OBJECT (R322). -/
  obj : BitVec 8 := 0xFF#8
  /-- SLOT B (R322). -/
  slot : Bool := false
  /-- STATE (R322). -/
  st : Nat := 0
  /-- ORIGIN (R322). -/
  origin : Nat := 0
  /-- VERSION / generation (R322). -/
  version : BitVec 32 := 0#32
  /-- SECVER (R322). -/
  secver : BitVec 16 := 0#16
  /-- DIGEST (R322). -/
  digest : BitVec 256 := 0#256
  /-- CRC field is right (R322). -/
  crcOk : Bool := true
  /-- VALID is 0x5A (R322). -/
  valid : Bool := true
deriving DecidableEq, Repr

/-- 13 R337: one vault slot (x256). -/
structure Slot where
  /-- KTYPE (R339). -/
  ktype : Nat := 0
  /-- attribute word (R338). -/
  attr : BitVec 32 := 0#32
  /-- OWNER (R340). -/
  owner : Nat := 0
  /-- VERSION (R358). -/
  version : Nat := 0
  /-- masked key bytes (R355). -/
  stored : Bytes := []
  /-- mask bytes (R355). -/
  mask : Bytes := []
  /-- uncorrectable metadata (R337). -/
  metaBad : Bool := false
deriving DecidableEq, Repr

/-- 13 R346: one replacement in progress. -/
structure Shadow where
  /-- slot it replaces (R346). -/
  slot : Fin 256 := 0
  /-- key bytes, masked (R346). -/
  key : Bytes := []
  /-- mask (R355). -/
  mask : Bytes := []
  /-- KTYPE (R346). -/
  ktype : Nat := 0
  /-- attributes (R346). -/
  attr : BitVec 32 := 0#32
  /-- owner (R346). -/
  owner : Nat := 0
  /-- at step 4, behind an image write (R346). -/
  waitImage : Bool := false
  /-- keeps the old key for jobs that loaded it (R346). -/
  holdsOld : Bool := false
  /-- old key kept, masked under the mask (R346). -/
  old : Bytes := []
  /-- source is KVT_CMD (R346). -/
  cmd : Bool := false
  /-- public key to write at the swap: 0 none, 1 written, 2 the write fails (R358). -/
  pub : Nat := 0
  /-- job whose key result it is (R346). -/
  job : Option Nat := none
deriving DecidableEq, Repr

/-- 03: GLB registers. -/
structure Glb where
  /-- READY (R82, GLB_STATUS). -/
  ready : Bool := false
  /-- START_FAIL (R87). -/
  startFail : Bool := false
  /-- SEALED_DEFAULTS (R131). -/
  sealedDefaults : Bool := false
  /-- WARM_START (R75). -/
  warmStart : Bool := false
  /-- PHASE (R82). -/
  phase : BitVec 4 := 1#4
  /-- LC (R110). -/
  lc : BitVec 3 := 0#3
  /-- FAIL_CODE (R87). -/
  failCode : BitVec 4 := 0#4
  /-- first unserved access logged (R88). -/
  unservedLogged : Bool := false
deriving DecidableEq, Repr

/-- 02: PWR registers, ladder and rails. -/
structure Pwr where
  /-- VIN counts as present (R37). -/
  vinPresent : Bool := false
  /-- supply valid reached (R37). -/
  supplyValid : Bool := false
  /-- FORCE_THERM (R67). -/
  forceTherm : Bool := false
  /-- FORCE_VIN (R38). -/
  forceVin : Bool := false
  /-- FORCE_HOLDUP (R41). -/
  forceHoldup : Bool := false
  /-- ON_HOLDUP (R41). -/
  onHoldup : Bool := false
  /-- HOLD_RDY (R40). -/
  holdRdy : Bool := false
  /-- CAP_THROTTLE (R66). -/
  capThrottle : Bool := false
  /-- measurements in the present episode (R66). -/
  capCount : Nat := 0
  /-- peak of the present episode (R66). -/
  capPeak : BitVec 24 := 0#24
  /-- PROFILE_EFF (R63). -/
  profileEff : BitVec 2 := 0#2
  /-- PWR_PROFILE.SEL (last written) (R64). -/
  sel : BitVec 2 := 0#2
  /-- SEL last applied at a frame boundary (R64, R68). -/
  selApplied : BitVec 2 := 0#2
  /-- VFLASH_ON (R43). -/
  vflashOn : Bool := false
  /-- VFLASH_FAULT (R44). -/
  vflashFault : Bool := false
  /-- retry cycle (R44). -/
  vfRetry : VfRetry := .fresh
  /-- PWR_VFLASH.EN (R45). -/
  vfEn : Bool := false
  /-- KEEP_DEEP (R57). -/
  keepDeep : Bool := false
  /-- TRIPS (R44). -/
  trips : BitVec 2 := 0#2
  /-- BAT_PRESENT (R48). -/
  batPresent : Bool := false
  /-- BAT_LOW (R49). -/
  batLow : Bool := false
  /-- 0x1062 logged for this fall (R49). -/
  batLowLogged : Bool := false
  /-- rung (R51). -/
  rung : Rung := .run
  /-- TARGET (PWR_RUNG_REQ). -/
  rungTarget : BitVec 3 := 0#3
  /-- RESULT (PWR_RUNG_REQ). -/
  rungResult : BitVec 2 := 0#2
  /-- IDLE_EN (PWR_AUTO). -/
  idleEn : Bool := true
  /-- DOZE_EN (PWR_AUTO). -/
  dozeEn : Bool := false
  /-- RETAIN_ON_PG (R62). -/
  retainOnPg : Bool := false
  /-- FAST_EN (R59). -/
  fastEn : Bool := true
  /-- IDLE_DWELL (R465). -/
  idleDwell : BitVec 8 := 10#8
  /-- DOZE_DWELL (R465). -/
  dozeDwell : BitVec 16 := 100#16
  /-- PWR_WAKE_EN (R58). -/
  wakeEn : BitVec 5 := 0x0F#5
  /-- PWR_WAKE_CAUSE (R58). -/
  wakeCause : BitVec 5 := 0#5
  /-- FROM_RUNG (R58). -/
  fromRung : BitVec 3 := 0#3
  /-- TJ_HIGH (R67). -/
  tjHigh : BitVec 8 := 115#8
  /-- HYST (R67). -/
  hyst : BitVec 8 := 10#8
  /-- junction temperature, °C (R67). -/
  tj : Int := 25
  /-- VIN_MV (PWR_VIN). -/
  vinMv : BitVec 16 := 0#16
  /-- IIN_MA (PWR_VIN). -/
  iinMa : BitVec 16 := 0#16
  /-- VBAT_MV (PWR_AUX). -/
  vbatMv : BitVec 12 := 0#12
  /-- CHOLD_V (20 mV) (PWR_AUX). -/
  choldV : BitVec 12 := 0#12
  /-- PIN_MW (R66). -/
  pinMw : BitVec 24 := 0#24
  /-- CHOLD_MAIN charge current (R450). -/
  chgMa : Nat := 0
  /-- LAST_FAST (PWR_FASTPATH). -/
  lastFast : Bool := false
  /-- REASON (R59). -/
  fpReason : BitVec 4 := 0#4
  /-- SECONDS (PWR_WAKE_TIMER). -/
  wakeTimer : BitVec 24 := 0#24
  /-- tick of the loss of VIN (R41). -/
  lossTick : Nat := 0
  /-- tick of the last rung entry (R58). -/
  rungTick : Nat := 0
  /-- wake that waits for the entry in progress to complete (R56). -/
  wakePend : Option (Fin 5 × WakeIn) := none
  /-- refused RETAIN_ON_PG entry logged (R62). -/
  retainRefused : Bool := false
  /-- WAKE_GPIO (R129). -/
  wakeGpio : BitVec 8 := 0#8
  /-- tamper event since rung entry (R59). -/
  tamperSince : Bool := false
  /-- an alarm with NOTIFY, HOLD or RESET since rung entry (R58). -/
  tamperWake : Bool := false
  /-- retained record valid mark (R59, R70). -/
  retValid : Bool := false
  /-- retained record passes SEC-DED (R59). -/
  retSecded : Bool := false
  /-- retained image measurements (R59). -/
  retMeas : List (Fin 64 × BitVec 384) := []
  /-- retained flash identities and unique IDs (R59). -/
  retIds : List (Nat × Nat) := []
  /-- retained ledger sequence (R59). -/
  retSeq : BitVec 32 := 0#32
deriving DecidableEq, Repr

/-- 01: lands the device drives or reads. -/
structure Pins where
  /-- DOM_RST[n]# asserted (R1, R33). -/
  domRst : BitVec 32 := BitVec.allOnes 32
  /-- DOM_PG[n] good (R34). -/
  domPg : BitVec 32 := 0#32
  /-- FL_PWR_EN[c] (R32). -/
  flPwr : BitVec 16 := 0#16
  /-- F_WP#[c] (R32). -/
  fWp : Vector PinLevel 16 := Vector.replicate 16 .hiz
  /-- DEV_RST# low (R35). -/
  devRstLow : Bool := false
  /-- HLK_PERST# low (R26). -/
  perstLow : Bool := true
  /-- transmitters idle (R32). -/
  txIdle : Bool := true
  /-- HLK_CLKREQ# low (R32). -/
  clkreqLow : Bool := false
  /-- HLK_WAKE# low (R32, R58). -/
  wakeLow : Bool := false
  /-- GPIO[n] as driven (R32). -/
  gpio : Vector PinLevel 16 := Vector.replicate 16 .hiz
  /-- GPIO levels read (R422). -/
  gpioIn : BitVec 16 := 0xFFFF#16
  /-- flashes placed in deep power-down (R57). -/
  deepPd : Bool := false
deriving DecidableEq, Repr

/-- 02, 12-17: always-on domain, kept through every reset while VIN or VBAT lasts. -/
structure Aon where
  /-- running from VBAT alone (R46). -/
  batteryOnly : Bool := false
  /-- calendar second of entry (R46). -/
  batSince : Nat := 0
  /-- 16-record battery buffer (R430). -/
  buffer : List EvRec := []
  /-- records displaced (R430). -/
  displaced : Nat := 0
  /-- next sequence number (R426). -/
  nextSeq : BitVec 24 := 0#24
  /-- calendar seconds (R437). -/
  calSecs : BitVec 40 := 0#40
  /-- 40 ns steps within the second (R437). -/
  calTick : Nat := 0
  /-- CAL_VALID (R437). -/
  calValid : Bool := false
  /-- COLD (RST_COUNT). -/
  coldCount : BitVec 16 := 0#16
  /-- start-retry flag (R87). -/
  startRetry : Bool := false
  /-- battery-backed KEK (R350). -/
  kek : BitVec 256 := 0#256
  /-- KEK flag (R350). -/
  kekValid : Bool := false
  /-- message counter, always-on copy (R349). -/
  msgCtr : BitVec 64 := 0#64
  /-- update marker: target copy B, step (R140). -/
  marker : Option (Bool × Nat) := none
  /-- pending hold mask (R389). -/
  pendHold : BitVec 32 := 0#32
  /-- latched sources (R389). -/
  latched : BitVec 17 := 0#17
  /-- domains held, per source (R389). -/
  domMask : Vector (BitVec 32) 17 := Vector.replicate 17 0#32
  /-- loop LFSRs (R384). -/
  lfsr : Vector (BitVec 31) 8 := Vector.replicate 8 0#31
  /-- seeds exist (R384). -/
  seeded : Bool := false
  /-- response sets last applied (R390). -/
  onCellResp : Vector (BitVec 5) 17 := Vector.replicate 17 3#5
  /-- HOLDSET last applied (R390). -/
  onCellHold : Vector (BitVec 32) 17 := Vector.replicate 17 0xFFFFFFFF#32
  /-- pin modes last applied (R390). -/
  onCellPin : BitVec 16 := 0x5555#16
  /-- started without retained state (R392). -/
  lost : Bool := true
deriving DecidableEq, Repr

/-- 15 R404: timebase. -/
structure Tbs where
  /-- XTAL (R404). -/
  xtal : Bool := false
  /-- ON_RC (R404). -/
  onRc : Bool := true
  /-- REF32 (R404). -/
  ref32 : Bool := true
  /-- TBS_TICK (R404). -/
  tick : BitVec 64 := 0#64
  /-- TBS_DEV (R404). -/
  ppm : BitVec 16 := 0#16
  /-- TBS_LOSS (R404). -/
  losses : BitVec 16 := 0#16
  /-- tick at which the RC took over (R396). -/
  rcSince : Nat := 0
  /-- tick at which the reference was lost (R396). -/
  refSince : Nat := 0
deriving DecidableEq, Repr

/-- 03: reset controller. -/
structure Rst where
  /-- POR..TAMPER (RST_CAUSE). -/
  cold : BitVec 6 := 0#6
  /-- WDOG,SOFT,TB_LOSS,LOCKUP (RST_CAUSE). -/
  warm : BitVec 4 := 0#4
  /-- WARM (RST_COUNT). -/
  warmCount : BitVec 16 := 0#16
  /-- COUNT (RST_CONSEC). -/
  consec : BitVec 3 := 0#3
  /-- RST_REFUSED (R81). -/
  refused : BitVec 11 := 0#11
  /-- reset in progress (R70, R75). -/
  ph : ResetPh := .none
  /-- cold causes waiting (R72, R77). -/
  pendCold : BitVec 6 := 0#6
  /-- warm causes waiting (R72, R77). -/
  pendWarm : BitVec 4 := 0#4
  /-- trigger time of the waiting reset (R77). -/
  pendTick : Nat := 0
  /-- fuse word under the pulse that the reset waits for (R77). -/
  pendWord : Nat := 0
  /-- EMULATE hits answered as DENY (R74). -/
  emuHits : Nat := 0
  /-- a start is in progress (R82). -/
  inStart : Bool := false
  /-- a cold start has loaded the fuses (R76). -/
  coldStartDone : Bool := false
  /-- tick at which DEV_RST# was found low at supply valid (R35). -/
  devRstTick : Nat := 0
  /-- start waits at step 1 for DEV_RST# (R35). -/
  heldStart : Bool := false
  /-- start waits after step 8 for HOLD_RDY (R114). -/
  transHold : Bool := false
deriving DecidableEq, Repr

/-- 03, 05: start sequencer, configuration loader. -/
structure Boot where
  /-- BOOT_SELFTEST (R86). -/
  selftest : BitVec 11 := 0#11
  /-- BOOT_FUSELOAD.VALID (R84). -/
  valid : BitVec 8 := 0#8
  /-- RESTARTS (R84). -/
  restarts : BitVec 8 := 0#8
  /-- BOOT_PATCH.ENTRIES (R85). -/
  patches : Nat := 0
  /-- fetch match table: target word, replacement (R85). -/
  matchTable : List (BitVec 32 × BitVec 24) := []
  /-- cluster 0 started (R85). -/
  cluster0 : Bool := false
  /-- step times (BOOT_STEP_TIME). -/
  stepTime : Vector (BitVec 24) 12 := Vector.replicate 12 0#24
  /-- SRC (R141). -/
  src : BitVec 2 := 0#2
  /-- A_REASON (R141). -/
  aReason : BitVec 4 := 0#4
  /-- B_REASON (R141). -/
  bReason : BitVec 4 := 0#4
  /-- PENDING (R141). -/
  pendingUpd : Bool := false
  /-- CLAMPS (R141). -/
  clamps : BitVec 8 := 0#8
  /-- BOOT_CFG_SEQ (R141). -/
  seq : BitVec 32 := 0#32
  /-- BOOT_CFG_LEN (R141). -/
  len : BitVec 16 := 0#16
  /-- BOOT_CFG_BLMIN (R141). -/
  blMin : BitVec 16 := 0#16
  /-- BOOT_CFG_MEAS (R126). -/
  meas : BitVec 384 := 0#384
  /-- BOOT_CFG_UPD_LO/HI (R141). -/
  updAddr : BitVec 64 := 0#64
  /-- BUSY (R141). -/
  updBusy : Bool := false
  /-- RESULT (R141). -/
  updResult : BitVec 4 := 0#4
  /-- SUB (R141). -/
  updSub : BitVec 4 := 0#4
  /-- TARGET is copy B (R141). -/
  updTarget : Bool := false
  /-- RWL_MASK (R141). -/
  rwl : BitVec 16 := 0#16
  /-- LASTREJ.OFFSET (R134). -/
  rejOffset : BitVec 26 := 0#26
  /-- LASTREJ.CAUSE (R134). -/
  rejCause : BitVec 3 := 0#3
  /-- retained copy bytes (R132). -/
  imgCopy : Bytes := []
  /-- retained measurement (R132). -/
  imgMeas : BitVec 384 := 0#384
  /-- clamp list: field, record value, effective value (R128, R132). -/
  imgClamps : List (Nat × Nat × Nat) := []
  /-- retained image passes SEC-DED (R132). -/
  imgSecded : Bool := true
  /-- clamped configuration in effect (R128, R129). -/
  eff : Cfg := {}
  /-- pending LIVE writes: BAR0 offset, value (R133). -/
  live : List (Nat × BitVec 32) := []
  /-- sections with FREEZE set (R129). -/
  freeze : List Nat := []
  /-- step in progress when a start was cut (R82). -/
  otp : Nat := 0
deriving DecidableEq, Repr

/-- 05 R119, 12 R321, 13 R351, 17 R431: what the device keeps in attached flash. -/
structure Nv where
  /-- configuration copy A (R119). -/
  cfgA : Bytes := []
  /-- configuration copy B (R119). -/
  cfgB : Bytes := []
  /-- ledger sector 0, used positions in order (R321). -/
  led0 : List LedRec := []
  /-- ledger sector 1 (R321). -/
  led1 : List LedRec := []
  /-- spill positions written (R431). -/
  spill : List (Nat × EvRec) := []
  /-- vault image copy 0 (R351). -/
  img0 : Option VImage := none
  /-- vault image copy 1 (R351). -/
  img1 : Option VImage := none
deriving DecidableEq, Repr

/-- MODEL's own: what the device sends outward (not a register of the spec). -/
structure Out where
  /-- outward effects, newest first (MODEL's own). -/
  log : List OutEv := []
  /-- counter of random bytes drawn (argument of Config.rbg) (MODEL's own, R356). -/
  rng : Nat := 0
  /-- counter of free values drawn (argument of Config.freeValue) (MODEL's own). -/
  free : Nat := 0
deriving DecidableEq, Repr

/-- 10 R251-R263. -/
inductive JobPh where
  | fetched
  | waiting
  | running
  | stopping
  | keyWait
  | done
deriving DecidableEq, Repr

/-- 08 R210. -/
inductive UnitPh where
  | idle
  | ready
  | absorbing
  | squeezing
  | aad
  | text
  | ended
deriving DecidableEq, Repr

/-- 06 R146: one 32-bit value for each metered resource. -/
structure R3 where
  /-- engine time (R146). -/
  eng : BitVec 32 := 0#32
  /-- fabric port time (R146). -/
  fab : BitVec 32 := 0#32
  /-- host-link DMA (R146). -/
  dma : BitVec 32 := 0#32
deriving DecidableEq, Repr

/-- 06 R146: one count for each metered resource. -/
structure N3 where
  /-- engine time (R146). -/
  eng : Nat := 0
  /-- fabric port time (R146). -/
  fab : Nat := 0
  /-- host-link DMA (R146). -/
  dma : Nat := 0
deriving DecidableEq, Repr

/-- 06 R146: one flag for each metered resource. -/
structure B3 where
  /-- engine time (R146). -/
  eng : Bool := false
  /-- fabric port time (R146). -/
  fab : Bool := false
  /-- host-link DMA (R146). -/
  dma : Bool := false
deriving DecidableEq, Repr

/-- 06 R144: one partition (x24). -/
structure Part where
  /-- CLASS (R162). -/
  cls : Nat := 3
  /-- BURST (R162). -/
  burst : Nat := 0
  /-- RATE (R162). -/
  rate : Nat := 0
  /-- written budgets (R162). -/
  bud : R3 := {}
  /-- USE of this frame, carried overdraw included (R162). -/
  use : N3 := {}
  /-- effective budgets (R162). -/
  eff : R3 := {}
  /-- exhausted flags (R162). -/
  exh : B3 := {}
  /-- consecutive frames with a projection above the budget (R153). -/
  runs : N3 := {}
  /-- consecutive frames without one, in an episode (R153). -/
  clean : N3 := {}
  /-- episode open (R153). -/
  risk : B3 := {}
  /-- non-conforming C0 requests of this frame (R154). -/
  nonconfCur : Nat := 0
  /-- NONCONF (R162). -/
  nonconfLast : Nat := 0
  /-- requests of this frame (R154). -/
  confCount : Nat := 0
  /-- conforming requests in service (R154). -/
  inService : Nat := 0
  /-- sixteenths of a unit charged on cluster 63 and not yet rounded (MODEL's own) (R147). -/
  sixteenths : Nat := 0
deriving DecidableEq, Repr

/-- 04 R113, R117: a programming command in progress. -/
structure FuseProg where
  /-- OP of the command (R116). -/
  op : Nat := 0
  /-- word under the pulse (R117). -/
  word : Nat := 0
  /-- its raw target (R117). -/
  target : BitVec 39 := 0#39
  /-- pulses given to it (R117). -/
  pulses : Nat := 1
  /-- words still to program (R117). -/
  rest : List (Nat × BitVec 39) := []
  /-- words programmed (R113). -/
  done : Nat := 0
  /-- target state of a transition (R112). -/
  toLc : Nat := 0
  /-- transition: 3 step 3, 4 candidates, 5 the rest (R113). -/
  phase : Nat := 0
  /-- next candidate word (R113). -/
  cand : Nat := 0
  /-- candidates that read valid (R113). -/
  map : BitVec 30 := 0#30
  /-- candidates skipped (R113). -/
  skipped : Nat := 0
  /-- a cold start's resume (R114). -/
  resume : Bool := false
  /-- counter or slot index (R116). -/
  arg : Nat := 0
  /-- counter value before (R106). -/
  old : Nat := 0
deriving DecidableEq, Repr

/-- 08 R196: an instruction that waits on a handshake. -/
structure Blocked where
  /-- opcode 0x1D SIN, 0x1E SOUT, 0x1F KCK, 0x20 SHA, 0x21 AES, 0x2A WAITC, 0x2E KEYLD (R199). -/
  op : Nat := 0
  /-- gd (R194). -/
  gd : BitVec 5 := 0#5
  /-- ga (R194). -/
  ga : BitVec 5 := 0#5
  /-- gb (R194). -/
  gb : BitVec 5 := 0#5
  /-- mod or imm8 (R194). -/
  mod : BitVec 8 := 0#8
deriving DecidableEq, Repr

/-- 07 R166, 08 R192: one engine that holds a job. -/
structure Engine where
  /-- the job it works for (R165). -/
  job : Nat := 0
  /-- running, at a slice point reached by count, or in the pin's wait there (R181, R187). -/
  st : EngSt := .running
  /-- PC (R199). -/
  pc : BitVec 15 := 0#15
  /-- g0 to g31 (R166). -/
  g : Vector (BitVec 24) 32 := Vector.replicate 32 0#24
  /-- guard bits of g0 to g31 (R166). -/
  gg : BitVec 32 := 0#32
  /-- MQ (R166). -/
  mq : BitVec 24 := 0#24
  /-- MQI (R166). -/
  mqi : BitVec 24 := 0#24
  /-- LC (R166). -/
  lc : BitVec 24 := 0#24
  /-- LA (R166). -/
  la : BitVec 24 := 0#24
  /-- C (R166). -/
  c : Bool := false
  /-- guard of MQ and MQI (R192). -/
  mqG : Bool := false
  /-- guard of LC (R192). -/
  lcG : Bool := false
  /-- guard of LA (R192). -/
  laG : Bool := false
  /-- guard of C (R192). -/
  cG : Bool := false
  /-- EID (R192). -/
  eid : BitVec 4 := 0#4
  /-- EW (R192). -/
  ew : BitVec 5 := 0#5
  /-- instructions issued since the last slice point (R198). -/
  issued : Nat := 0
  /-- tick of the last slice point (R187). -/
  sliceTick : Nat := 0
  /-- the blocking instruction (R196). -/
  blk : Option Blocked := none
  /-- stream-in queue (32) (R179). -/
  sin : List (BitVec 24) := []
  /-- input words delivered so far (R257). -/
  fed : Nat := 0
  /-- input for this engine delivered in full (R202, R257). -/
  inDone : Bool := false
  /-- words sent, not yet taken (R179). -/
  sout : List (BitVec 24) := []
  /-- credit on the stream-out queue (R179). -/
  credit : Nat := 32
deriving DecidableEq, Repr

/-- 07 R175, 08 R210: a Keccak unit. -/
structure Kck where
  /-- engine that holds it (R175). -/
  owner : Option Nat := none
  /-- state (R210). -/
  ph : UnitPh := .idle
  /-- mode (R210). -/
  mode : Nat := 0
  /-- sponge state (R175). -/
  lanes : Vector (BitVec 64) 25 := Vector.replicate 25 0#64
  /-- byte position in the rate (R210). -/
  pos : Nat := 0
  /-- bytes squeezed (R210). -/
  out : Nat := 0
  /-- holds guarded state (R176). -/
  guarded : Bool := false
deriving DecidableEq, Repr

/-- 07 R175, 08 R210: a SHA-2 unit. -/
structure Sha where
  /-- engine that holds it (R175). -/
  owner : Option Nat := none
  /-- state (R210). -/
  ph : UnitPh := .idle
  /-- mode (R210). -/
  mode : Nat := 0
  /-- bytes absorbed (R210). -/
  msg : Bytes := []
  /-- holds guarded state (R176). -/
  guarded : Bool := false
deriving DecidableEq, Repr

/-- 07 R175, 08 R210: the AES unit. -/
structure Aes where
  /-- engine that holds it (R175). -/
  owner : Option Nat := none
  /-- state (R210). -/
  ph : UnitPh := .idle
  /-- mode 1 CTR (R210). -/
  ctr : Bool := false
  /-- key register (R176). -/
  key : Option (Bytes) := none
  /-- IV or counter block (R210). -/
  iv : Bytes := []
  /-- additional data absorbed (R210). -/
  aad : Bytes := []
  /-- ciphertext of this message (R210). -/
  ct : Bytes := []
  /-- 0 none, 1 ENC, 2 DEC in this message (R210). -/
  dir : Nat := 0
  /-- holds guarded state (R176). -/
  guarded : Bool := false
deriving DecidableEq, Repr

/-- 07 R163: one cluster (x64). -/
structure Cluster where
  /-- STATE (R190). -/
  st : Nat := 0
  /-- PART (R190). -/
  part : Nat := 31
  /-- VCORE_MV (R190). -/
  vcore : BitVec 10 := 0#10
  /-- TEMP (R190). -/
  temp : BitVec 8 := 89#8
  /-- OFFLINE (R191). -/
  offline : Bool := false
  /-- 0 in service, 1 OFFLINE, 2 retired pages, 3 supply difference (R182, R191). -/
  outCause : Nat := 0
  /-- retired pages (R171). -/
  retired : List (Fin 128) := []
  /-- data memory words that are not zero: physical word, [23:0] data, [24] guard, [26:25] parity (R168). -/
  mem : List (Nat × BitVec 27) := []
  /-- bases of the customer programs resident in the writable store (R173). -/
  resident : List Nat := []
  /-- program-store addresses whose parity is wrong (R173). -/
  badParity : List Nat := []
  /-- K0 (R175). -/
  k0 : Kck := {}
  /-- K1 (R175). -/
  k1 : Kck := {}
  /-- S0 (R175). -/
  s0 : Sha := {}
  /-- S1 (R175). -/
  s1 : Sha := {}
  /-- A0 (R175). -/
  a0 : Aes := {}
  /-- tick of the grant (R152). -/
  grantTick : Nat := 0
  /-- the C0 partition that takes the cluster by preemption (R157). -/
  take : Option Nat := none
  /-- re-arbitrated: its partition places no further job here (R152). -/
  close : Bool := false
deriving DecidableEq, Repr

/-- 07 R181: one engine's hardware context slot. -/
structure Ctx where
  /-- registers and program counter (R181). -/
  eng : Engine := {}
  /-- the Keccak unit it held (R181). -/
  k : Option Kck := none
  /-- the SHA-2 unit it held (R181). -/
  sh : Option Sha := none
  /-- the AES unit it held (R181). -/
  a : Option Aes := none
deriving DecidableEq, Repr

/-- 08 R219, R221: one program directory entry (x32). -/
structure Prog where
  /-- ID (R221). -/
  id : Nat := 0
  /-- VERSION (R221). -/
  version : BitVec 32 := 0#32
  /-- BASE (R221). -/
  base : Nat := 0
  /-- LENGTH (R221). -/
  len : Nat := 0
  /-- ENTRY (R216). -/
  entry : Nat := 0
  /-- WIDTH (R216). -/
  width : Nat := 1
  /-- OPEN (R216). -/
  openP : Nat := 1
  /-- GUARDED (R216). -/
  guardedP : Nat := 0
  /-- USE (R216). -/
  use : Nat := 0
  /-- code words (R216). -/
  code : List (BitVec 24) := []
  /-- DRAINING (R221). -/
  draining : Bool := false
deriving DecidableEq, Repr

/-- 10 R251: one job in flight. -/
structure Job where
  /-- number in admission order (MODEL's own). -/
  id : Nat := 0
  /-- function (R248). -/
  fn : Fin 16 := 0
  /-- queue pair (R248). -/
  q : Fin 64 := 0
  /-- its descriptor (R253). -/
  d : Desc := ⟨0, 0, 0, 0, 0, 0, 0, 0, 0, 0, 0, 0, 0, 0, 0, 0⟩
  /-- fetched, waiting for dispatch, running, stopping at slice points, waiting for its key result, or done (R251). -/
  ph : JobPh := .fetched
  /-- STATUS when stopping or done (R271). -/
  status : BitVec 8 := 0#8
  /-- RESULT (R271). -/
  result : BitVec 32 := 0#32
  /-- cluster it holds (R255). -/
  cluster : Option (Fin 64) := none
  /-- open pages in logical order (R169). -/
  pages : List (Fin 128) := []
  /-- guarded pages in logical order (R169). -/
  gpages : List (Fin 128) := []
  /-- base of the program copy it runs (0 for ROM) (R219). -/
  prog : Nat := 0
  /-- declared width (R165). -/
  width : Nat := 1
  /-- engines that joined (R165). -/
  joined : Nat := 0
  /-- engines that executed HALT (R206). -/
  halted : Nat := 0
  /-- barrier counters (R205). -/
  bar : Vector (BitVec 24) 8 := Vector.replicate 8 0#24
  /-- source bytes as read (R257). -/
  src : Bytes := []
  /-- AUX bytes as read (R257). -/
  aux : Bytes := []
  /-- bytes EID 0 sent out (R257). -/
  out : Bytes := []
  /-- words of other engines discarded (R257). -/
  lost : Nat := 0
  /-- engine-ticks charged (R260). -/
  time : Nat := 0
  /-- times it lost its cluster (R262). -/
  losses : Nat := 0
  /-- its function was reset: it ends without a record (R227). -/
  discard : Bool := false
  /-- slots it loaded from, with the key bytes of the version it keeps (R265). -/
  keyVer : List (Nat × Bytes) := []
  /-- destination list (R254). -/
  dstSgl : List SglEnt := []
deriving DecidableEq, Repr

/-- 10 R248: one queue pair (16 functions x 64). -/
structure Queue where
  /-- JOB_SQ_BASE (R273). -/
  sqBase : BitVec 64 := 0#64
  /-- JOB_CQ_BASE (R273). -/
  cqBase : BitVec 64 := 0#64
  /-- EN (R273). -/
  en : Bool := false
  /-- LOG2SIZE (R273). -/
  k : Nat := 0
  /-- VECTOR (R273). -/
  vector : BitVec 7 := 0#7
  /-- MSIX_EN (R273). -/
  msix : Bool := false
  /-- ERROR (R273). -/
  error : Bool := false
  /-- SQ_HEAD (R273). -/
  sqHead : Nat := 0
  /-- last accepted SQ tail (R250). -/
  sqTail : Nat := 0
  /-- CQ_TAIL (R273). -/
  cqTail : Nat := 0
  /-- last accepted CQ head (R250). -/
  cqHead : Nat := 0
  /-- PHASE of the next record (R273). -/
  phase : Bool := true
  /-- COAL_COUNT (R273). -/
  coalCount : BitVec 8 := 0#8
  /-- COAL_US (R273). -/
  coalUs : BitVec 16 := 0#16
  /-- records since the last send (R261). -/
  unsignalled : Nat := 0
deriving DecidableEq, Repr

/-- 09 R224-R236: one function's configuration state (x16). -/
structure Fn where
  /-- Bus Master Enable (R242). -/
  bme : Bool := false
  /-- Memory Space Enable (R464). -/
  mse : Bool := false
  /-- D3hot (R236). -/
  d3 : Bool := false
  /-- holding register of host software: the low register, and the high words (R235, R442). -/
  hold : Option (Nat × List (BitVec 32)) := none
  /-- holding register of the management program (R235, R442). -/
  holdM : Option (Nat × List (BitVec 32)) := none
  /-- the vectors of the MSI-X table that are not masked (R243). -/
  msixOpen : List Nat := []
  /-- the other words of the MSI-X table, by their word number (R229, R233). -/
  msixTab : List (Nat × BitVec 32) := []
  /-- pending bits (R243). -/
  pba : List Nat := []
deriving DecidableEq, Repr

/-- 09 R244: one IDE stream (0-7 selective, 8 link). -/
structure Ide where
  /-- Secure (R244). -/
  secure : Bool := false
  /-- key set, sub-stream and direction against vault slot (R244, R345). -/
  keys : List (Nat × Fin 256) := []
deriving DecidableEq, Repr

/-- 14 R372: a current link of the federation tree. -/
structure Link where
  /-- neighbour's MEMBER (R371). -/
  mem : BitVec 16 := 0#16
  /-- EPOCH (R371). -/
  epoch : BitVec 32 := 0#32
  /-- SEQ last sent (R372). -/
  txSeq : BitVec 64 := 0#64
  /-- SEQ last accepted (R372). -/
  rxSeq : BitVec 64 := 0#64
  /-- link key (parent side: derived from FMS) (R371). -/
  lk : Bytes := []
  /-- child's identity hash (R371). -/
  idh : BitVec 384 := 0#384
  /-- child's alias hash (R371). -/
  aliasH : BitVec 384 := 0#384
deriving DecidableEq, Repr

/-- 14 R376: one leaf of a round. -/
structure Leaf where
  /-- MEMBER (R376). -/
  mem : BitVec 16 := 0#16
  /-- status (R375). -/
  status : Nat := 3
  /-- token digest (R376). -/
  digest : BitVec 384 := 0#384
  /-- members covered (R376). -/
  covered : Nat := 0
deriving DecidableEq, Repr

/-- 14 R375: an aggregation round. -/
structure Round where
  /-- nonce (R375). -/
  nonce : Bytes := []
  /-- started by an EVID_REQ (R375). -/
  uplink : Bool := false
  /-- ROUND of that EVID_REQ (R370). -/
  upNo : BitVec 32 := 0#32
  /-- ROUND (R370). -/
  no : BitVec 32 := 0#32
  /-- one per joined child, ascending (R376). -/
  leaves : List Leaf := []
deriving DecidableEq, Repr

/-- 15 R400: one platform watchdog (x32). -/
structure PlatWdg where
  /-- written MS (R403). -/
  period : BitVec 20 := 0#20
  /-- period applied (R400). -/
  periodNow : BitVec 20 := 0#20
  /-- written SEED (R403). -/
  seed : BitVec 16 := 1#16
  /-- token expected (R400). -/
  token : BitVec 16 := 1#16
  /-- ARMED (R403). -/
  armed : Bool := false
  /-- PAUSED (R403). -/
  paused : Bool := false
  /-- EXPIRIES (R403). -/
  expiries : BitVec 8 := 0#8
  /-- tick at which the period began (R400). -/
  startTick : Nat := 0
deriving DecidableEq, Repr

/-- 17 R444: one bandwidth monitor (x4). -/
structure Bw where
  /-- PORT (R447). -/
  port : BitVec 4 := 0#4
  /-- DIR (R447). -/
  dir : Bool := false
  /-- WINDOW (R447). -/
  window : BitVec 24 := 0#24
  /-- LAST (R447). -/
  last : BitVec 32 := 0#32
  /-- PEAK (R447). -/
  peak : BitVec 32 := 0#32
deriving DecidableEq, Repr

/-- 17 R445: one tag-buffer entry. -/
structure TagRec where
  /-- bytes 0-1 (R445). -/
  engine : BitVec 16 := 0#16
  /-- bytes 2-3 (R445). -/
  prog : BitVec 16 := 0#16
  /-- bytes 4-5 (R445). -/
  pc : BitVec 16 := 0#16
  /-- bytes 8-11 (R445). -/
  fetch : BitVec 32 := 0#32
  /-- bytes 12-13 (R445). -/
  issue : BitVec 16 := 0#16
  /-- bytes 14-15 (R445). -/
  retire : BitVec 16 := 0#16
deriving DecidableEq, Repr

/-- 04: fuse array, shadows and controller. -/
structure Fus where
  /-- words that are not blank at both margins: address, tight, loose (R89, R91). -/
  array : List (Nat × BitVec 39 × BitVec 39) := []
  /-- words loaded (a blank word is absent) (R84). -/
  shadow : List (Nat × BitVec 32) := []
  /-- write-locks blown (R98). -/
  lockW : BitVec 12 := 0#12
  /-- read-locks blown (R98). -/
  lockR : BitVec 12 := 0#12
  /-- BUSY (R118). -/
  busy : Bool := false
  /-- LC_DONE (R118). -/
  lcDone : Bool := false
  /-- ERR (R118). -/
  err : BitVec 4 := 0#4
  /-- FUS_ADDR (R118). -/
  addr : BitVec 11 := 0#11
  /-- FUS_DATA (R118). -/
  data : BitVec 32 := 0#32
  /-- FUS_RESULT (R118). -/
  result : BitVec 5 := 0#5
  /-- PASS (R118). -/
  pass : BitVec 12 := 0#12
  /-- FAILED (R118). -/
  failed : BitVec 12 := 0#12
  /-- FUS_CE_COUNT (R118). -/
  ceCount : BitVec 16 := 0#16
  /-- FUS_PKG (R118). -/
  pkg : BitVec 64 := 0#64
  /-- FUS_CTR (R105). -/
  ctr : Vector (BitVec 7) 64 := Vector.replicate 64 0#7
  /-- programming command in progress (R117). -/
  prog : Option FuseProg := none
deriving DecidableEq, Repr

/-- 06: Watershed. -/
structure Wsh where
  /-- first frame has started (R142). -/
  started : Bool := false
  /-- LEN (R162). -/
  len : Nat := 0
  /-- ticks of this frame so far (R142). -/
  tick : Nat := 0
  /-- FRAME_NO (R162). -/
  no : BitVec 32 := 0#32
  /-- capacities of this frame (R162). -/
  cap : N3 := {}
  /-- RISK_N (R162). -/
  riskN : Nat := 3
  /-- MAX (R162). -/
  c0Max : BitVec 16 := 0#16
  /-- C0_LATE (R162). -/
  c0Late : BitVec 32 := 0#32
  /-- IN_FLIGHT (R162). -/
  inFlight : Nat := 0
  /-- PROMISE (R162). -/
  promise : Bool := false
  /-- SCALED, per resource (R162). -/
  scaled : B3 := {}
  /-- REASON (R162). -/
  reason : Nat := 5
  /-- C0_HOSTS (R162). -/
  c0Hosts : Nat := 0
  /-- partitions (R144). -/
  parts : Vector Part 24 := Vector.replicate 24 {}
  /-- DMA units in this frame, inbound (R157). -/
  dmaIn : Nat := 0
  /-- DMA units in this frame, outbound (R157). -/
  dmaOut : Nat := 0
deriving DecidableEq, Repr

/-- 07, 08: the engine array. -/
structure Pln where
  /-- USABLE (R190). -/
  usable : Nat := 0
  /-- clusters (R163). -/
  clusters : Vector Cluster 64 := Vector.replicate 64 {}
  /-- engines that hold a job: cluster × 16 + engine (R165). -/
  engines : List (Nat × Engine) := []
  /-- context slots in use: cluster × 16 + engine (R181). -/
  ctx : List (Nat × Ctx) := []
  /-- program directory (R221). -/
  progs : List Prog := []
  /-- DV_MV (R190). -/
  gradDv : BitVec 10 := 0#10
  /-- DT_K (R190). -/
  gradDt : BitVec 8 := 0#8
  /-- temperature episode logged (R183). -/
  dtEpisode : Bool := false
  /-- PLN_TRAPS (R190). -/
  traps : BitVec 32 := 0#32
  /-- IPUS (R190). -/
  pinIpus : Nat := 0
  /-- CLUSTERS (R190). -/
  pinClusters : Nat := 0
deriving DecidableEq, Repr

/-- 10: job dispatcher. -/
structure JobB where
  /-- queue pairs that differ: function × 64 + queue (R248). -/
  queues : List (Nat × Queue) := []
  /-- JOB_FN_LIMIT (R273). -/
  limits : Vector (BitVec 16) 16 := Vector.replicate 16 2000#16
  /-- effective quotas (R273). -/
  quotas : Vector Nat 16 := Vector.replicate 16 0
  /-- quotas as configured or written, before scaling (R159, R272). -/
  want : Vector Nat 16 := Vector.replicate 16 0
  /-- jobs in flight (R251). -/
  jobs : List Job := []
  /-- next job number (MODEL's own). -/
  nextId : Nat := 0
deriving DecidableEq, Repr

/-- 09: host link. -/
structure Hlk where
  /-- SPEED (R247). -/
  speed : BitVec 3 := 0#3
  /-- WIDTH (R247). -/
  width : BitVec 5 := 0#5
  /-- REVERSED (R247). -/
  reversed : Bool := false
  /-- FLIT (R247). -/
  flit : Bool := false
  /-- PM (R247). -/
  pm : BitVec 3 := 6#3
  /-- NUMVF (R247). -/
  numVf : Nat := 0
  /-- rung whose entry waits for PME_Turn_Off (R237). -/
  pmeWait : Option Rung := none
  /-- link states enabled (L0s, L1, L1.1, L1.2, L2) (R236). -/
  aspm : BitVec 5 := 0#5
  /-- ARI Capable Hierarchy (R226). -/
  ari : Bool := false
  /-- functions (R224). -/
  fns : Vector Fn 16 := Vector.replicate 16 {}
  /-- HLK_EVR_BASE (R247). -/
  ringBase : BitVec 64 := 0#64
  /-- EN (R247). -/
  ringEn : Bool := false
  /-- MSIX (R247). -/
  ringMsix : Bool := false
  /-- LOG2SIZE (R247). -/
  ringK : Nat := 0
  /-- HOLDOFF (R247). -/
  holdoff : BitVec 8 := 0#8
  /-- HEAD (R247). -/
  head : Nat := 0
  /-- TAIL (R247). -/
  tail : Nat := 0
  /-- PHASE (R247). -/
  phase : Bool := true
  /-- internal queue, oldest first (512) (R242). -/
  msgs : List Msg := []
  /-- DROPPED (R247). -/
  dropTotal : BitVec 32 := 0#32
  /-- drops since the previous posted entry (R240). -/
  dropSince : Nat := 0
  /-- open run of drops, ring full (R241). -/
  runFull : Nat := 0
  /-- open run of drops, queue full (R241). -/
  runQueue : Nat := 0
  /-- a drop of that reason in this frame (R241). -/
  runFullSeen : Bool := false
  /-- as above, queue full (R241). -/
  runQueueSeen : Bool := false
  /-- frames the run has been open (R241). -/
  runFullAge : Nat := 0
  /-- as above, queue full (R241). -/
  runQueueAge : Nat := 0
  /-- a holdoff interval runs (R243). -/
  holdoffOn : Bool := false
  /-- an entry of the batch in progress has been posted (R243). -/
  batchPosted : Bool := false
  /-- an MSI-X write is owed at its end (R243). -/
  holdoffOwed : Bool := false
  /-- HLK_IDE_POLICY (R247). -/
  policy : BitVec 3 := 0#3
  /-- IDE streams (R244). -/
  ide : Vector Ide 9 := Vector.replicate 9 {}
  /-- FAILS (R247). -/
  ideFails : BitVec 16 := 0#16
  /-- SPDM sessions (4) (R246). -/
  sessions : List (BitVec 32) := []
  /-- SPDM sessions whose handshake is not finished (R246). -/
  shakes : List (BitVec 32) := []
  /-- BAR2 reads waiting: offsets (R231). -/
  bar2 : List Nat := []
deriving DecidableEq, Repr

/-- 11: Saddle flash guard. -/
structure Sdl where
  /-- channels (R275). -/
  ch : Vector Channel 16 := (Vector.replicate 16 {}).set 15 ({ passCs1 := true } : Channel)
  /-- PRESENT (R304). -/
  present : BitVec 16 := 0#16
  /-- effective PASS mask (R128). -/
  pass : BitVec 16 := 0#16
  /-- SDL_CONTVER (R304). -/
  contver : BitVec 16 := 0#16
  /-- BUSY (R304). -/
  busy : Bool := false
  /-- RESULT (R304). -/
  result : BitVec 4 := 0#4
deriving DecidableEq, Repr

/-- 12: platform release sequencer. -/
structure Prs where
  /-- domains (R306). -/
  dom : Vector Domain 32 := Vector.replicate 32 {}
  /-- RESULT (R335). -/
  result : BitVec 4 := 0#4
deriving DecidableEq, Repr

/-- 12: image ledger and recovery manager. -/
structure Ldg where
  /-- image objects (R311). -/
  objs : Vector Obj 64 := Vector.replicate 64 {}
  /-- SECTOR (R336). -/
  sector : Bool := false
  /-- EMPTY (R336). -/
  empty : Bool := false
  /-- FAIL (R336). -/
  fail : Bool := false
  /-- generation (GEN shows [15:0]) (R336). -/
  gen : BitVec 32 := 0#32
  /-- SEQ (R336). -/
  seq : BitVec 32 := 0#32
  /-- FREE (R336). -/
  free : Nat := 0
  /-- records of the active sector as read, oldest first (R325). -/
  recs : List LedRec := []
  /-- BUSY (R336). -/
  busy : Bool := false
  /-- RESULT (R336). -/
  result : BitVec 4 := 0#4
  /-- CHECK (R336). -/
  check : BitVec 4 := 0#4
  /-- LDG_RCV (R336). -/
  rcvAddr : BitVec 64 := 0#64
  /-- RCV_BUSY (R336). -/
  rcvBusy : Bool := false
  /-- RCV_SRC (R336). -/
  rcvSrc : Nat := 0
  /-- sources still to try for the object (R331). -/
  rcvOrder : List Nat := []
  /-- object under recovery (R331). -/
  rcvObj : Option (Fin 64) := none
  /-- domains in the recovery (R331). -/
  rcvDoms : BitVec 32 := 0#32
  /-- 0 awaiting a package, 1 programmed and awaiting readback, 2 the agent's golden copy to be checked, 3 its boot awaiting device ready, 4 the Chain Port's frame to end, 5 erased and taking the body (R332). -/
  rcvStage : Nat := 0
  /-- last 8,192 bytes of a package, held until its body is programmed (R379, R419). -/
  rcvTail : Bytes := []
  /-- ORIGIN of the delivered package (R332). -/
  rcvOrigin : Nat := 0
  /-- RETRY_MIN runs (R334). -/
  retryWait : Bool := false
  /-- recovery boot in progress (R333). -/
  agentBoot : Bool := false
deriving DecidableEq, Repr

/-- 13: key vault. -/
structure Kvt where
  /-- slots that hold a key or metadata (R337). -/
  slots : List (Nat × Slot) := []
  /-- shadows in use (8), in arrival order (R346). -/
  shadows : List Shadow := []
  /-- IDENT (R358). -/
  ident : Bool := false
  /-- RESTORED (R358). -/
  restored : Bool := false
  /-- IMG_OK (R358). -/
  imgOk : Bool := false
  /-- BUSY (R358). -/
  busy : Bool := false
  /-- RESULT (R358). -/
  result : BitVec 4 := 0#4
  /-- SUB (R358). -/
  sub : BitVec 4 := 0#4
  /-- MS in effect (R358). -/
  remask : BitVec 7 := 4#7
  /-- LATE (R358). -/
  late : BitVec 8 := 0#8
  /-- passes stopped (0xC031 logged) (R355). -/
  remaskStopped : Bool := false
  /-- KVT_SEL (R358). -/
  sel : BitVec 8 := 0#8
  /-- KVT_GEN.KTYPE (R358). -/
  genType : BitVec 4 := 0#4
  /-- KVT_GEN.OWNER (R358). -/
  genOwner : BitVec 5 := 0#5
  /-- KVT_GEN_ATTR (R358). -/
  genAttr : BitVec 32 := 0#32
  /-- KVT_ADDR (R358). -/
  addr : BitVec 64 := 0#64
  /-- KVT_IDH (R358). -/
  idh : BitVec 384 := 0#384
  /-- alias hash (R361). -/
  aliasH : BitVec 384 := 0#384
  /-- KVT_RANGE.FIRST (R358). -/
  first : Vector (BitVec 8) 16 := Vector.replicate 16 16#8
  /-- KVT_RANGE.LAST (R358). -/
  last : Vector (BitVec 8) 16 := Vector.replicate 16 255#8
  /-- KVT_RANGE.EN (R358). -/
  en : BitVec 16 := 1#16
  /-- SK0 (R343). -/
  sk0 : BitVec 256 := 0#256
  /-- SK (R343). -/
  sk : BitVec 256 := 0#256
  /-- life-cycle state of the derivation (R341). -/
  lcAt : Nat := 0
  /-- a KEK draw is owed (R350). -/
  wipePend : Bool := false
  /-- a background image write is owed (R349, R352). -/
  imgPend : Bool := false
  /-- a KEK was drawn at this start (MODEL's own) (R353). -/
  kekNew : Bool := false
deriving DecidableEq, Repr

/-- 13: entropy source. -/
structure Ent where
  /-- STATE (R359). -/
  st : EntSt := .startup
  /-- FAILS (R359). -/
  fails : BitVec 16 := 0#16
  /-- RESEEDS (R359). -/
  reseeds : BitVec 16 := 0#16
  /-- ticks of the failures of the last second (R357). -/
  recent : List Nat := []
  /-- requests since the last reseed (R356). -/
  reqs : Nat := 0
deriving DecidableEq, Repr

/-- 14: attestation and federation unit. -/
structure Att where
  /-- ROLE (R380). -/
  role : Nat := 0
  /-- JOINED (R380). -/
  joined : Bool := false
  /-- ENDORSED (R380). -/
  endorsed : Bool := false
  /-- RESULT (R380). -/
  result : BitVec 4 := 0#4
  /-- BUSY (R380). -/
  busy : Bool := false
  /-- ATT_AGG (R380). -/
  aggAddr : BitVec 64 := 0#64
  /-- ATT_AGG_CAP (R380). -/
  aggCap : BitVec 32 := 0#32
  /-- ATT_TX (R380). -/
  txAddr : BitVec 64 := 0#64
  /-- ATT_TX_CTRL.EN (R380). -/
  txEn : Bool := false
  /-- LOG2SIZE (R380). -/
  txK : Nat := 0
  /-- HEAD (R380). -/
  txHead : Nat := 0
  /-- TAIL (R380). -/
  txTail : Nat := 0
  /-- PHASE (R380). -/
  txPhase : Bool := true
  /-- frames waiting (16): destination, bytes (R373). -/
  waiting : List (BitVec 16 × Bytes) := []
  /-- frames waiting for a peer's inbox slot (R373). -/
  peerWait : List (BitVec 16 × Bytes) := []
  /-- ACCEPTED (R380). -/
  accepted : BitVec 16 := 0#16
  /-- REJECTED (R380). -/
  rejected : BitVec 16 := 0#16
  /-- slots claimed (R374). -/
  inbox : Vector Bool 4 := Vector.replicate 4 false
  /-- inbox bytes that are not zero: slot × 16,384 + offset (R374). -/
  inboxBuf : List (Nat × BitVec 8) := []
  /-- uplink (R371). -/
  up : Option Link := none
  /-- joined children, ascending member (R371). -/
  children : List Link := []
  /-- join counter (R371). -/
  epoch : BitVec 32 := 0#32
  /-- nonces given, per member, with the tick of each (R371). -/
  challenge : List (BitVec 16 × Nat × Bytes) := []
  /-- tick of the last HELLO (R371). -/
  helloTick : Option Nat := none
  /-- tick of the last NAK REJOIN per SRC (R372). -/
  nakTick : List (BitVec 16 × Nat) := []
  /-- round in progress (R375). -/
  round : Option Round := none
  /-- rounds waiting (R375). -/
  rounds : List Round := []
  /-- last ROUND used (R370). -/
  roundNo : BitVec 32 := 0#32
  /-- submitted frames not yet acted on, oldest first (R374). -/
  rxq : List (Bytes) := []
  /-- frames of a peer recovery still to send: child, TYPE, payload (R379). -/
  serve : List (BitVec 16 × Nat × Bytes) := []
  /-- place in the random stream of the endorsement's signatures (the model's own) (R361). -/
  endDraw : Nat := 0
  /-- next offset expected of a peer recovery (LEN - 8,192 first) (R379). -/
  rcvNext : Option Nat := none
  /-- bootseed (R364). -/
  bootseed : BitVec 256 := 0#256
  /-- nonce of the CHAL being answered (R371). -/
  nonceIn : Bytes := []
deriving DecidableEq, Repr

/-- 15: tamper monitors. -/
structure Tmp where
  /-- condition present (R402). -/
  active : BitVec 17 := 0#17
  /-- TRIP_A (R402). -/
  tripA : BitVec 6 := 0#6
  /-- TRIP_B (R402). -/
  tripB : BitVec 6 := 0#6
  /-- FAIL_A (R402). -/
  failA : BitVec 6 := 0#6
  /-- FAIL_B (R402). -/
  failB : BitVec 6 := 0#6
  /-- ALARMS (R402). -/
  alarms : BitVec 16 := 0#16
  /-- ERASES (R402). -/
  erases : BitVec 8 := 0#8
  /-- TMP_LAST (R402). -/
  last : Option (Fin 17) := none
  /-- MODE (R402). -/
  pinMode : BitVec 16 := 0x5555#16
  /-- LEVEL (R402). -/
  pinLevel : BitVec 8 := 0xFF#8
  /-- TMP_AND (R402). -/
  andMask : BitVec 6 := 0#6
  /-- TMP_RESP (R388, R402). -/
  resp : Vector (BitVec 5) 17 := startResp
  /-- TMP_HOLDSET (R402). -/
  holdset : Vector (BitVec 32) 17 := Vector.replicate 17 0xFFFFFFFF#32
  /-- HOLD_AUTO_S (R394). -/
  holdAuto : Nat := 0
  /-- the start set applies and RESET acts as HOLD (R388). -/
  starting : Bool := true
  /-- RESULT (R402). -/
  result : BitVec 4 := 0#4
  /-- source under self-test (R393). -/
  selftest : Option (Fin 6) := none
  /-- the self-test marked detector B of source 4, so the mark outlives the reference's return (R393, R396). -/
  selfFailB4 : Bool := false
  /-- latched sources whose condition has ended, with its calendar second (R389). -/
  ended : List (Nat × Nat) := []
  /-- conditions present, with the calendar millisecond at which each began (R385). -/
  began : List (Nat × Nat) := []
deriving DecidableEq, Repr

/-- 15: watchdogs. -/
structure Wdg where
  /-- RUNNING (R403). -/
  running : Bool := false
  /-- HW (R403). -/
  hw : Bool := false
  /-- K (R403). -/
  k : Nat := 0
  /-- N (R403). -/
  n : Nat := 0
  /-- OPEN (R403). -/
  isOpen : Bool := true
  /-- PAUSED (R403). -/
  paused : Bool := false
  /-- EXPIRIES (R403). -/
  expiries : BitVec 8 := 0#8
  /-- EN (R403). -/
  tasks : BitVec 16 := 1#16
  /-- CHECKED (R403). -/
  checked : BitVec 16 := 0#16
  /-- STRICT (R403). -/
  strict : BitVec 16 := 0#16
  /-- ARMED (R403). -/
  armed : BitVec 16 := 0#16
  /-- tasks that checked in twice in this period (R399). -/
  dup : BitVec 16 := 0#16
  /-- tick at which the period began (R397). -/
  startTick : Nat := 0
  /-- platform watchdogs (R400). -/
  plat : Vector PlatWdg 32 := Vector.replicate 32 {}
deriving DecidableEq, Repr

/-- 16: Chain Port. -/
structure Chp where
  /-- MODE (R422). -/
  mode : ChpMode := .masterIdle
  /-- ERRORS (R422). -/
  errors : BitVec 16 := 0#16
  /-- CHP_CMD_STATUS.BUSY (R422). -/
  cmdBusy : Bool := false
  /-- RESULT (R422). -/
  result : BitVec 4 := 0#4
  /-- LEN (R422). -/
  len : BitVec 16 := 1#16
  /-- OUT (R422). -/
  outN : BitVec 16 := 0#16
  /-- TURN (R422). -/
  turn : BitVec 4 := 0#4
  /-- KHZ in effect (R422). -/
  khz : Nat := 12500
  /-- OPCODE (R422). -/
  winOpcode : BitVec 8 := 3#8
  /-- ADDR (R422). -/
  winAddr : Nat := 3
  /-- TURN (R422). -/
  winTurn : Nat := 0
  /-- SEL (R422). -/
  winSel : Fin 16 := 0
  /-- ASSERT (R422). -/
  sel : BitVec 16 := 0#16
  /-- CHP_SEL write waiting for the end of a frame (R407). -/
  selPend : Option (BitVec 16) := none
  /-- GPIO_USE applied (R408). -/
  gpioUse : Vector (BitVec 8) 16 := Vector.replicate 16 0#8
  /-- OUT (R422). -/
  gpioOut : BitVec 16 := 0#16
  /-- SEL_PIN (R422). -/
  slvSel : Option (Fin 16) := none
  /-- RDY_PIN (R422). -/
  slvRdy : Option (Fin 16) := none
  /-- STATE (R422). -/
  slvState : BitVec 3 := 0#3
  /-- FRAMES (R422). -/
  slvFrames : BitVec 16 := 0#16
  /-- object of the session (R418). -/
  slvObj : Option (Fin 64) := none
  /-- next OFFSET expected (R418). -/
  slvNext : Nat := 0
  /-- tail bytes held (R419). -/
  slvTail : Nat := 0
  /-- the tail bytes (R419). -/
  slvHeld : Bytes := []
  /-- last reject cause (R418). -/
  slvCause : BitVec 8 := 0#8
  /-- FREE (R418). -/
  slvFree : Nat := 4
  /-- transmit-buffer bytes that are not zero (R422). -/
  tx : List (Nat × BitVec 8) := []
  /-- receive-buffer bytes that are not zero (R422). -/
  rx : List (Nat × BitVec 8) := []
  /-- receive buffer valid (R410). -/
  rxValid : Bool := false
  /-- LEN of the frame that runs (R410). -/
  runLen : BitVec 16 := 0#16
  /-- its OUT (R410). -/
  runOut : BitVec 16 := 0#16
  /-- its TURN (R410). -/
  runTurn : BitVec 4 := 0#4
  /-- window reads that wait for the port: offset, bytes asked for, edges counted and data of the frame they will run (R415, R416). -/
  winPend : List (Nat × Nat × Nat × Bytes) := []
deriving DecidableEq, Repr

/-- 17: event recorder. -/
structure Evr where
  /-- records in the ring, newest first (8,192) (R428). -/
  ring : List EvRec := []
  /-- where records go (R429, R430). -/
  ph : RecPh := .staging
  /-- staging queue, oldest first (32) (R429). -/
  staged : List EvRec := []
  /-- FROZEN (R446). -/
  frozen : Bool := false
  /-- tick at which the freeze began (R436). -/
  freezeTick : Nat := 0
  /-- records missed in the freeze (R436). -/
  freezeMissed : Nat := 0
  /-- the next record written carries GAP (R424). -/
  gap : Bool := false
  /-- MISSED (R446). -/
  missed : BitVec 32 := 0#32
  /-- LOST (R446). -/
  lost : BitVec 32 := 0#32
  /-- open run of losses (R428). -/
  lossRun : Nat := 0
  /-- SEQ of the oldest record lost in the run (R428). -/
  lossSeq : BitVec 24 := 0#24
  /-- a loss in this frame (R428). -/
  lossSeen : Bool := false
  /-- frames the run has been open (R428). -/
  lossAge : Nat := 0
  /-- INDEX (R446). -/
  cursor : BitVec 24 := 0#24
  /-- SRC (R446). -/
  cursorSpill : Bool := false
  /-- AUTO (R446). -/
  cursorAuto : Bool := false
  /-- window: the snapshot; none is 32 zero bytes (R446). -/
  win : Option EvRec := none
  /-- WIN_READY (R446). -/
  winReady : Bool := true
  /-- WIN_PRESENT (R446). -/
  winPresent : Bool := false
  /-- RESULT (R446). -/
  cmdResult : BitVec 4 := 0#4
  /-- HEAD (R446). -/
  spillHead : Nat := 0
  /-- GEN (R446). -/
  spillGen : BitVec 32 := 0#32
  /-- SPILL_ON (R446). -/
  spillOn : Bool := false
  /-- SPILL_FAULT (R446). -/
  spillFault : Bool := false
  /-- EVR_CAL_SET (R446). -/
  calSet : BitVec 64 := 0#64
  /-- NOTIFY_SEV in effect (R446). -/
  notifySev : Nat := 4
  /-- frames counted over warm starts, so that frame numbers of two starts differ (R427). -/
  frameBase : Nat := 0
deriving DecidableEq, Repr

/-- 17: performance counters. -/
structure Pmc where
  /-- counters run (R440). -/
  on : Bool := false
  /-- counters that are not zero (R440). -/
  cnt : List (Nat × BitVec 48) := []
  /-- PMC_OVF (R447). -/
  ovf : BitVec 512 := 0#512
  /-- PMC_CHAIN (R447). -/
  chain : BitVec 256 := 0#256
  /-- USER_EN (R447). -/
  userEn : Bool := false
  /-- TAG_EN (R447). -/
  tagEn : Bool := false
  /-- TAG_N (R447). -/
  tagN : BitVec 5 := 16#5
  /-- seed drawn when TAG_EN is set (R445). -/
  tagSeed : BitVec 64 := 0#64
  /-- tag buffer, oldest first (R447). -/
  tags : List TagRec := []
  /-- TAG_FULL (R447). -/
  tagFull : Bool := false
  /-- bandwidth monitors (R447). -/
  bw : Vector Bw 4 := Vector.replicate 4 {}
deriving DecidableEq, Repr

/-- The whole state of the block, and the queue of the commands that are waiting. -/
structure State where
  /-- 03: GLB registers. -/
  glb : Glb := ({} : Glb)
  /-- 02: PWR registers, ladder and rails. -/
  pwr : Pwr := ({} : Pwr)
  /-- 01: lands the device drives or reads. -/
  pins : Pins := ({} : Pins)
  /-- 02, 12-17: always-on domain, kept through every reset while VIN or VBAT lasts. -/
  aon : Aon := ({} : Aon)
  /-- 15 R404: timebase. -/
  tbs : Tbs := ({} : Tbs)
  /-- 03: reset controller. -/
  rst : Rst := ({} : Rst)
  /-- 03, 05: start sequencer, configuration loader. -/
  boot : Boot := ({} : Boot)
  /-- 05 R119, 12 R321, 13 R351, 17 R431: what the device keeps in attached flash. -/
  nv : Nv := ({} : Nv)
  /-- MODEL's own: what the device sends outward (not a register of the spec). -/
  out : Out := ({} : Out)
  /-- 04: fuse array, shadows and controller. -/
  fus : Fus := ({} : Fus)
  /-- 06: Watershed. -/
  wsh : Wsh := ({} : Wsh)
  /-- 07, 08: the engine array. -/
  pln : Pln := ({} : Pln)
  /-- 10: job dispatcher. -/
  job : JobB := ({} : JobB)
  /-- 09: host link. -/
  hlk : Hlk := ({} : Hlk)
  /-- 11: Saddle flash guard. -/
  sdl : Sdl := ({} : Sdl)
  /-- 12: platform release sequencer. -/
  prs : Prs := ({} : Prs)
  /-- 12: image ledger and recovery manager. -/
  ldg : Ldg := ({} : Ldg)
  /-- 13: key vault. -/
  kvt : Kvt := ({} : Kvt)
  /-- 13: entropy source. -/
  ent : Ent := ({} : Ent)
  /-- 14: attestation and federation unit. -/
  att : Att := ({} : Att)
  /-- 15: tamper monitors. -/
  tmp : Tmp := ({} : Tmp)
  /-- 15: watchdogs. -/
  wdg : Wdg := ({} : Wdg)
  /-- 16: Chain Port. -/
  chp : Chp := ({} : Chp)
  /-- 17: event recorder. -/
  evr : Evr := ({} : Evr)
  /-- 17: performance counters. -/
  pmc : Pmc := ({} : Pmc)
  /-- the commands that are waiting, first in, first out. -/
  pending : List Instr := []
deriving DecidableEq, Repr

/-- Change the block `glb` alone. -/
def State.modGlb (s : State) (f : Glb → Glb) : State := { s with glb := f s.glb }

/-- Change the block `pwr` alone. -/
def State.modPwr (s : State) (f : Pwr → Pwr) : State := { s with pwr := f s.pwr }

/-- Change the block `pins` alone. -/
def State.modPins (s : State) (f : Pins → Pins) : State := { s with pins := f s.pins }

/-- Change the block `aon` alone. -/
def State.modAon (s : State) (f : Aon → Aon) : State := { s with aon := f s.aon }

/-- Change the block `tbs` alone. -/
def State.modTbs (s : State) (f : Tbs → Tbs) : State := { s with tbs := f s.tbs }

/-- Change the block `rst` alone. -/
def State.modRst (s : State) (f : Rst → Rst) : State := { s with rst := f s.rst }

/-- Change the block `boot` alone. -/
def State.modBoot (s : State) (f : Boot → Boot) : State := { s with boot := f s.boot }

/-- Change the block `nv` alone. -/
def State.modNv (s : State) (f : Nv → Nv) : State := { s with nv := f s.nv }

/-- Change the block `out` alone. -/
def State.modOut (s : State) (f : Out → Out) : State := { s with out := f s.out }

/-- Change the block `fus` alone. -/
def State.modFus (s : State) (f : Fus → Fus) : State := { s with fus := f s.fus }

/-- Change the block `wsh` alone. -/
def State.modWsh (s : State) (f : Wsh → Wsh) : State := { s with wsh := f s.wsh }

/-- Change the block `pln` alone. -/
def State.modPln (s : State) (f : Pln → Pln) : State := { s with pln := f s.pln }

/-- Change the block `job` alone. -/
def State.modJob (s : State) (f : JobB → JobB) : State := { s with job := f s.job }

/-- Change the block `hlk` alone. -/
def State.modHlk (s : State) (f : Hlk → Hlk) : State := { s with hlk := f s.hlk }

/-- Change the block `sdl` alone. -/
def State.modSdl (s : State) (f : Sdl → Sdl) : State := { s with sdl := f s.sdl }

/-- Change the block `prs` alone. -/
def State.modPrs (s : State) (f : Prs → Prs) : State := { s with prs := f s.prs }

/-- Change the block `ldg` alone. -/
def State.modLdg (s : State) (f : Ldg → Ldg) : State := { s with ldg := f s.ldg }

/-- Change the block `kvt` alone. -/
def State.modKvt (s : State) (f : Kvt → Kvt) : State := { s with kvt := f s.kvt }

/-- Change the block `ent` alone. -/
def State.modEnt (s : State) (f : Ent → Ent) : State := { s with ent := f s.ent }

/-- Change the block `att` alone. -/
def State.modAtt (s : State) (f : Att → Att) : State := { s with att := f s.att }

/-- Change the block `tmp` alone. -/
def State.modTmp (s : State) (f : Tmp → Tmp) : State := { s with tmp := f s.tmp }

/-- Change the block `wdg` alone. -/
def State.modWdg (s : State) (f : Wdg → Wdg) : State := { s with wdg := f s.wdg }

/-- Change the block `chp` alone. -/
def State.modChp (s : State) (f : Chp → Chp) : State := { s with chp := f s.chp }

/-- Change the block `evr` alone. -/
def State.modEvr (s : State) (f : Evr → Evr) : State := { s with evr := f s.evr }

/-- Change the block `pmc` alone. -/
def State.modPmc (s : State) (f : Pmc → Pmc) : State := { s with pmc := f s.pmc }

/-- The block when power is first applied: every field at the value the spec states for reset, or at the value the
assumption log names. -/
def State.reset : State := {}

end Sys2Proof.Machine
end

