-- ==== Sys2Proof/Machine/Maps.lean ====
section
/-! DEFINITION. The block's addressed memories and counters as lists of (key, value) in one canonical form: keys strictly
rising, and no entry equal to what an unlisted key reads as. And small helpers over bytes and bits. -/

namespace Sys2Proof.Machine

/-- What a key reads as; `d` where it is not listed. -/
def cellGet {α : Type} (d : α) : List (Nat × α) → Nat → α
  | [], _ => d
  | (k, v) :: m, a => if a = k then v else cellGet d m a

/-- Write a key, keeping the canonical form: writing what an unlisted key reads as removes the entry. -/
def cellSet {α : Type} [DecidableEq α] (d : α) : List (Nat × α) → Nat → α → List (Nat × α)
  | [], a, v => if v = d then [] else [(a, v)]
  | (k, w) :: m, a, v =>
    if a < k then (if v = d then (k, w) :: m else (a, v) :: (k, w) :: m)
    else if a = k then (if v = d then m else (a, v) :: m)
    else (k, w) :: cellSet d m a v

/-- The canonical form: keys above `lo`, strictly rising, no entry equal to the default. -/
def cellWfFrom {α : Type} [DecidableEq α] (d : α) (lo : Nat) : List (Nat × α) → Bool
  | [] => true
  | (k, v) :: m => decide (lo ≤ k) && decide (v ≠ d) && cellWfFrom d (k + 1) m

/-- A list of cells is in the canonical form. -/
def cellWf {α : Type} [DecidableEq α] (d : α) (m : List (Nat × α)) : Bool := cellWfFrom d 0 m

/-- The first value listed under a key. -/
def assocGet {α : Type} (m : List (Nat × α)) (k : Nat) : Option α :=
  match m with
  | [] => none
  | (j, v) :: t => if j = k then some v else assocGet t k

/-- Put a value under a key, in rising order of keys. -/
def assocPut {α : Type} (m : List (Nat × α)) (k : Nat) (v : α) : List (Nat × α) :=
  match m with
  | [] => [(k, v)]
  | (j, w) :: t => if k < j then (k, v) :: (j, w) :: t else if k = j then (k, v) :: t else (j, w) :: assocPut t k v

/-- Remove a key. -/
def assocDel {α : Type} (m : List (Nat × α)) (k : Nat) : List (Nat × α) := m.filter (fun e => e.1 ≠ k)

/-- `n + k`, no further than `cap`. -/
def satAdd (cap n k : Nat) : Nat := min cap (n + k)

/-- Saturating count in a bit vector. -/
def bvSat {w : Nat} (b : BitVec w) (k : Nat) : BitVec w := BitVec.ofNat w (min (2 ^ w - 1) (b.toNat + k))

/-- A bit of a mask set or cleared. -/
def bvPut {w : Nat} (b : BitVec w) (i : Nat) (v : Bool) : BitVec w :=
  if v then b ||| BitVec.ofNat w (2 ^ i) else b &&& ~~~(BitVec.ofNat w (2 ^ i))

/-- The bit for a flag. -/
def bit {w : Nat} (v : Bool) (i : Nat) : BitVec w := if v then BitVec.ofNat w (2 ^ i) else 0

/-- A number as a 32-bit event parameter. -/
def p32 (n : Nat) : BitVec 32 := BitVec.ofNat 32 n

/-- A number as a 32-bit event parameter, saturating. -/
def p32s (n : Nat) : BitVec 32 := BitVec.ofNat 32 (min (2 ^ 32 - 1) n)

/-- `n` little-endian bytes of a number. -/
def leBytes (n v : Nat) : Bytes := (List.range n).map fun i => BitVec.ofNat 8 (v / 256 ^ i)

/-- The number a little-endian string of bytes stands for. -/
def leNat : Bytes → Nat
  | [] => 0
  | b :: t => b.toNat + 256 * leNat t

/-- `n` bytes from offset `o`. -/
def slice (b : Bytes) (o n : Nat) : Bytes := (b.drop o).take n

/-- The little-endian field of `n` bytes at offset `o`. -/
def leAt (b : Bytes) (o n : Nat) : Nat := leNat (slice b o n)

/-- Every bit of a mask that is set, lowest first. -/
def bitsOf {w : Nat} (b : BitVec w) : List Nat := (List.range w).filter fun i => b.getLsbD i

/-- The number of bits set. -/
def popCount {w : Nat} (b : BitVec w) : Nat := (bitsOf b).length

end Sys2Proof.Machine
end

