-- ==== Sys2Proof/Machine/Events.lean ====
section
/-! DEFINITION. Raising an event (chapter 17): its severity and source, folding, the battery buffer, the staging queue, the
ring with its losses, freezes, and the message it generates for the host (chapter 09, R239 to R243). -/

namespace Sys2Proof.Machine

/-- The events of severity 1, from the event tables of the chapters. -/
def sevCodes1 : List (BitVec 16) :=
  [0x1022#16, 0x1040#16, 0x1042#16, 0x1050#16, 0x3021#16, 0x5001#16, 0x5007#16, 0x4020#16, 0x5016#16,
   0x5017#16, 0x6001#16, 0x6011#16, 0x7001#16, 0x7053#16, 0x9001#16, 0x9010#16, 0x8001#16, 0x8002#16,
   0xA001#16, 0xB004#16, 0xB020#16, 0xC010#16, 0xC040#16, 0xC801#16, 0xC820#16, 0xD001#16, 0xD002#16,
   0xE001#16, 0xE021#16, 0xE121#16, 0xF001#16, 0xF041#16, 0xF046#16]

/-- The events of severity 2, from the event tables of the chapters. -/
def sevCodes2 : List (BitVec 16) :=
  [0x1001#16, 0x1011#16, 0x1021#16, 0x1031#16, 0x1061#16, 0x3010#16, 0x3011#16, 0x5002#16, 0x5005#16,
   0x5006#16, 0x4012#16, 0x4034#16, 0x4036#16, 0x5011#16, 0x5014#16, 0x5018#16, 0x5021#16, 0x6014#16,
   0x6017#16, 0x7023#16, 0x7050#16, 0x7052#16, 0x9003#16, 0x9040#16, 0x9050#16, 0x9060#16, 0x9061#16,
   0x8022#16, 0x8025#16, 0xA002#16, 0xA020#16, 0xA021#16, 0xA022#16, 0xA031#16, 0xA040#16, 0xA042#16,
   0xB001#16, 0xB021#16, 0xB025#16, 0xB028#16, 0xB029#16, 0xB030#16, 0xB043#16, 0xB045#16, 0xC001#16,
   0xC002#16, 0xC013#16, 0xD010#16, 0xD011#16, 0xD030#16, 0xD031#16, 0x2001#16, 0x2013#16, 0xE011#16,
   0xE101#16, 0xE123#16, 0xF031#16, 0xF043#16, 0xF045#16, 0xF060#16]

/-- The events of severity 4, from the event tables of the chapters. -/
def sevCodes4 : List (BitVec 16) :=
  [0x1002#16, 0x1013#16, 0x1030#16, 0x3001#16, 0x3031#16, 0x5008#16, 0x4010#16, 0x4022#16, 0x4032#16,
   0x4033#16, 0x4037#16, 0x5013#16, 0x5022#16, 0x5024#16, 0x6013#16, 0x7012#16, 0x7020#16, 0x7021#16,
   0x7022#16, 0x7041#16, 0x9051#16, 0x9052#16, 0x8012#16, 0x8024#16, 0xA003#16, 0xA023#16, 0xA030#16,
   0xA041#16, 0xB003#16, 0xB023#16, 0xB027#16, 0xB041#16, 0xC003#16, 0xC011#16, 0xC021#16, 0xC031#16,
   0xC041#16, 0xC810#16, 0xC811#16, 0x2012#16, 0xE120#16, 0xF044#16]

/-- The events of severity 5, from the event tables of the chapters. -/
def sevCodes5 : List (BitVec 16) :=
  [0x1012#16, 0x1032#16, 0x3012#16, 0x3013#16, 0x3014#16, 0x5003#16, 0x4011#16, 0x4013#16, 0x5015#16,
   0x6021#16, 0x7030#16, 0xA032#16, 0xA050#16, 0xB026#16, 0xB02A#16, 0xB046#16, 0x2010#16, 0xE020#16,
   0xE110#16, 0xF042#16]

/-- The events of severity 6, from the event tables of the chapters. -/
def sevCodes6 : List (BitVec 16) :=
  [0x5004#16, 0x4038#16, 0xB013#16, 0xC812#16]

/-- The severity of an event, from the event tables of the chapters. -/
def evSev (code : BitVec 16) (p1 : BitVec 32) : Nat :=
  if code = 0xE010#16 then (if p1.getLsbD 12 || p1.getLsbD 11 then 6 else 5)
  else if code ∈ sevCodes1 then 1
  else if code ∈ sevCodes2 then 2
  else if code ∈ sevCodes4 then 4
  else if code ∈ sevCodes5 then 5
  else if code ∈ sevCodes6 then 6
  else 3

/-- The kind of source of an event and the index, from what its first parameter describes (R425). DEDUCED: a parameter
that joins two numbers (function × 64 + queue, cluster × 16 + engine) gives the index of the first. -/
def evInst (code : BitVec 16) (p0 : BitVec 32) : BitVec 16 :=
  let n := p0.toNat
  let mk (k i : Nat) : BitVec 16 := BitVec.ofNat 16 (k * 4096 + i % 4096)
  if code ∈ [0x9020#16, 0x9021#16, 0x9040#16, 0x9052#16, 0x8001#16, 0x8002#16, 0x8010#16, 0x8011#16, 0x8012#16,
      0x8022#16, 0xD002#16] then mk 1 n
  else if code ∈ [0x8020#16, 0x8021#16, 0x8023#16, 0x8024#16, 0x8026#16] then mk 1 (n / 64)
  else if code ∈ [0xA001#16, 0xA010#16, 0xA011#16, 0xA020#16, 0xA021#16, 0xA025#16, 0xA030#16, 0xA031#16, 0xA040#16,
      0xA042#16, 0xA050#16, 0xA051#16, 0xA052#16] then mk 2 n
  else if code ∈ [0xA002#16, 0xA003#16, 0xA041#16] then mk 2 (n / 2)
  else if code ∈ [0x7012#16, 0x7020#16, 0x7021#16, 0x7022#16, 0x7023#16, 0x7024#16, 0x7030#16, 0x7031#16, 0x7041#16]
    then mk 3 n
  else if code = 0x7010#16 then mk 3 (n / 16)
  else if code ∈ [0xB001#16, 0xB002#16, 0xB003#16, 0xB004#16, 0xB012#16, 0xB013#16, 0xB044#16, 0xB045#16, 0xE120#16,
      0xE121#16, 0xE122#16, 0xE123#16] then mk 4 n
  else if code ∈ [0x6010#16, 0x6011#16, 0x6015#16, 0x8025#16] then mk 5 n
  else if code = 0x6021#16 then mk 5 n
  else if code = 0xE010#16 then mk 6 (n / 256)
  else if code ∈ [0xE011#16, 0xE012#16, 0xE020#16, 0xE021#16] then mk 6 n
  else if code ∈ [0xA022#16, 0xA023#16, 0xA024#16, 0xB021#16, 0xB022#16, 0xB028#16, 0xB029#16, 0xB030#16, 0xB043#16,
      0xB046#16, 0xF030#16, 0xF031#16] then mk 7 n
  else if code = 0xB023#16 then mk 7 (n / 2)
  else 0

/-- A performance counter counts, wraps at 2^48 with its overflow bit, and an even counter of a chained pair passes its
wraps to the odd one, which no longer counts its own event (R440, R442). -/
def pmcCount (p : Pmc) (i n : Nat) : Pmc :=
  let v := (cellGet 0#48 p.cnt i).toNat + n
  { p with cnt := cellSet 0#48 p.cnt i (BitVec.ofNat 48 v), ovf := if v ≥ 2 ^ 48 then bvPut p.ovf i true else p.ovf }

/-- Count `n` of the event of counter `i` while the counters run, in L0 to L3 (R440). -/
def pmcAdd (i n : Nat) (s : State) : State :=
  if !s.pmc.on || n = 0 || s.pwr.rung = .rest || s.pwr.rung = .retain then s
  else if i % 2 = 1 && s.pmc.chain.getLsbD (i / 2) then s
  else
    let wraps := ((cellGet 0#48 s.pmc.cnt i).toNat + n) / 2 ^ 48
    s.modPmc fun p =>
      let p := pmcCount p i n
      if i % 2 = 0 && p.chain.getLsbD (i / 2) && wraps ≠ 0 then pmcCount p (i + 1) wraps else p

/-- Put one thing in the block's outward log. -/
def emit (e : OutEv) (s : State) : State := s.modOut fun o => { o with log := e :: o.log }

/-- Draw a free value of `w` bits, one that nothing constrains. -/
def drawFree (w : Nat) (s : State) : BitVec w × State :=
  (Config.freeBits w s.out.free, s.modOut fun o => { o with free := o.free + 1 })

/-- Draw `n` bytes from the random generator, one request of it (R356). -/
def drawRandom (n : Nat) (s : State) : Bytes × State :=
  ((List.range n).map fun i => Config.rbg (s.out.rng + i),
    (s.modOut fun o => { o with rng := o.rng + n }).modEnt fun e => { e with reqs := e.reqs + 1 })

/-- The running calendar's fraction: from the crystal above bit 8, interpolated below it in L0 to L4 (R437). -/
def calFrac (s : State) : BitVec 24 :=
  let f := BitVec.ofNat 24 (s.aon.calTick * 2 ^ 24 / 25000000)
  if s.pwr.rung = .retain || s.aon.batteryOnly then f &&& 0xFFFE00#24 else f

/-- The Watershed frame an event falls in, or the 1 ms of timebase time before the first frame (R427). -/
def evFrame (s : State) : Nat :=
  if s.wsh.started then 2 * (s.evr.frameBase + s.wsh.no.toNat) + 1 else 2 * (s.tbs.tick.toNat / 25000)

/-- A record of an event as raised now: stamped, without its sequence number (R423, R424, R425). -/
def mkRec (code : BitVec 16) (p0 p1 p2 : BitVec 32) (s : State) : EvRec :=
  { code := code, sev := evSev code p1, flags := if s.aon.calValid then 0#8 else 4#8, inst := evInst code p0,
    secs := s.aon.calSecs, frac := calFrac s, p0 := p0, p1 := p1, p2 := p2, frame := evFrame s }

/-- Two records are the same event in the same frame (R427). -/
def sameEvent (a b : EvRec) : Bool :=
  a.code == b.code && a.inst == b.inst && a.p0 == b.p0 && a.p1 == b.p1 && a.p2 == b.p2 && a.frame == b.frame

/-- Fold an event into the newest record of its code, if the two are the same event; `l` is newest first (R427). -/
def foldNewest (r : EvRec) : List EvRec → Option (List EvRec)
  | [] => none
  | a :: t =>
    if a.code == r.code then
      (if sameEvent a r then some ({ a with rep := satAdd 65535 a.rep 1 } :: t) else none)
    else (foldNewest r t).map (a :: ·)

/-- A tamper alarm whose applied or deferred set includes NOTIFY (R239, R390). -/
def tamperNotify (r : EvRec) : Bool := r.code == 0xE010#16 && (r.p1.getLsbD 9 || r.p1.getLsbD 1)

/-- Does the event generate a message (R239)? Event 0x9011 never does. -/
def notifies (s : State) (r : EvRec) : Bool :=
  r.code != 0x9011#16 && (decide (r.sev ≥ s.evr.notifySev) || tamperNotify r)

/-- Posting is held: messages wait in the internal queue (R242). -/
def postHeld (s : State) : Bool := !s.hlk.ringEn || !s.hlk.fns[0].bme || s.hlk.fns[0].d3

/-- Count a dropped message in its reason's run (R240, R241). -/
def dropMsg (queueFull : Bool) (h : Hlk) : Hlk :=
  let h := { h with dropTotal := bvSat h.dropTotal 1, dropSince := satAdd 0xFFFFFF h.dropSince 1 }
  if queueFull then { h with runQueue := h.runQueue + 1, runQueueSeen := true }
  else { h with runFull := h.runFull + 1, runFullSeen := true }

/-- Generate the message of an event: it joins the internal queue of 512, or the newest is dropped (R239, R242). -/
def queueMsg (r : EvRec) (s : State) : State :=
  if s.hlk.msgs.length < 512 then
    s.modHlk fun h => { h with msgs := h.msgs ++ [{ typ := if tamperNotify r then 2 else 1, ev := r, queued := postHeld s }] }
  else s.modHlk (dropMsg true)

/-- Give a record the next sequence number (R426). -/
def takeSeq (r : EvRec) (s : State) : EvRec × State :=
  ({ r with seq := s.aon.nextSeq }, s.modAon fun a => { a with nextSeq := a.nextSeq + 1 })

/-- Write a record into the ring; a full ring loses its oldest, counted where it was not yet spilled (R428). -/
def ringPut (r : EvRec) (s : State) : State :=
  let gapFlag : BitVec 8 := if s.evr.gap then 8#8 else 0#8
  let r := { r with flags := r.flags ||| gapFlag }
  if s.evr.ring.length < 8192 then
    s.modEvr fun e => { e with ring := r :: e.ring, gap := false }
  else
    let old := s.evr.ring.getLast?.getD {}
    let ring := r :: s.evr.ring.dropLast
    if old.spilled then s.modEvr fun e => { e with ring := ring, gap := false }
    else s.modEvr fun e => { e with
      ring := ring, gap := false, lost := bvSat e.lost 1,
      lossSeq := if e.lossRun = 0 then old.seq else e.lossSeq, lossRun := e.lossRun + 1, lossSeen := true }

/-- Number a record, generate its message and write it into the ring (R426, R239). -/
def recordNow (r : EvRec) (s : State) : State :=
  let note := notifies s r
  let r := if note then { r with flags := r.flags ||| 0x10#8 } else r
  let (r, s) := takeSeq r s
  let s := if note then queueMsg r s else s
  pmcAdd 466 1 (ringPut r s)

/-- Count records that are not written (R429, R436). -/
def countMissed (n : Nat) (s : State) : State :=
  pmcAdd 467 n (s.modEvr fun e => { e with missed := bvSat e.missed n })

/-- Raise an event. Where it goes depends on the recorder: to the battery buffer while the recorder has no power, to the
staging queue during a reset or before step 7 of a cold start, else to the ring; during a freeze it takes its number and
its message but is not written (R426 to R430, R436). -/
def raise (code : BitVec 16) (p0 p1 p2 : BitVec 32) (s : State) : State :=
  let r := mkRec code p0 p1 p2 s
  match s.evr.ph with
  | .battery =>
    let r := { r with flags := r.flags ||| 1#8 }
    match foldNewest r s.aon.buffer.reverse with
    | some l => s.modAon fun a => { a with buffer := l.reverse }
    | none =>
      if s.aon.buffer.length < 16 then s.modAon fun a => { a with buffer := a.buffer ++ [r] }
      else s.modAon fun a => { a with buffer := a.buffer.take 15 ++ [r], displaced := a.displaced + 1 }
  | .staging =>
    let r := { r with flags := r.flags ||| 2#8 }
    match foldNewest r s.evr.staged.reverse with
    | some l => s.modEvr fun e => { e with staged := l.reverse }
    | none =>
      if s.evr.staged.length < 32 then s.modEvr fun e => { e with staged := e.staged ++ [r] }
      else countMissed 1 s
  | .running =>
    if s.evr.frozen then
      let note := notifies s r
      let r := if note then { r with flags := r.flags ||| 0x10#8 } else r
      let (r, s) := takeSeq r s
      let s := if note then queueMsg r s else s
      countMissed 1 (s.modEvr fun e => { e with freezeMissed := e.freezeMissed + 1 })
    else
      match foldNewest r s.evr.ring with
      | some l => s.modEvr fun e => { e with ring := l }
      | none => recordNow r s

/-- Raise an event with the parameters as numbers. -/
def ev (code : BitVec 16) (p0 p1 p2 : Nat) (s : State) : State := raise code (p32 p0) (p32 p1) (p32 p2) s

/-- The battery buffer is numbered and merged ahead of every newer record, and event 0xF045 reports it (R430). The event
is logged at a merge of no record too: R430 makes no exception. -/
def mergeBattery (s : State) : State :=
  let buf := s.aon.buffer
  let disp := s.aon.displaced
  let s := s.modAon fun a => { a with buffer := [], displaced := 0 }
  let s := buf.foldl (fun s r => recordNow r s) s
  ev 0xF045#16 buf.length disp 0 s

/-- The staged records are numbered and written, in the order in which they were raised (R429). -/
def flushStaged (s : State) : State :=
  let st := s.evr.staged
  let s := s.modEvr fun e => { e with staged := [] }
  st.foldl (fun s r => recordNow r s) s

/-- A freeze ends: event 0xF040 with the count missed carries GAP (R436). -/
def endFreeze (cause : Nat) (s : State) : State :=
  if !s.evr.frozen then s else
  let n := s.evr.freezeMissed
  let us := (s.tbs.tick.toNat - s.evr.freezeTick) / 25
  let s := s.modEvr fun e => { e with frozen := false, freezeMissed := 0, gap := true }
  raise 0xF040#16 (p32s n) (p32s us) (p32 cause) s

/-- An open run of dropped messages ends and is logged (R241). -/
def endDropRun (queueFull : Bool) (s : State) : State :=
  if queueFull then
    if s.hlk.runQueue = 0 then s else
    let n := s.hlk.runQueue
    raise 0x9011#16 (p32s n) 2#32 0#32
      (s.modHlk fun h => { h with runQueue := 0, runQueueSeen := false, runQueueAge := 0 })
  else
    if s.hlk.runFull = 0 then s else
    let n := s.hlk.runFull
    raise 0x9011#16 (p32s n) 1#32 0#32
      (s.modHlk fun h => { h with runFull := 0, runFullSeen := false, runFullAge := 0 })

/-- The runs of dropped messages at the end of a frame: a frame without a drop ends the run, and so do 1,000 frames
(R241). -/
def frameDropRuns (s : State) : State :=
  let s :=
    if s.hlk.runFull ≠ 0 && (!s.hlk.runFullSeen || s.hlk.runFullAge + 1 ≥ 1000) then endDropRun false s
    else s.modHlk fun h => { h with runFullSeen := false, runFullAge := if h.runFull = 0 then 0 else h.runFullAge + 1 }
  if s.hlk.runQueue ≠ 0 && (!s.hlk.runQueueSeen || s.hlk.runQueueAge + 1 ≥ 1000) then endDropRun true s
  else s.modHlk fun h => { h with runQueueSeen := false, runQueueAge := if h.runQueue = 0 then 0 else h.runQueueAge + 1 }

/-- The run of records lost before spill, at the end of a frame or of 1 ms before the first frame (R428). -/
def frameLossRun (s : State) : State :=
  if s.evr.lossRun ≠ 0 && (!s.evr.lossSeen || s.evr.lossAge + 1 ≥ 1000) then
    let n := s.evr.lossRun
    let q := s.evr.lossSeq
    raise 0xF044#16 (p32s n) (BitVec.setWidth 32 q) 0#32
      (s.modEvr fun e => { e with lossRun := 0, lossSeen := false, lossAge := 0 })
  else s.modEvr fun e => { e with lossSeen := false, lossAge := if e.lossRun = 0 then 0 else e.lossAge + 1 }

end Sys2Proof.Machine
end

