-- ==== Sys2Proof/Machine/Hash.lean ====
section
/-! DEFINITION. The standard functions the spec names: the cyclic codes, SHA-3, SHAKE, cSHAKE and KMAC256 (FIPS 202,
SP 800-185), SHA-256 and SHA-384 (FIPS 180-4), AES-256 with GCM and CTR (FIPS 197, SP 800-38D), and the Merkle tree of
R268. What each computes is the standard's, as the spec cites it. -/

namespace Sys2Proof.Machine

/-- One bit of a reflected cyclic code of width `w`. -/
def crcBitR {w : Nat} (poly c : BitVec w) : BitVec w := if c.getLsbD 0 then (c >>> 1) ^^^ poly else c >>> 1

/-- Apply a function `n` times. -/
def iterN {α : Type} (f : α → α) : Nat → α → α
  | 0, a => a
  | n + 1, a => iterN f n (f a)

/-- A reflected cyclic code over bytes, from a starting value. -/
def crcR {w : Nat} (poly init : BitVec w) (b : Bytes) : BitVec w :=
  b.foldl (fun c x => iterN (crcBitR poly) 8 (c ^^^ x.setWidth w)) init

/-- CRC-32C (R322, R418). -/
def crc32c (b : Bytes) : BitVec 32 := ~~~(crcR 0x82F63B78#32 0xFFFFFFFF#32 b)

/-- One bit of a cyclic code that shifts the most significant bit out first. -/
def crcBitL {w : Nat} (poly c : BitVec w) : BitVec w := if c.msb then (c <<< 1) ^^^ poly else c <<< 1

/-- A cyclic code over bytes, most significant bit first. -/
def crcL {w : Nat} (poly init : BitVec w) (b : Bytes) : BitVec w :=
  b.foldl (fun c x => iterN (crcBitL poly) 8 (c ^^^ BitVec.shiftLeft (x.setWidth w) (w - 8))) init

/-! ### Keccak -/

/-- The round constants of Keccak-f[1600]. -/
def kckRc : List (BitVec 64) :=
  [0x0000000000000001#64, 0x0000000000008082#64, 0x800000000000808A#64, 0x8000000080008000#64, 0x000000000000808B#64,
   0x0000000080000001#64, 0x8000000080008081#64, 0x8000000000008009#64, 0x000000000000008A#64, 0x0000000000000088#64,
   0x0000000080008009#64, 0x000000008000000A#64, 0x000000008000808B#64, 0x800000000000008B#64, 0x8000000000008089#64,
   0x8000000000008003#64, 0x8000000000008002#64, 0x8000000000000080#64, 0x000000000000800A#64, 0x800000008000000A#64,
   0x8000000080008081#64, 0x8000000000008080#64, 0x0000000080000001#64, 0x8000000080008008#64]

/-- The rotations of the lanes, lane x + 5y. -/
def kckRot : List Nat :=
  [0, 1, 62, 28, 27, 36, 44, 6, 55, 20, 3, 10, 43, 25, 39, 41, 45, 15, 21, 8, 18, 2, 61, 56, 14]

/-- One round of Keccak-f[1600] on the 25 lanes, lane x + 5y. -/
def kckRound (a : Vector (BitVec 64) 25) (rc : BitVec 64) : Vector (BitVec 64) 25 :=
  let g (v : Vector (BitVec 64) 25) (x y : Nat) : BitVec 64 := v.toList.getD (x % 5 + 5 * (y % 5)) 0
  let c (x : Nat) : BitVec 64 := g a x 0 ^^^ g a x 1 ^^^ g a x 2 ^^^ g a x 3 ^^^ g a x 4
  let cs : Vector (BitVec 64) 5 := Vector.ofFn fun x => c x.val
  let d (x : Nat) : BitVec 64 := cs.toList.getD ((x + 4) % 5) 0 ^^^ (cs.toList.getD ((x + 1) % 5) 0).rotateLeft 1
  let t : Vector (BitVec 64) 25 := Vector.ofFn fun i => g a (i.val % 5) (i.val / 5) ^^^ d (i.val % 5)
  let b : Vector (BitVec 64) 25 := Vector.ofFn fun i =>
    let x' := i.val % 5
    let y' := i.val / 5
    let x := (x' + 3 * y') % 5
    let y := x'
    (g t x y).rotateLeft (kckRot.getD (x + 5 * y) 0)
  let e : Vector (BitVec 64) 25 := Vector.ofFn fun i =>
    let x := i.val % 5
    let y := i.val / 5
    g b x y ^^^ (~~~(g b (x + 1) y) &&& g b (x + 2) y)
  e.set 0 (e[0] ^^^ rc)

/-- The permutation Keccak-f[1600]. -/
def keccakF (a : Vector (BitVec 64) 25) : Vector (BitVec 64) 25 := kckRc.foldl kckRound a

/-- XOR one byte into the state at a byte position. -/
def kckXorByte (a : Vector (BitVec 64) 25) (pos : Nat) (b : Byte) : Vector (BitVec 64) 25 :=
  if h : pos / 8 < 25 then a.set (pos / 8) (a[pos / 8] ^^^ (b.setWidth 64 <<< (8 * (pos % 8)))) else a

/-- The byte of the state at a byte position. -/
def kckByte (a : Vector (BitVec 64) 25) (pos : Nat) : Byte :=
  ((a.toList.getD (pos / 8) 0) >>> (8 * (pos % 8))).setWidth 8

/-- Absorb bytes at rate `r` from byte position `pos`; the state and the position after. -/
def kckAbsorbBytes (r : Nat) : Bytes → Vector (BitVec 64) 25 × Nat → Vector (BitVec 64) 25 × Nat
  | [], ap => ap
  | b :: t, (a, p) =>
    let a := kckXorByte a p b
    if p + 1 ≥ r then kckAbsorbBytes r t (keccakF a, 0) else kckAbsorbBytes r t (a, p + 1)

/-- Pad with the domain byte and the final bit. -/
def kckPad (r : Nat) (dom : Byte) (a : Vector (BitVec 64) 25) (p : Nat) : Vector (BitVec 64) 25 :=
  keccakF (kckXorByte (kckXorByte a p dom) (r - 1) 0x80#8)

/-- Squeeze `n` bytes from byte position `p` of the rate; the state and the position after. -/
def kckSqueezeBytes (r : Nat) : Nat → Vector (BitVec 64) 25 × Nat → Bytes × Vector (BitVec 64) 25 × Nat
  | 0, (a, p) => ([], a, p)
  | n + 1, (a, p) =>
    let (a, p) := if p ≥ r then (keccakF a, 0) else (a, p)
    let (t, a', p') := kckSqueezeBytes r n (a, p + 1)
    (kckByte a p :: t, a', p')

/-- The sponge: absorb, pad with the domain byte, squeeze `n` bytes. -/
def sponge (r : Nat) (dom : Byte) (m : Bytes) (n : Nat) : Bytes :=
  let (a, p) := kckAbsorbBytes r m (Vector.replicate 25 0, 0)
  (kckSqueezeBytes r n (kckPad r dom a p, 0)).1

/-- SHA3-256. -/
def sha3_256 (m : Bytes) : Bytes := sponge 136 0x06#8 m 32
/-- SHA3-384. -/
def sha3_384 (m : Bytes) : Bytes := sponge 104 0x06#8 m 48
/-- SHA3-512. -/
def sha3_512 (m : Bytes) : Bytes := sponge 72 0x06#8 m 64
/-- SHAKE128. -/
def shake128 (m : Bytes) (n : Nat) : Bytes := sponge 168 0x1F#8 m n
/-- SHAKE256. -/
def shake256 (m : Bytes) (n : Nat) : Bytes := sponge 136 0x1F#8 m n

/-- Big-endian bytes of a number, at least one (fuel bounds their count). -/
def beMin : Nat → Nat → Bytes
  | 0, _ => []
  | f + 1, n => if n < 256 then [BitVec.ofNat 8 n] else beMin f (n / 256) ++ [BitVec.ofNat 8 n]

/-- `n` big-endian bytes of a number. -/
def beBytes (n v : Nat) : Bytes := (leBytes n v).reverse

/-- The number a big-endian string of bytes stands for. -/
def beNat (b : Bytes) : Nat := leNat b.reverse

/-- left_encode of SP 800-185. -/
def leftEncode (n : Nat) : Bytes := let b := beMin 16 n; BitVec.ofNat 8 b.length :: b
/-- right_encode of SP 800-185. -/
def rightEncode (n : Nat) : Bytes := let b := beMin 16 n; b ++ [BitVec.ofNat 8 b.length]
/-- encode_string of SP 800-185. -/
def encodeString (s : Bytes) : Bytes := leftEncode (8 * s.length) ++ s
/-- bytepad of SP 800-185. -/
def bytepad (x : Bytes) (w : Nat) : Bytes :=
  let y := leftEncode w ++ x
  y ++ List.replicate ((w - y.length % w) % w) 0#8

/-- cSHAKE256 with function name `n` and customisation `c`. -/
def cshake256 (x : Bytes) (len : Nat) (n c : Bytes) : Bytes :=
  if n = [] && c = [] then shake256 x len
  else sponge 136 0x04#8 (bytepad (encodeString n ++ encodeString c) 136 ++ x) len

/-- The ASCII bytes of a text. -/
def ascii (s : String) : Bytes := s.toList.map fun c => BitVec.ofNat 8 c.toNat

/-- KMAC256 with key `k`, output of `len` bytes and customisation `c`. -/
def kmac256 (k x : Bytes) (len : Nat) (c : Bytes) : Bytes :=
  cshake256 (bytepad (encodeString k) 136 ++ x ++ rightEncode (8 * len)) len (ascii "KMAC") c

/-! ### SHA-2 -/

/-- The constants of SHA-256. -/
def sha256K : List (BitVec 32) :=
  [0x428a2f98#32, 0x71374491#32, 0xb5c0fbcf#32, 0xe9b5dba5#32, 0x3956c25b#32, 0x59f111f1#32, 0x923f82a4#32, 0xab1c5ed5#32,
   0xd807aa98#32, 0x12835b01#32, 0x243185be#32, 0x550c7dc3#32, 0x72be5d74#32, 0x80deb1fe#32, 0x9bdc06a7#32, 0xc19bf174#32,
   0xe49b69c1#32, 0xefbe4786#32, 0x0fc19dc6#32, 0x240ca1cc#32, 0x2de92c6f#32, 0x4a7484aa#32, 0x5cb0a9dc#32, 0x76f988da#32,
   0x983e5152#32, 0xa831c66d#32, 0xb00327c8#32, 0xbf597fc7#32, 0xc6e00bf3#32, 0xd5a79147#32, 0x06ca6351#32, 0x14292967#32] ++
  [0x27b70a85#32, 0x2e1b2138#32, 0x4d2c6dfc#32, 0x53380d13#32, 0x650a7354#32, 0x766a0abb#32, 0x81c2c92e#32, 0x92722c85#32,
   0xa2bfe8a1#32, 0xa81a664b#32, 0xc24b8b70#32, 0xc76c51a3#32, 0xd192e819#32, 0xd6990624#32, 0xf40e3585#32, 0x106aa070#32,
   0x19a4c116#32, 0x1e376c08#32, 0x2748774c#32, 0x34b0bcb5#32, 0x391c0cb3#32, 0x4ed8aa4a#32, 0x5b9cca4f#32, 0x682e6ff3#32,
   0x748f82ee#32, 0x78a5636f#32, 0x84c87814#32, 0x8cc70208#32, 0x90befffa#32, 0xa4506ceb#32, 0xbef9a3f7#32, 0xc67178f2#32]

/-- The constants of SHA-384 and SHA-512. -/
def sha512K : List (BitVec 64) :=
  [0x428a2f98d728ae22#64, 0x7137449123ef65cd#64, 0xb5c0fbcfec4d3b2f#64, 0xe9b5dba58189dbbc#64, 0x3956c25bf348b538#64,
   0x59f111f1b605d019#64, 0x923f82a4af194f9b#64, 0xab1c5ed5da6d8118#64, 0xd807aa98a3030242#64, 0x12835b0145706fbe#64,
   0x243185be4ee4b28c#64, 0x550c7dc3d5ffb4e2#64, 0x72be5d74f27b896f#64, 0x80deb1fe3b1696b1#64, 0x9bdc06a725c71235#64,
   0xc19bf174cf692694#64, 0xe49b69c19ef14ad2#64, 0xefbe4786384f25e3#64, 0x0fc19dc68b8cd5b5#64, 0x240ca1cc77ac9c65#64] ++
  [0x2de92c6f592b0275#64, 0x4a7484aa6ea6e483#64, 0x5cb0a9dcbd41fbd4#64, 0x76f988da831153b5#64, 0x983e5152ee66dfab#64,
   0xa831c66d2db43210#64, 0xb00327c898fb213f#64, 0xbf597fc7beef0ee4#64, 0xc6e00bf33da88fc2#64, 0xd5a79147930aa725#64,
   0x06ca6351e003826f#64, 0x142929670a0e6e70#64, 0x27b70a8546d22ffc#64, 0x2e1b21385c26c926#64, 0x4d2c6dfc5ac42aed#64,
   0x53380d139d95b3df#64, 0x650a73548baf63de#64, 0x766a0abb3c77b2a8#64, 0x81c2c92e47edaee6#64, 0x92722c851482353b#64] ++
  [0xa2bfe8a14cf10364#64, 0xa81a664bbc423001#64, 0xc24b8b70d0f89791#64, 0xc76c51a30654be30#64, 0xd192e819d6ef5218#64,
   0xd69906245565a910#64, 0xf40e35855771202a#64, 0x106aa07032bbd1b8#64, 0x19a4c116b8d2d0c8#64, 0x1e376c085141ab53#64,
   0x2748774cdf8eeb99#64, 0x34b0bcb5e19b48a8#64, 0x391c0cb3c5c95a63#64, 0x4ed8aa4ae3418acb#64, 0x5b9cca4f7763e373#64,
   0x682e6ff3d6b2b8a3#64, 0x748f82ee5defb2fc#64, 0x78a5636f43172f60#64, 0x84c87814a1f0ab72#64, 0x8cc702081a6439ec#64] ++
  [0x90befffa23631e28#64, 0xa4506cebde82bde9#64, 0xbef9a3f7b2c67915#64, 0xc67178f2e372532b#64, 0xca273eceea26619c#64,
   0xd186b8c721c0c207#64, 0xeada7dd6cde0eb1e#64, 0xf57d4f7fee6ed178#64, 0x06f067aa72176fba#64, 0x0a637dc5a2c898a6#64,
   0x113f9804bef90dae#64, 0x1b710b35131c471b#64, 0x28db77f523047d84#64, 0x32caab7b40c72493#64, 0x3c9ebe0a15c9bebc#64,
   0x431d67c49c100d4c#64, 0x4cc5d4becb3e42b6#64, 0x597f299cfc657e2a#64, 0x5fcb6fab3ad6faec#64, 0x6c44198c4a475817#64]

/-- What tells SHA-256 from SHA-512: the rotations and shifts of the four sigma functions. -/
structure Sha2Par where
  s0 : Nat × Nat × Nat
  s1 : Nat × Nat × Nat
  b0 : Nat × Nat × Nat
  b1 : Nat × Nat × Nat
deriving DecidableEq, Repr

/-- The parameters of SHA-256. -/
def sha256Par : Sha2Par := ⟨(7, 18, 3), (17, 19, 10), (2, 13, 22), (6, 11, 25)⟩
/-- The parameters of SHA-512. -/
def sha512Par : Sha2Par := ⟨(1, 8, 7), (19, 61, 6), (28, 34, 39), (14, 18, 41)⟩

/-- A small sigma: two rotations and a shift. -/
def sigS {w : Nat} (t : Nat × Nat × Nat) (x : BitVec w) : BitVec w :=
  x.rotateRight t.1 ^^^ x.rotateRight t.2.1 ^^^ (x >>> t.2.2)
/-- A large sigma: three rotations. -/
def sigB {w : Nat} (t : Nat × Nat × Nat) (x : BitVec w) : BitVec w :=
  x.rotateRight t.1 ^^^ x.rotateRight t.2.1 ^^^ x.rotateRight t.2.2

/-- Extend the message schedule by `n` words; `l` holds it newest first. -/
def sha2Sched {w : Nat} (p : Sha2Par) : Nat → List (BitVec w) → List (BitVec w)
  | 0, l => l
  | n + 1, l =>
    sha2Sched p n ((sigS p.s1 (l.getD 1 0) + l.getD 6 0 + sigS p.s0 (l.getD 14 0) + l.getD 15 0) :: l)

/-- One round on the eight working words a to h. -/
def sha2Round {w : Nat} (p : Sha2Par) (v : List (BitVec w)) (kw : BitVec w × BitVec w) : List (BitVec w) :=
  match v with
  | [a, b, c, d, e, f, g, h] =>
    let t1 := h + sigB p.b1 e + ((e &&& f) ^^^ (~~~e &&& g)) + kw.1 + kw.2
    let t2 := sigB p.b0 a + ((a &&& b) ^^^ (a &&& c) ^^^ (b &&& c))
    [t1 + t2, a, b, c, d + t1, e, f, g]
  | _ => v

/-- Compress one block of 16 words. -/
def sha2Block {w : Nat} (p : Sha2Par) (k : List (BitVec w)) (h blk : List (BitVec w)) : List (BitVec w) :=
  let ws := (sha2Sched p (k.length - 16) blk.reverse).reverse
  let v := (k.zip ws).foldl (sha2Round p) h
  List.zipWith (· + ·) h v

/-- Cut a string into blocks of `n` bytes (fuel bounds their count). -/
def chunks (n : Nat) : Nat → Bytes → List Bytes
  | 0, _ => []
  | f + 1, b => if b = [] then [] else b.take n :: chunks n f (b.drop n)

/-- The big-endian words of a block. -/
def beWords (w n : Nat) (b : Bytes) : List (BitVec w) :=
  (List.range n).map fun i => BitVec.ofNat w (beNat (slice b (i * (w / 8)) (w / 8)))

/-- SHA-2 with words of `w` bits: padding, then every block, then the digest's first `len` bytes. -/
def sha2 (w : Nat) (p : Sha2Par) (k iv : List (BitVec w)) (len : Nat) (m : Bytes) : Bytes :=
  let blk := 2 * w
  let lf := w / 4
  let z := (blk - (m.length + 1 + lf) % blk) % blk
  let pad := m ++ [0x80#8] ++ List.replicate z 0#8 ++ beBytes lf (8 * m.length)
  let h := (chunks blk (pad.length / blk) pad).foldl (fun h b => sha2Block p k h (beWords w 16 b)) iv
  (h.flatMap fun x => beBytes (w / 8) x.toNat).take len

/-- SHA-256. -/
def sha256 (m : Bytes) : Bytes :=
  sha2 32 sha256Par sha256K [0x6a09e667#32, 0xbb67ae85#32, 0x3c6ef372#32, 0xa54ff53a#32, 0x510e527f#32, 0x9b05688c#32,
    0x1f83d9ab#32, 0x5be0cd19#32] 32 m
/-- SHA-384. -/
def sha384 (m : Bytes) : Bytes :=
  sha2 64 sha512Par sha512K [0xcbbb9d5dc1059ed8#64, 0x629a292a367cd507#64, 0x9159015a3070dd17#64, 0x152fecd8f70e5939#64,
    0x67332667ffc00b31#64, 0x8eb44a8768581511#64, 0xdb0c2e0d64f98fa7#64, 0x47b5481dbefa4fa4#64] 48 m
/-- SHA-512. -/
def sha512 (m : Bytes) : Bytes :=
  sha2 64 sha512Par sha512K [0x6a09e667f3bcc908#64, 0xbb67ae8584caa73b#64, 0x3c6ef372fe94f82b#64, 0xa54ff53a5f1d36f1#64,
    0x510e527fade682d1#64, 0x9b05688c2b3e6c1f#64, 0x1f83d9abfb41bd6b#64, 0x5be0cd19137e2179#64] 64 m

/-! ### AES-256 -/

/-- Multiply by x in the field of AES. -/
def xtime (b : Byte) : Byte := if b.msb then (b <<< 1) ^^^ 0x1B#8 else b <<< 1

/-- Multiply in the field of AES. -/
def gmul8 (a b : Byte) : Byte :=
  ((List.range 8).foldl (fun (r, x) i => (if b.getLsbD i then r ^^^ x else r, xtime x)) (0#8, a)).1

/-- The inverse in the field of AES, 0 for 0: the 254th power. -/
def ginv8 (a : Byte) : Byte :=
  let a2 := gmul8 a a
  let a4 := gmul8 a2 a2
  let a8 := gmul8 a4 a4
  let a16 := gmul8 a8 a8
  let a32 := gmul8 a16 a16
  let a64 := gmul8 a32 a32
  let a128 := gmul8 a64 a64
  gmul8 a128 (gmul8 a64 (gmul8 a32 (gmul8 a16 (gmul8 a8 (gmul8 a4 a2)))))

/-- The byte substitution of AES. -/
def aesSub (a : Byte) : Byte :=
  let b := ginv8 a
  b ^^^ b.rotateLeft 1 ^^^ b.rotateLeft 2 ^^^ b.rotateLeft 3 ^^^ b.rotateLeft 4 ^^^ 0x63#8

/-- Extend the key schedule by `n` words of four bytes; `l` holds it newest first, `i` is the next word's number. -/
def aesSched : Nat → Nat → Byte → List Bytes → List Bytes
  | 0, _, _, l => l
  | n + 1, i, rc, l =>
    let t := l.headD []
    let o := l.getD 7 []
    if i % 8 = 0 then
      let r := (t.drop 1 ++ t.take 1).map aesSub
      let r := List.zipWith (· ^^^ ·) r [rc, 0#8, 0#8, 0#8]
      aesSched n (i + 1) (xtime rc) (List.zipWith (· ^^^ ·) o r :: l)
    else if i % 8 = 4 then
      aesSched n (i + 1) rc (List.zipWith (· ^^^ ·) o (t.map aesSub) :: l)
    else aesSched n (i + 1) rc (List.zipWith (· ^^^ ·) o t :: l)

/-- The fifteen round keys of a 32-byte key. -/
def aesKeys (k : Bytes) : List Bytes :=
  let w0 := (chunks 4 8 k).reverse
  let ws := (aesSched 52 8 1#8 w0).reverse
  (List.range 15).map fun r => (slice' ws (4 * r) 4).flatten
where
  /-- Four words from a place. -/
  slice' (l : List Bytes) (o n : Nat) : List Bytes := (l.drop o).take n

/-- ShiftRows on the 16 bytes, column by column. -/
def aesShift (s : Bytes) : Bytes := (List.range 16).map fun i => s.getD ((i + 4 * (i % 4)) % 16) 0

/-- MixColumns on one column. -/
def aesMixCol (c : Bytes) : Bytes :=
  let g (i : Nat) : Byte := c.getD (i % 4) 0
  (List.range 4).map fun i => xtime (g i) ^^^ (xtime (g (i + 1)) ^^^ g (i + 1)) ^^^ g (i + 2) ^^^ g (i + 3)

/-- One AES round with its key. -/
def aesRound (s k : Bytes) : Bytes :=
  List.zipWith (· ^^^ ·) ((chunks 4 4 (aesShift (s.map aesSub))).flatMap aesMixCol) k

/-- AES-256 of one block. -/
def aes256 (k blk : Bytes) : Bytes :=
  let ks := aesKeys k
  let s := List.zipWith (· ^^^ ·) blk (ks.headD [])
  let s := ((ks.drop 1).take 13).foldl aesRound s
  List.zipWith (· ^^^ ·) (aesShift (s.map aesSub)) (ks.getD 14 [])

/-- Add one to the last four bytes of a counter block. -/
def inc32 (c : Bytes) : Bytes := c.take 12 ++ beBytes 4 (beNat (c.drop 12) + 1)

/-- Counter mode from a counter block (32-bit counter), over blocks. -/
def ctrBlocks (k : Bytes) : List Bytes → Bytes → Bytes
  | [], _ => []
  | b :: t, c => List.zipWith (· ^^^ ·) b (aes256 k c) ++ ctrBlocks k t (inc32 c)

/-- Counter mode over a string. -/
def aesCtr (k c m : Bytes) : Bytes := ctrBlocks k (chunks 16 (m.length / 16 + 1) m) c

/-- Multiply in the field of GCM; bit 127 of the numeral is the field's first bit. -/
def ghashMul (x y : BitVec 128) : BitVec 128 :=
  ((List.range 128).foldl (fun (z, v) i =>
    (if x.getLsbD (127 - i) then z ^^^ v else z,
     if v.getLsbD 0 then (v >>> 1) ^^^ 0xE1000000000000000000000000000000#128 else v >>> 1)) (0#128, y)).1

/-- A string filled with zeros to a multiple of 16 bytes. -/
def pad16 (b : Bytes) : Bytes := b ++ List.replicate ((16 - b.length % 16) % 16) 0#8

/-- GHASH of a string of whole blocks. -/
def ghash (h : BitVec 128) (m : Bytes) : BitVec 128 :=
  (chunks 16 (m.length / 16 + 1) m).foldl (fun y b => ghashMul (y ^^^ BitVec.ofNat 128 (beNat b)) h) 0

/-- The tag of AES-256-GCM over additional data and ciphertext, with a 12-byte IV. -/
def gcmTag (k iv aad ct : Bytes) : Bytes :=
  let h := BitVec.ofNat 128 (beNat (aes256 k (List.replicate 16 0#8)))
  let s := ghash h (pad16 aad ++ pad16 ct ++ beBytes 8 (8 * aad.length) ++ beBytes 8 (8 * ct.length))
  List.zipWith (· ^^^ ·) (beBytes 16 s.toNat) (aes256 k (iv ++ beBytes 4 1))

/-- The stream of AES-256-GCM over a string (encryption and decryption). -/
def gcmStream (k iv m : Bytes) : Bytes := aesCtr k (iv ++ beBytes 4 2) m

/-- Merkle tree: one level up. A pair hashes to one node; a node left alone is passed up unchanged (R268). -/
def merkleUp (node : Bytes → Bytes → Bytes) : List Bytes → List Bytes
  | a :: b :: t => node a b :: merkleUp node t
  | l => l

/-- Merkle tree: the root over a level of nodes (fuel bounds the height). -/
def merkleRoot (node : Bytes → Bytes → Bytes) : Nat → List Bytes → Bytes
  | 0, l => l.headD []
  | f + 1, l => match l with
    | [] => []
    | [r] => r
    | l => merkleRoot node f (merkleUp node l)

end Sys2Proof.Machine
end

