-- ==== Sys2Proof/Machine/Fuse.lean ====
section
/-! DEFINITION. The fuse array as chapter 04 lays it out: its error code, the dual-margin read, the regions with their
integrity, the life-cycle decode, locks, counters, owner slots, patch entries, and the shadow load. -/

namespace Sys2Proof.Machine

/-- The Hamming position of data bit `k` (R89). -/
def secPos (k : Nat) : Nat :=
  if k = 0 then 3 else if k < 4 then 4 + k else if k < 11 then 5 + k else if k < 26 then 6 + k else 7 + k

/-- The XOR of the Hamming positions of the data bits that are set: check bits c0 to c5 (R89). -/
def secCheck (d : BitVec 32) : Nat := (bitsOf d).foldl (fun a k => a ^^^ secPos k) 0

/-- The 39 raw bits of a programmed word (R89). -/
def secEncode (d : BitVec 32) : BitVec 39 :=
  let c := secCheck d
  let c6 := (popCount d + popCount (BitVec.ofNat 6 c)) % 2
  (BitVec.setWidth 39 d) ||| BitVec.ofNat 39 ((c + c6 * 64) * 2 ^ 32) ^^^ BitVec.ofNat 39 (0x55 * 2 ^ 32)

/-- Decode a programmed word: its data and whether a bit was corrected, or `none` where it is uncorrectable (R89). -/
def secDecode (raw : BitVec 39) : Option (BitVec 32 × Bool) :=
  let r := raw ^^^ BitVec.ofNat 39 (0x55 * 2 ^ 32)
  let d : BitVec 32 := BitVec.setWidth 32 r
  let syn := secCheck d ^^^ ((r.toNat / 2 ^ 32) % 64)
  let odd := popCount r % 2 = 1
  if syn = 0 then some (d, odd)
  else if odd && decide (syn ≤ 38) then
    some ((List.range 32).foldl (fun d k => if secPos k = syn then d ^^^ BitVec.ofNat 32 (2 ^ k) else d) d, true)
  else none

/-- What a dual-margin read of a word gives (R91). -/
structure FuseRead where
  /-- the margins differ -/
  marginal : Bool := false
  /-- not to be decoded -/
  uncorr : Bool := false
  /-- blank at both margins -/
  blank : Bool := false
  /-- a single bit was corrected -/
  corrected : Bool := false
  /-- data, where the word is readable -/
  data : BitVec 32 := 0#32
  /-- check bits of a counter word set -/
  badCtr : Bool := false
deriving DecidableEq, Repr

/-- The words of counters (R91, R105). -/
def isCtrWord (a : Nat) : Bool := decide (0x280 ≤ a) && decide (a < 0x300)

/-- The two raw values of a word, tight and loose. -/
def fuseCell (f : Fus) (a : Nat) : BitVec 39 × BitVec 39 := cellGet (0#39, 0#39) f.array a

/-- A dual-margin read (R91). -/
def fuseRead (f : Fus) (a : Nat) : FuseRead :=
  let (t, l) := fuseCell f a
  if t ≠ l then { marginal := true }
  else if t = 0 then { blank := true }
  else if isCtrWord a then
    let high := t.toNat / 2 ^ 32
    { data := BitVec.setWidth 32 t, badCtr := decide (high ≠ 0) }
  else match secDecode t with
    | some (d, c) => { data := d, corrected := c }
    | none => { uncorr := true }

/-- A word reads as programmed and readable. -/
def FuseRead.ok (r : FuseRead) : Bool := !r.marginal && !r.uncorr && !r.blank

/-- First word of a region (R92). -/
def regBase (r : Nat) : Nat :=
  [0x000, 0x040, 0x060, 0x080, 0x0A0, 0x0C0, 0x0E0, 0x100, 0x140, 0x180, 0x280, 0x380].getD r 0x580

/-- Number of words of a region (R92). -/
def regLen (r : Nat) : Nat := [64, 32, 32, 32, 32, 32, 32, 64, 64, 256, 256, 512].getD r 0

/-- The region of a word address, 12 for the range that is not read (R92). -/
def regOf (a : Nat) : Nat := ((List.range 12).filter fun r => decide (regBase r ≤ a ∧ a < regBase r + regLen r)).headD 12

/-- A root-secret region (R92). -/
def regRoot (r : Nat) : Bool := r = 3 || r = 4 || r = 5

/-- Word `i` of region `r` is covered by its completion word's CRC (R92). -/
def regChecked (r i : Nat) : Bool :=
  match r with
  | 0 => decide (i ≤ 62)
  | 1 => decide (i ≤ 30)
  | 7 => decide (i % 16 < 12)
  | 8 => decide (i ≤ 62)
  | 9 => decide (i ≤ 254)
  | 11 => decide (i ≤ 510)
  | _ => false

/-- Word `i` of region `r` is reserved and stays blank (R92, R98, R101, R102, R103, R105, R108, R110, R127). -/
def regReserved (r i : Nat) : Bool :=
  match r with
  | 1 => decide (7 ≤ i ∧ i ≤ 30)
  | 2 => decide (8 ≤ i ∧ i ≤ 30)
  | 6 => decide (i = 12 ∨ i = 13 ∨ (24 ≤ i ∧ i ≤ 30))
  | 7 => decide (13 ≤ i % 16) && decide (i ≠ 63)
  | 8 => decide (1 ≤ i ∧ i ≤ 62)
  | 9 => decide (15 ≤ i ∧ i ≤ 254)
  | 10 => decide (128 ≤ i ∧ i ≤ 254)
  | 11 => decide (256 ≤ i ∧ i ≤ 510)
  | _ => false

/-- The words of a region, read (R91). -/
def regWords (f : Fus) (r : Nat) : List FuseRead := (List.range (regLen r)).map fun i => fuseRead f (regBase r + i)

/-- Completion word over a CRC (R93). -/
def compWord (r crc : Nat) : BitVec 32 := BitVec.ofNat 32 (0xC5000000 + r * 2 ^ 20 + crc)

/-- CRC-16 of a region's checked words (R93). -/
def regCrc (r : Nat) (w : List FuseRead) : Nat :=
  if (List.range (regLen r)).any (regChecked r) then
    (crcL 0x1021#16 0xFFFF#16 (((List.range (regLen r)).filter (regChecked r)).flatMap fun i =>
      leBytes 4 (w.getD i {}).data.toNat)).toNat
  else 0

/-- The bits of CEIL words 0 to 14 that R127 lists. -/
def ceilMask (i : Nat) : BitVec 32 :=
  [0x3#32, 0xFFFF#32, 0x7FF#32, 0x1#32, 0x1F1F1F1F#32, 0x1F1F1F1F#32, 0x1F1F1F1F#32, 0x1F1F1F1F#32, 0x1F#32, 0xF#32,
   0xFFFF#32, 0xFFFFFFFF#32, 0x7F#32, 0x7#32, 0x3F#32].getD i 0#32

/-- Step word pattern of the life-cycle (R110). -/
def lifePat (k : Nat) : BitVec 32 := BitVec.ofNat 32 (0x4C50A5A5 + k * 2 ^ 16)

/-- The life-cycle decode: the state, and the target of a transition in progress (R110); `none` fails LIFE integrity. -/
def lifeDecode (w : List FuseRead) : Option (Nat × Nat) :=
  let hold (k i : Nat) : Bool := let x := w.getD i {}; x.ok && x.data == lifePat k
  let a k := hold k (2 * (k - 1))
  let b k := hold k (2 * k - 1)
  let aBlank k := (w.getD (2 * (k - 1)) { blank := true }).blank
  let bBlank k := (w.getD (2 * k - 1) { blank := true }).blank
  if a 4 && b 4 then some (4, 0)
  else if a 4 then some (7, 4)
  else
    let done := if !(a 1 && b 1) then 0 else if !(a 2 && b 2) then 1 else if !(a 3 && b 3) then 2 else 3
    let tail := (List.range 4).all fun j =>
      let k := j + 1
      if k ≤ done then true else if k = done + 1 then (aBlank k || a k) && bBlank k else aBlank k && bBlank k
    if !tail then none
    else if decide (done < 3) && a (done + 1) then some (7, done + 1)
    else some (done, 0)

/-- The lock value of a lock word (R98). -/
def lockPat (read : Bool) (r : Nat) : BitVec 32 := BitVec.ofNat 32 ((if read then 0x524C0000 else 0x574C0000) + r)

/-- Bits of a 64-bit counter are contiguous from bit 0 (R105). -/
def ctrContig (v : Nat) : Bool := (List.range 65).any fun n => v = 2 ^ n - 1

/-- One more than the position of the highest set bit (R105). -/
def ctrTop (v : Nat) : Nat := (List.range 64).foldl (fun m i => if v.testBit i then i + 1 else m) 0

/-- Even parity over twelve bits. -/
def par12 (n : Nat) : Bool := popCount (BitVec.ofNat 12 n) % 2 = 1

/-- The checks of one patch entry (R103). -/
def patchEntryOk (t r : BitVec 32) : Bool :=
  let tn := t.toNat
  let rn := r.toNat
  t.msb && decide (tn / 2 ^ 28 % 8 ≤ 1) && decide (tn / 2 ^ 16 % 2 ^ 12 = 0) && decide (rn / 2 ^ 26 = 0) &&
    (r.getLsbD 24 == par12 (rn % 4096)) && (r.getLsbD 25 == par12 (rn / 4096 % 4096))

/-- The programmed patch entries with their numbers, `none` where an entry fails its checks (R103). -/
def patchEntries (w : List FuseRead) : Option (List (BitVec 32 × BitVec 24)) :=
  let es := (List.range 128).map fun e => (w.getD (2 * e) { blank := true }, w.getD (2 * e + 1) { blank := true })
  let used := es.filter fun p => !(p.1.blank && p.2.blank)
  if used.all (fun p => p.1.ok && p.2.ok && patchEntryOk p.1.data p.2.data) &&
      (used.map fun p => p.1.data).Nodup then
    some (used.map fun p => (p.1.data, BitVec.setWidth 24 p.2.data))
  else none

/-- The shape rules of a region's words (R94, R98, R105, R109, R110, R101, R127). A root-secret map that does not name 16
programmed candidates counts as one (DEDUCED, log entry 10). -/
def regShape (r : Nat) (w : List FuseRead) : Bool :=
  let x i := w.getD i { blank := true }
  match r with
  | 2 => (lifeDecode w).isSome
  | 6 => (List.range 12).all fun k => k = 6 ||
      (((x (2 * k)).blank || !(x (2 * k)).ok || (x (2 * k)).data == lockPat false k) &&
       ((x (2 * k + 1)).blank || !(x (2 * k + 1)).ok || (x (2 * k + 1)).data == lockPat true k))
  | 7 => (List.range 4).all fun k =>
      let n := ((List.range 12).filter fun j => !(x (16 * k + j)).blank).length
      let rv := x (16 * k + 12)
      (n = 0 || n = 12 || (x 63).blank) && (rv.blank || !rv.ok || rv.data == 0x5245564B#32)
  | 8 => decide ((x 0).data.toNat < 256)
  | 9 => (List.range 15).all fun i => (x i).data &&& ~~~(ceilMask i) == 0#32
  | 10 => (List.range 64).all fun c =>
      !(x (2 * c)).badCtr && !(x (2 * c + 1)).badCtr &&
        ctrContig ((x (2 * c)).data.toNat + (x (2 * c + 1)).data.toNat * 2 ^ 32)
  | 3 | 4 | 5 =>
    let m := (x 30).data
    !(x 30).ok || (popCount m = 16 && decide (m.toNat < 2 ^ 30) && (bitsOf m).all fun i => !(x i).blank)
  | _ => true

/-- A word the region uses (R94). -/
def regUses (r i : Nat) (w : List FuseRead) : Bool :=
  if regRoot r then decide (i ≥ 30) || (w.getD 30 {}).data.getLsbD i else !regReserved r i

/-- Why a region fails integrity, lowest reason first; empty where it passes (R94, R95). `early` is BLANK or MANUFACTURE. -/
def regReasons (early : Bool) (r : Nat) (w : List FuseRead) : List Nat :=
  let n := regLen r
  let is := List.range n
  let comp := w.getD (n - 1) { blank := true }
  let compOk := comp.ok && comp.data == compWord r (regCrc r w)
  let used := is.filter fun i => regUses r i w
  let marg := used.any fun i => (w.getD i {}).marginal
  let unc := used.any fun i => (w.getD i {}).uncorr
  let res := is.any fun i => regReserved r i && !(w.getD i { blank := true }).blank
  let shape := regShape r w
  if r = 2 && w.all (·.blank) then []
  else if r = 11 && early && comp.blank && !marg && !unc && !res && (patchEntries w).isSome then []
  else (if compOk then [] else [1]) ++ (if marg then [2] else []) ++ (if unc then [3] else []) ++
    (if res then [4] else []) ++ (if shape then [] else [5])

/-- The life-cycle state the controller acts in: in transition from step 3 of a transition to the next cold reset, else as
LIFE decodes (R110, R113); `none` where it fails. -/
def fusLc (s : State) : Option Nat :=
  if s.glb.lc = 7 || s.fus.lcDone then some 7 else (lifeDecode (regWords s.fus 2)).map (·.1)

/-- Log what a read found in a word (R91, R95). -/
def logRead (a : Nat) (x : FuseRead) (s : State) : State :=
  let s := if x.corrected then ev 0x4012#16 a 0 0 (s.modFus fun f => { f with ceCount := bvSat f.ceCount 1 }) else s
  let s := if x.marginal then ev 0x4010#16 a (regOf a) 0 s else s
  if x.uncorr then ev 0x4011#16 a (regOf a) 0 s else s

/-- The value of a counter as the region passes or takes its defaults (R97, R105). -/
def ctrValue (f : Fus) (pass : Bool) (c : Nat) : BitVec 7 :=
  let u (a : Nat) : Nat := let (t, l) := fuseCell f a; ((t ||| l).toNat) % 2 ^ 32
  let v := u (0x280 + 2 * c) + u (0x280 + 2 * c + 1) * 2 ^ 32
  BitVec.ofNat 7 (if pass then popCount (BitVec.ofNat 64 v) else ctrTop v)

/-- Load a region: read it at both margins, judge it, and take its shadow or its defaults (R84, R94, R95, R97). -/
def loadRegion (early : Bool) (r : Nat) (s : State) : State :=
  let w := regWords s.fus r
  let rs := regReasons early r w
  let used := if regRoot r then (List.range 32).filter fun i => regUses r i w else List.range (regLen r)
  let s := used.foldl (fun s i => logRead (regBase r + i) (w.getD i {}) s) s
  let pass := rs.isEmpty
  let s := if pass then s else ev 0x4013#16 r (rs.headD 1) 0 s
  let sh := ((List.range (regLen r)).zip w).filterMap fun p =>
    if p.2.ok then some (regBase r + p.1, p.2.data) else none
  let s := s.modFus fun f => { f with
    pass := bvPut f.pass r pass, failed := bvPut f.failed r false,
    shadow := (f.shadow.filter fun e => regOf e.1 ≠ r) ++ (if pass && !regRoot r then sh else []) }
  match r with
  | 6 => s.modFus fun f => { f with
      lockW := if pass then (List.range 12).foldl (fun b k => bvPut b k (k ≠ 6 && (w.getD (2 * k) {}).ok)) 0#12
        else 0xFFF#12
      lockR := if pass then (List.range 12).foldl (fun b k => bvPut b k (k ≠ 6 && (w.getD (2 * k + 1) {}).ok)) 0#12
        else 0xFFF#12 }
  | 10 => s.modFus fun f => { f with ctr := Vector.ofFn fun c => ctrValue s.fus pass c }
  | _ => s

/-- A region passed integrity at the last load (FUS_REGION.PASS). -/
def regPass (s : State) (r : Nat) : Bool := s.fus.pass.getLsbD r

/-- A shadow word, 0 where it is blank or its region took its defaults. -/
def shadowW (s : State) (a : Nat) : BitVec 32 := (assocGet s.fus.shadow a).getD 0#32

/-- A word of the fuse ceiling (R127). -/
def ceilW (s : State) (i : Nat) : BitVec 32 := shadowW s (0x180 + i)

/-- A permission of the ceiling's OPTIONS (R127). -/
def ceilOpt (s : State) (i : Nat) : Bool := (ceilW s 2).getLsbD i

/-- TMP_MIN of a tamper source (R127). -/
def tmpMin (s : State) (k : Nat) : BitVec 5 := BitVec.ofNat 5 ((ceilW s (4 + k / 4)).toNat / 256 ^ (k % 4))

/-- The watchdog fuses WDG_HW, WDG_K, WDG_N, with OPT's defaults where it failed (R97, R101). -/
def optWdg (s : State) : Bool × Nat × Nat :=
  if regPass s 8 then
    let v := (shadowW s 0x140).toNat
    (v % 2 = 1, v / 2 % 16, v / 32 % 8)
  else (true, 8, 0)

/-- The device serial number (R102). -/
def serialNo (s : State) : BitVec 64 := BitVec.ofNat 64 ((shadowW s 0x40).toNat + (shadowW s 0x41).toNat * 2 ^ 32)

/-- A usable owner slot of the shadow (R109, R97). -/
def ownUsable (s : State) (k : Nat) : Bool :=
  regPass s 7 && (List.range 12).all (fun j => (assocGet s.fus.shadow (0x100 + 16 * k + j)).isSome) &&
    (assocGet s.fus.shadow (0x10C + 16 * k)).isNone

/-- The key digest of an owner slot (R108). -/
def ownDigest (s : State) (k : Nat) : Bytes :=
  (List.range 12).flatMap fun j => leBytes 4 (shadowW s (0x100 + 16 * k + j)).toNat

/-- A slot usable as the array reads now (R109). -/
def ownUsableNow (f : Fus) (k : Nat) : Bool :=
  (List.range 12).all (fun j => (fuseRead f (0x100 + 16 * k + j)).ok) && (fuseRead f (0x10C + 16 * k)).blank

/-- The root region of a life-cycle state (R110). -/
def rootRegion (lc : Nat) : Option Nat := match lc with | 1 => some 3 | 2 => some 4 | 3 => some 5 | _ => none

/-- The root secret: the sixteen mapped words, in order (R113). -/
def rootSecret (f : Fus) (r : Nat) : Bytes :=
  (bitsOf ((fuseRead f (regBase r + 30)).data)).flatMap fun i => leBytes 4 (fuseRead f (regBase r + i)).data.toNat

/-- A pulse leaves a word reading these two values (R90, R91). -/
def fuseSet (a : Nat) (t l : BitVec 39) (f : Fus) : Fus := { f with array := cellSet (0#39, 0#39) f.array a (t, l) }

end Sys2Proof.Machine
end

