-- ==== Sys2Proof/Machine/Ops.lean ====
section
/-! DEFINITION. The operations that several chapters share: the effective profile and the rungs, the metering of the
Watershed, what reaches a register (R88, R229, R236), messages to the host (R238 to R243), and the tick of the timebase. -/

namespace Sys2Proof.Machine

/-- Raise an event whose last parameter's coding the spec does not give: that parameter is a free value. -/
def evFree1 (code : BitVec 16) (p0 : Nat) (s : State) : State :=
  let (v, s) := drawFree 32 s
  raise code (p32 p0) v 0#32 s

/-- As above, for the third parameter. -/
def evFree2 (code : BitVec 16) (p0 p1 : Nat) (s : State) : State :=
  let (v, s) := drawFree 32 s
  raise code (p32 p0) (p32 p1) v s

/-- The rung's number (R51). -/
def rungNo : Rung → Nat
  | .run => 0 | .idle => 1 | .doze => 2 | .nap => 3 | .rest => 4 | .retain => 5

/-- The rung of a number (R51). -/
def rungOf : Nat → Rung
  | 1 => .idle | 2 => .doze | 3 => .nap | 4 => .rest | 5 => .retain | _ => .run

/-- L3, L4 or L5. -/
def lowRung (s : State) : Bool := decide (3 ≤ rungNo s.pwr.rung)

/-- Change one cluster. -/
def modCluster (c : Fin 64) (f : Cluster → Cluster) (s : State) : State :=
  s.modPln fun p => { p with clusters := p.clusters.set c (f p.clusters[c]) }

/-- The clusters that the rung and the effective profile power (R51, R63, R64, R185): before a configuration is applied
the start sequence uses cluster 0 alone. -/
def clusterOn (s : State) (c : Nat) : Bool :=
  if c = 0 then !(s.pwr.rung == .rest || s.pwr.rung == .retain) && s.boot.cluster0
  else (s.pwr.rung == .run || s.pwr.rung == .idle) && s.wsh.started && (s.pwr.profileEff != 2#2 || decide (c < 32))

/-- An engine of the cluster holds a job, running or preempted. -/
def clusterHeld (s : State) (c : Nat) : Bool :=
  (s.pln.engines.any fun e => e.1 / 16 = c) || s.pln.ctx.any fun e => e.1 / 16 = c

/-- A cluster loses its supply: its memories, writable store, contexts and accelerator states (R185, R186). -/
def gateCluster (c : Fin 64) (s : State) : State :=
  let s := modCluster c (fun x => { x with
    st := 0, part := 31, vcore := 0#10, mem := [], resident := [], badParity := [], k0 := {}, k1 := {}, s0 := {}, s1 := {},
    a0 := {}, take := none, close := false }) s
  pmcAdd 478 1 (s.modPln fun p => { p with
    engines := p.engines.filter fun e => e.1 / 16 ≠ c.val, ctx := p.ctx.filter fun e => e.1 / 16 ≠ c.val })

/-- The setting of a powered cluster's supply in mV (R63, R64). -/
def vcoreOf (s : State) : BitVec 10 := if s.pwr.profileEff == 2#2 then 620#10 else 850#10

/-- Power and gate the clusters: one that no job holds at once, one that a job holds at its slice points (R65, R185). A
supply that the power cap holds below its setting stays where it is (R66). -/
def clusterPower (s : State) : State :=
  (List.finRange 64).foldl (fun s c =>
    let x := s.pln.clusters[c]
    if clusterOn s c.val then
      modCluster c (fun x => { x with
        st := if x.st ≠ 0 then x.st else if c = 0 then 5 else if x.outCause = 0 then 1 else 4, vcore := if s.pwr.capThrottle && x.st ≠ 0 then x.vcore else vcoreOf s }) s
    else if x.st ≠ 0 && !clusterHeld s c.val then gateCluster c s else s) s

/-- A force of R68 is set. -/
def anyForce (s : State) : Bool := s.pwr.forceTherm || s.pwr.forceVin || s.pwr.forceHoldup

/-- A force takes effect: ENDURANCE (R68). Below L0 it waits for the arrival there (R58). -/
def forceNow (s : State) : State :=
  if anyForce s && s.pwr.rung == .run then clusterPower (s.modPwr fun p => { p with profileEff := 2#2 }) else s

/-- A force ends (R68): the selected profile takes effect at the next frame boundary, or at once before the first frame,
when no configuration is applied (R64). -/
def forceEnds (s : State) : State :=
  if anyForce s || s.wsh.started then s
  else clusterPower (s.modPwr fun p => { p with profileEff := p.selApplied })

/-- Reach a rung and log it; the stopped functions' mask, which the spec does not code, is a free value where something
stops (R51, R52). -/
def enterRung (r : Rung) (s : State) : State :=
  let old := s.pwr.rung
  let s := pmcAdd 477 1 (s.modPwr fun p => { p with rung := r, rungTick := s.tbs.tick.toNat, tamperSince := false, tamperWake := false })
  if decide (rungNo r ≥ 2) then evFree2 0x1040#16 (rungNo old) (rungNo r) s
  else ev 0x1040#16 (rungNo old) (rungNo r) 0 s

/-- The link's power state; HLK_CLKREQ# is released in L1.1 and deeper, as PCIe has it (PRESUMED). -/
def linkPm (n : Nat) (s : State) : State :=
  (s.modHlk fun h => { h with pm := BitVec.ofNat 3 n }).modPins fun p => { p with clkreqLow := decide (n ≤ 2) }

/-- Leave L1 or L2 for L0, on any BAR access, on verification work and on a wake cause (R54, R55). -/
def leaveIdle (s : State) : State :=
  if s.pwr.rung == .idle || s.pwr.rung == .doze then
    let s := enterRung .run (s.modPwr fun p => { p with rungResult := if p.rungResult = 1 then 2#2 else p.rungResult })
    forceNow (clusterPower (if s.hlk.speed = 0 then s else linkPm 0 s))
  else s

/-- The life-cycle states of R111, and the end of a transition until the next cold reset (R113). -/
def lcClosed (s : State) : Bool := s.glb.lc = 0 || s.glb.lc = 4 || s.glb.lc = 7 || s.fus.lcDone

/-- The BAR0 windows served now (R88, R111, R131), by their number (offset / 1 MiB). -/
def servedWin (s : State) (w : Nat) : Bool :=
  if !s.glb.ready && !s.glb.startFail then w ∈ [0, 3, 5, 0x23]
  else if s.glb.startFail || lcClosed s then w ∈ [0, 3, 4, 5, 0x23]
  else if s.glb.sealedDefaults then w ∈ [0, 3, 4, 5, 0x23, 15]
  else true

/-- BAR2 and BAR4 are served only outside the cases of R88. -/
def servedBars (s : State) : Bool := s.glb.ready && !s.glb.startFail && !lcClosed s && !s.glb.sealedDefaults

/-- An access outside the served windows: the first of each start is logged (R88). -/
def unserved (bar off : Nat) (s : State) : State :=
  if s.glb.unservedLogged then s
  else ev 0x5005#16 bar off (if s.glb.ready then 1 else 0) (s.modGlb fun g => { g with unservedLogged := true })

/-- A function decodes its BARs (R236, R464). -/
def decodes (s : State) (f : Fin 16) : Bool := s.hlk.fns[f].mse && !s.hlk.fns[f].d3

/-- An access to PF0 BAR0 by an agent, `k` being what it does: the management program always reaches the registers; PF0
through its BAR, waking L1 and L2 (R54), in the served windows (R88); a virtual function never does (R229). In L3 to L5
the link is in L1.2, L2 or down, and the WAKE it causes comes first (R58); in L4 and L5 no management program runs
(R51). -/
def access (a : Agent) (off : Nat) (k : State → State) (s : State) : State :=
  match a with
  | .mgmt => if s.pwr.rung == .rest || s.pwr.rung == .retain then s else k (leaveIdle s)
  | .pf0 =>
    if !decodes s 0 || lowRung s then s
    else
      let s := leaveIdle s
      if servedWin s (off / 0x100000) then k s else unserved 0 off s
  | .vf _ => s

/-- An access by PF0 alone. -/
def accessPf0 (a : Agent) (off : Nat) (k : State → State) (s : State) : State :=
  match a with
  | .pf0 => access .pf0 off k s
  | _ => s

/-- An access to a BAR of a function that is not PF0 BAR0 (doorbells, BAR2). -/
def accessBar (f : Fin 16) (bar off : Nat) (k : State → State) (s : State) : State :=
  if !decodes s f || lowRung s then s
  else
    let s := leaveIdle s
    if servedBars s then k s else unserved bar off s

/-- Change one partition. -/
def modPart (p : Nat) (f : Part → Part) (s : State) : State :=
  s.modWsh fun w => { w with parts := Vector.ofFn fun i => if i.val = p then f w.parts[i] else w.parts[i] }

/-- A partition. -/
def part (s : State) (p : Nat) : Part := if h : p < 24 then s.wsh.parts[p] else {}

/-- A component of a count per resource: 0 engine, 1 fabric, 2 DMA. -/
def N3.get (n : N3) (r : Nat) : Nat := match r with | 0 => n.eng | 1 => n.fab | _ => n.dma
/-- As above, for budgets. -/
def R3.get (n : R3) (r : Nat) : BitVec 32 := match r with | 0 => n.eng | 1 => n.fab | _ => n.dma
/-- As above, for flags. -/
def B3.get (n : B3) (r : Nat) : Bool := match r with | 0 => n.eng | 1 => n.fab | _ => n.dma
/-- Put a component. -/
def N3.put (n : N3) (r v : Nat) : N3 :=
  match r with | 0 => { n with eng := v } | 1 => { n with fab := v } | _ => { n with dma := v }
/-- Put a component. -/
def R3.put (n : R3) (r : Nat) (v : BitVec 32) : R3 :=
  match r with | 0 => { n with eng := v } | 1 => { n with fab := v } | _ => { n with dma := v }
/-- Put a component. -/
def B3.put (n : B3) (r : Nat) (v : Bool) : B3 :=
  match r with | 0 => { n with eng := v } | 1 => { n with fab := v } | _ => { n with dma := v }

/-- A budget of all ones is uncapped (R148). -/
def uncapped (b : BitVec 32) : Bool := b == 0xFFFFFFFF#32

/-- The partition is exhausted on a resource (R150). -/
def exhausted (s : State) (p r : Nat) : Bool := (part s p).exh.get r

/-- Charge use to a partition; it is exhausted once its use reaches its effective budget (R146, R150). -/
def charge (p r n : Nat) (s : State) : State :=
  if n = 0 then s else
  let s := if r = 0 then pmcAdd (240 + p) n s else s
  modPart p (fun q =>
    let u := q.use.get r + n
    let b := q.eff.get r
    { q with use := q.use.put r u, exh := q.exh.put r (q.exh.get r || (!uncapped b && decide (b.toNat ≤ u))) }) s

/-- Charge host-link DMA in 4-byte units (R146), outbound or inbound, with the device-wide counters of R157. -/
def chargeDma (p : Nat) (out : Bool) (bytes : Nat) (s : State) : State :=
  let n := (bytes + 3) / 4
  let s := pmcAdd (if out then 385 else 384) bytes (charge p 2 n s)
  if out then s.modWsh fun w => { w with dmaOut := w.dmaOut + n } else s.modWsh fun w => { w with dmaIn := w.dmaIn + n }

/-- Write bytes to host memory for a function. -/
def hostWrite (fn : Nat) (addr : BitVec 64) (b : Bytes) (s : State) : State :=
  pmcAdd 387 1 (emit (.hostWrite fn addr b) s)

/-- Change one function. -/
def modFn (f : Fin 16) (g : Fn → Fn) (s : State) : State := s.modHlk fun h => { h with fns := h.fns.set f (g h.fns[f]) }

/-- Send an MSI-X vector of a function; a masked vector sets its pending bit (R243). -/
def sendMsix (f : Fin 16) (v : Nat) (s : State) : State :=
  if v ∈ s.hlk.fns[f].msixOpen then pmcAdd 389 1 (emit (.msix f v) s)
  else modFn f (fun x => { x with pba := if v ∈ x.pba then x.pba else v :: x.pba }) s

/-- The 32 bytes of a message entry (R240). -/
def msgBytes (m : Msg) (dropped : Nat) (phase : Bool) : Bytes :=
  [BitVec.ofNat 8 m.typ, BitVec.ofNat 8 m.ev.sev] ++ leBytes 2 m.ev.code.toNat ++
    leBytes 3 m.ev.frac.toNat ++ leBytes 5 m.ev.secs.toNat ++
    leBytes 4 m.ev.p0.toNat ++ leBytes 4 m.ev.p1.toNat ++ leBytes 4 m.ev.p2.toNat ++ leBytes 3 m.ev.seq.toNat ++ [0#8] ++
    leBytes 3 (min 0xFFFFFF dropped) ++ [BitVec.ofNat 8 ((if phase then 1 else 0) + (if m.queued then 2 else 0))]

/-- The MSI-X write that follows an entry: at once, or at the end of the holdoff (R243). -/
def ringMsix (s : State) : State :=
  if !s.hlk.ringMsix then s
  else if s.hlk.holdoff = 0 then sendMsix 0 0 s
  else if s.hlk.holdoffOn then s.modHlk fun h => { h with holdoffOwed := true }
  else sendMsix 0 0 (s.modHlk fun h => { h with holdoffOn := true })

/-- The end of a batch of held messages: one MSI-X write where an entry was posted (R243). -/
def batchEnd (s : State) : State :=
  if s.hlk.batchPosted && (s.hlk.msgs.head?.map (·.queued)).getD false = false then
    let s := s.modHlk fun h => { h with batchPosted := false }
    if s.hlk.ringMsix then sendMsix 0 0 s else s
  else s

/-- Post the oldest message, or drop it at a full ring (R240, R241, R242). -/
def postOne (s : State) : State :=
  match s.hlk.msgs with
  | [] => s
  | m :: rest =>
    if postHeld s || exhausted s 6 2 || lowRung s then s
    else
      let s := s.modHlk fun h => { h with msgs := rest }
      let n := 2 ^ s.hlk.ringK
      if (s.hlk.tail + 1) % n = s.hlk.head then batchEnd (s.modHlk (dropMsg false))
      else
        let b := msgBytes m s.hlk.dropSince s.hlk.phase
        let at_ : BitVec 64 := (s.hlk.ringBase &&& 0xFFFFFFFFFFFFF000#64) + BitVec.ofNat 64 (32 * s.hlk.tail)
        let s := hostWrite 0 (at_ + 28#64) (b.drop 28) (hostWrite 0 at_ (b.take 28) s)
        let s := pmcAdd 390 1 (chargeDma 6 true 32 s)
        let t := (s.hlk.tail + 1) % n
        let s := s.modHlk fun h => { h with
          tail := t, phase := if t = 0 then !h.phase else h.phase, dropSince := 0,
          batchPosted := h.batchPosted || m.queued }
        let s := if m.queued then batchEnd s else ringMsix s
        endDropRun true (endDropRun false s)

/-- Messages that are held when posting begins are posted as queued (R242). -/
def markQueued (s : State) : State :=
  s.modHlk fun h => { h with msgs := h.msgs.map fun m => { m with queued := true } }

/-- A job by its number. -/
def job? (s : State) (id : Nat) : Option Job := s.job.jobs.find? fun j => j.id == id

/-- Change one job. -/
def modJob (id : Nat) (f : Job → Job) (s : State) : State :=
  s.modJob fun b => { b with jobs := b.jobs.map fun j => if j.id = id then f j else j }

/-- The charge of one tick for cluster 63 in LATENCY: a sixteenth of a unit to the partition of each running engine's job
(R147). -/
def chargeStandby (s : State) : State :=
  let es := s.pln.engines.filter fun e => e.1 / 16 = 63
  es.foldl (fun s e => match job? s e.2.job with
    | some j => modPart (8 + j.fn.val) (fun p => { p with sixteenths := p.sixteenths + 1 }) s
    | none => s) s

/-- Engine time of one tick: every granted job cluster is charged to its partition (R146, R147), and every job for each
engine it holds (R260). -/
def chargeTick (s : State) : State :=
  let s := s.pln.engines.foldl (fun s e => modJob e.2.job (fun j => { j with time := j.time + 1 }) s) s
  (List.range 64).foldl (fun s c =>
    let cl := s.pln.clusters.toList.getD c {}
    if c = 0 || decide (24 ≤ cl.part) then s
    else
      let s := pmcAdd (64 + c) 1 s
      if c = 63 && s.pwr.profileEff == 1#2 then chargeStandby s else charge cl.part 0 1 s) s

/-- The integral counters of one tick: blocked engines, leaves queued, descriptors waiting, link states (R441). -/
def pmcTick (s : State) : State :=
  if !s.pmc.on then s else
  let s := pmcAdd 464 1 s
  let s := (s.pln.engines.filter fun e => e.2.blk.isSome).foldl (fun s e => pmcAdd (128 + e.1 / 16) 1 s) s
  let s := (List.finRange 16).foldl (fun s c => pmcAdd (432 + c.val) s.sdl.ch[c].cvQueue.length s) s
  let s := (List.finRange 16).foldl (fun s f =>
    pmcAdd (448 + f.val) (s.job.jobs.filter fun j => j.fn = f && j.ph == .waiting).length s) s
  match s.hlk.pm.toNat with
  | 1 => pmcAdd 392 1 s
  | 2 => pmcAdd 393 1 s
  | 3 => pmcAdd 394 1 s
  | 4 => pmcAdd 395 1 s
  | _ => s

/-- One step of a loop's LFSR, x^31 + x^28 + 1 (R384); the bit that enters is the sum of the stages 31 and 28. -/
def lfsrStep (r : BitVec 31) : BitVec 31 := (r <<< 1) ||| (BitVec.ofBool (r.getLsbD 30 ^^ r.getLsbD 27)).setWidth 31

/-- One tick of the calendar, 40 ns (R437), with the loops' LFSRs every 1/1,024 s of it (R384). -/
def calTickStep (s : State) : State :=
  s.modAon fun a =>
    let t := a.calTick + 1
    let a := if t * 1024 / 25000000 ≠ a.calTick * 1024 / 25000000 then { a with lfsr := a.lfsr.map lfsrStep } else a
    if t < 25000000 then { a with calTick := t } else { a with calTick := 0, calSecs := a.calSecs + 1 }

/-- Milliseconds of the calendar, which runs in every mode (R437). -/
def calMs (s : State) : Nat := s.aon.calSecs.toNat * 1000 + s.aon.calTick / 25000

/-- One 40 ns tick of the timebase, what the block does while no command waits (log entry 6): the calendar, the tick
count, the frame's ticks and the engine time charged. Without power nothing counts; on the cell and in RETAIN only the
calendar does (R47, R51). -/
def tickStep (s : State) : State :=
  if s.aon.batteryOnly then calTickStep s
  else if !s.pwr.supplyValid then s
  else
    let s := calTickStep s
    if s.pwr.rung == .retain then s
    else
      let s := s.modTbs fun t => { t with tick := t.tick + 1 }
      let s := if s.wsh.started && s.pwr.rung != .rest then s.modWsh fun w => { w with tick := w.tick + 1 } else s
      pmcTick (chargeTick s)

/-- Change one channel. -/
def modCh (c : Fin 16) (f : Channel → Channel) (s : State) : State :=
  s.modSdl fun d => { d with ch := d.ch.set c (f d.ch[c]) }

/-- Change one domain. -/
def modDom (d : Fin 32) (f : Domain → Domain) (s : State) : State :=
  s.modPrs fun p => { p with dom := p.dom.set d (f p.dom[d]) }

/-- Change one image object. -/
def modObj (o : Fin 64) (f : Obj → Obj) (s : State) : State :=
  s.modLdg fun l => { l with objs := l.objs.set o (f l.objs[o]) }

/-- Microseconds of a number of ticks (25 ticks a µs). -/
def usOf (ticks : Nat) : Nat := ticks / 25

/-- A change of the effective profile's clusters is made by the array; the effective profile of a selection (R68). -/
def effProfile (s : State) : BitVec 2 := if anyForce s then 2#2 else s.pwr.selApplied

end Sys2Proof.Machine
end

