-- ==== Sys2Proof/Machine/Ledop.lean ====
section
/-! DEFINITION. The flash channels' modes (R279 to R281, R301) and the image ledger: reading it, appending to it,
compacting it and checking a slot (R312, R313, R318 to R327). -/

namespace Sys2Proof.Machine

/-- The code of a channel mode (R279). -/
def chModeNo : ChMode → Nat
  | .sealed => 0 | .verifying => 1 | .filtering => 2 | .pass => 3

/-- Drive F_WP# of a channel. -/
def setWp (c : Fin 16) (high : Bool) (s : State) : State :=
  let s := modCh c (fun x => { x with wpHigh := high }) s
  s.modPins fun p => { p with fWp := p.fWp.set c (if high then .high else if s.pwr.vflashOn then .low else .hiz) }

/-- Change a channel's mode and log it (R280). Leaving FILTERING empties the continuous-verification cache (R299), and
leaving FILTERING or PASS returns F_WP# low (R301). -/
def setMode (c : Fin 16) (m : ChMode) (s : State) : State :=
  let old := s.sdl.ch[c].mode
  if old = m then s
  else
    let s := modCh c (fun x => { x with mode := m }) s
    let s := if old = .filtering then
        modCh c (fun x => { x with cache := [], cvNodes := [], cvQueue := [], starved := false, rstArmed := false }) s
      else s
    let s := if old = .filtering || old = .pass then setWp c false s else s
    ev 0xA001#16 c.val (chModeNo old) (chModeNo m) s

/-- The channel is in PRESENT. -/
def chPresent (s : State) (c : Fin 16) : Bool := s.sdl.present.getLsbD c.val

/-- The mask of channels outside SEALED. -/
def unsealedMask (s : State) : BitVec 16 :=
  (List.finRange 16).foldl (fun b c => if s.sdl.ch[c].mode = .sealed then b else bvPut b c.val true) 0#16

/-- Every channel goes to SEALED. -/
def sealAll (s : State) : State :=
  (List.finRange 16).foldl (fun s c =>
    modCh c (fun x => { x with discovered := false, golden := false }) (setMode c .sealed s)) s

/-- A present channel enters VERIFYING with its flashes to be discovered (R280, R282). -/
def chVerify (c : Fin 16) (s : State) : State :=
  if chPresent s c then
    setMode c .verifying (modCh c (fun x => { x with discovered := false, fault := 0 }) s)
  else s

/-- The emulated registers take EREG_INIT (R290). -/
def eregLoad (c : Fin 16) (s : State) : State :=
  modCh c (fun x => { x with eregs := x.cfg.eregInit, wel := false, wipOnce := false, rstArmed := false }) s

/-- A channel that enters FILTERING takes its bit of the CONTVER mask; a change that waited is logged (R305). -/
def cvEnter (c : Fin 16) (s : State) : State :=
  let waited := s.sdl.ch[c].cvPend.isSome
  let on := s.sdl.contver.getLsbD c.val
  let s := modCh c (fun x => { x with cvOn := on, cvPend := none }) s
  if waited then ev 0x5017#16 0xA00010 s.sdl.contver.toNat 0 s else s

/-- A released domain's channel: PASS where the effective PASS mask has it, else FILTERING, with WP_REL and EREG_INIT
(R280, R290, R301). -/
def chRelease (c : Fin 16) (s : State) : State :=
  let m : ChMode := if s.sdl.pass.getLsbD c.val then .pass else .filtering
  let s := setMode c m s
  let s := if m = .filtering then cvEnter c (eregLoad c s) else s
  if s.sdl.ch[c].cfg.wpRel then setWp c true s else s

/-- A flash of a channel was found at discovery. -/
def flashFound (s : State) (c : Fin 16) (cs1 : Bool) : Bool :=
  s.sdl.ch[c].discovered && decide ((if cs1 then s.sdl.ch[c].dens1 else s.sdl.ch[c].dens0) ≠ 0)

/-- The recovery flash answers: channel 15 chip select 0 (R321). -/
def recFlash (s : State) : Bool := s.pwr.vflashOn && flashFound s 15 false

/-- The device's own erase of a range of a flash, as sent outward: the range's length is its data. -/
def flashErase (c : Fin 16) (cs1 : Bool) (base : BitVec 32) (len : Nat) (s : State) : State :=
  emit (.flashCmd c cs1 0xD8#8 base (leBytes 4 len)) s

/-- Whether the object has a slot B (R311). -/
def hasSlotB (s : State) (o : Fin 64) : Bool :=
  match s.ldg.objs[o].cfg with
  | some e => s.sdl.ch[e.ch].cfg.layout == 1#2
  | none => false

/-- Records that name one slot. -/
def slotRecs (rs : List LedRec) (o : Nat) (b : Bool) : List LedRec :=
  rs.filter fun r => decide (r.obj.toNat = o) && (r.slot == b) && decide (1 ≤ r.st) && decide (r.st ≤ 4)

/-- The record with the highest SEQ. -/
def maxSeq : List LedRec → Option LedRec
  | [] => none
  | r :: t => match maxSeq t with
    | none => some r
    | some q => if q.seq.toNat > r.seq.toNat then some q else some r

/-- A slot's latest record (R325). -/
def latest (s : State) (o : Nat) (b : Bool) : Option LedRec := maxSeq (slotRecs s.ldg.recs o b)

/-- The state of a slot's latest record, 0 none. -/
def latestSt (s : State) (o : Nat) (b : Bool) : Nat := ((latest s o b).map (·.st)).getD 0

/-- The ledger floor of an object (R323). -/
def ledFloor (s : State) (o : Nat) : Nat :=
  (s.ldg.recs.filter fun r => decide (r.obj.toNat = o) && (r.st == 5 || (r.st == 3 && r.origin != 2))).foldl
    (fun m r => max m r.secver.toNat) 0

/-- The ledger has been read at this start. -/
def ledRead (s : State) : Bool := s.ldg.empty || decide (s.ldg.gen ≠ 0)

/-- Appends are possible at all (R324). -/
def ledCan (s : State) : Bool := !s.ldg.fail && recFlash s && ledRead s

/-- The used positions of a sector. -/
def sectorOf (s : State) (one : Bool) : List LedRec := if one then s.nv.led1 else s.nv.led0

/-- Replace the used positions of a sector. -/
def putSector (one : Bool) (l : List LedRec) (s : State) : State :=
  s.modNv fun n => if one then { n with led1 := l } else { n with led0 := l }

/-- A sector header is valid (R325). -/
def headOk (l : List LedRec) : Option LedRec :=
  match l with
  | h :: _ => if h.valid && h.crcOk && h.obj == 0xFF#8 && h.st == 0 then some h else none
  | [] => none

/-- The ledger is empty (R325). -/
def ledEmpty (cause : Nat) (s : State) : State :=
  ev 0xB027#16 cause 0 0 (s.modLdg fun l => { l with empty := true, recs := [], seq := 0#32, gen := 0#32, free := 0 })

/-- The view of one sector: its records in order, the ignored ones logged (R325). -/
def readSector (one : Bool) (s : State) : State :=
  let l := sectorOf s one
  let h := (headOk l).getD {}
  let body := (List.range l.length).zip l |>.drop 1
  let s := body.foldl (fun s p =>
    if !p.2.valid then ev 0xB024#16 (if one then 1 else 0) p.1 1 s
    else if !p.2.crcOk then ev 0xB024#16 (if one then 1 else 0) p.1 2 s else s) s
  let good := (body.map (·.2)).filter fun r => r.valid && r.crcOk
  s.modLdg fun x => { x with
    sector := one, empty := false, gen := h.version, recs := good, free := 1024 - l.length,
    seq := good.foldl (fun m r => if r.seq.toNat > m.toNat then r.seq else m) h.seq }

/-- Read the ledger (R325). -/
def readLedger (s : State) : State :=
  if !recFlash s then ledEmpty 2 s
  else match headOk s.nv.led0, headOk s.nv.led1 with
    | none, none => ledEmpty 1 s
    | some _, none => readSector false s
    | none, some _ => readSector true s
    | some a, some b => readSector (decide (b.version.toNat > a.version.toNat)) s

/-- A header of a generation (R322); it takes no SEQ of its own (log entry 21). -/
def ledHeader (gen seq : BitVec 32) : LedRec := { seq := seq, obj := 0xFF#8, st := 0, version := gen }

/-- What compaction writes: the latest record of every slot that is not RETIRED, then the floors above the fused counters,
under new SEQs (R326). -/
def compacted (s : State) : List LedRec :=
  let slots := (List.range 64).flatMap fun o =>
    [false, true].filterMap fun b => (latest s o b).bind fun r => if r.st = 4 then none else some r
  let floors := (List.range 64).filterMap fun o =>
    let f := ledFloor s o
    if decide ((s.fus.ctr.toList.getD o 0).toNat < f) then
      some ({ obj := BitVec.ofNat 8 o, st := 5, secver := BitVec.ofNat 16 f } : LedRec)
    else none
  let all := slots ++ floors
  ((List.range all.length).zip all).map fun p => { p.2 with seq := s.ldg.seq + BitVec.ofNat 32 (p.1 + 1) }

/-- Compact the ledger into the other sector (R326). -/
def compact (s : State) : State :=
  let rs := compacted s
  let gen := s.ldg.gen + 1
  let one := !s.ldg.sector
  let seq := s.ldg.seq + BitVec.ofNat 32 rs.length
  let s := putSector one (ledHeader gen seq :: rs) s
  let s := s.modLdg fun l => { l with
    sector := one, gen := gen, recs := rs, seq := seq, free := 1024 - (rs.length + 1), empty := false }
  ev 0xB025#16 gen.toNat rs.length 0 s

/-- Put a position after the last used one of the active sector. -/
def ledPut (r : LedRec) (s : State) : State :=
  let s := putSector s.ldg.sector (sectorOf s s.ldg.sector ++ [r]) s
  s.modLdg fun l => { l with
    free := l.free - 1, recs := if r.valid && r.crcOk then l.recs ++ [r] else l.recs,
    seq := if r.valid && r.crcOk then r.seq else l.seq }

/-- Append a record (R324): `bad` positions read otherwise than written. Whether it was appended, and the state after. -/
def ledTry (r : LedRec) (bad : Nat) (s : State) : Bool × State :=
  if !ledCan s then (false, s)
  else if s.ldg.seq.toNat + 1 > 0xFFFFFFF0 then (false, ev 0xB02A#16 (s.ldg.seq.toNat + 1) 0 0 s)
  else
    let s := if s.ldg.empty then
        (putSector false [ledHeader 1#32 s.ldg.seq] s).modLdg fun l => { l with
          sector := false, empty := false, gen := 1#32, recs := [], free := 1023 }
      else if decide (s.ldg.free < 2) then compact s else s
    let r := { r with seq := s.ldg.seq + 1 }
    let badRec : LedRec := { r with valid := false }
    if bad = 0 then
      (true, ev 0xB020#16 r.seq.toNat (r.obj.toNat * 2 + (if r.slot then 1 else 0)) (r.st * 256 + r.origin) (ledPut r s))
    else if bad = 1 then
      (true, ev 0xB020#16 r.seq.toNat (r.obj.toNat * 2 + (if r.slot then 1 else 0)) (r.st * 256 + r.origin)
        (ledPut r (ledPut badRec s)))
    else
      let pos := 1024 - s.ldg.free + 1
      let s := ledPut badRec (ledPut badRec s)
      (false, ev 0xB026#16 pos r.seq.toNat 0 (s.modLdg fun l => { l with fail := true }))

/-- A record appended makes the slot's check stand no more (R319). -/
def unstand (o : Fin 64) (b : Bool) (s : State) : State :=
  modObj o (fun x => if b then { x with doneB := false, okB := false } else { x with doneA := false, okA := false }) s

/-- Append a record of a slot, the flash taking it. -/
def ledAppend (o : Fin 64) (b : Bool) (st origin : Nat) (ver : BitVec 32) (sec : BitVec 16) (dig : BitVec 256) (s : State) :
    Bool × State :=
  let r : LedRec := { obj := BitVec.ofNat 8 o.val, slot := b, st := st, origin := origin, version := ver, secver := sec,
                      digest := dig }
  let (ok, s) := ledTry r 0 s
  if ok then (true, unstand o b s) else (false, s)

/-- Append a record that repeats a slot's latest record in a new state. -/
def ledRestate (o : Fin 64) (b : Bool) (st : Nat) (origin : Option Nat) (s : State) : Bool × State :=
  match latest s o.val b with
  | some r => ledAppend o b st (origin.getD r.origin) r.version r.secver r.digest s
  | none => (false, s)

/-- The manifest's facts, where it obeys R313 and names the object. -/
def parseMan (o : Nat) (m : Bytes) : Option ManInfo :=
  let rootN := slice m 24 48
  let h := leAt m 7 1
  let zero (a n : Nat) : Bool := (slice m a n).all (· == 0#8)
  let ok := m.length = 5592 && leAt m 0 4 = 0x4D495A4B && leAt m 4 2 = 1 && leAt m 6 1 = o && decide (h ≤ 1) &&
    leAt m 8 4 ≠ 0 && zero 14 2 && leAt m 16 4 ≠ 0 && leAt m 20 4 % 4096 = 0 && decide (leAt m 20 4 ≥ leAt m 16 4) &&
    (h = 1 || zero 56 16) && leAt m 72 2 = 1 && zero 74 54 && zero (128 + 2049) 7 && zero (2184 + 3309) 3
  if ok then
    some { version := BitVec.ofNat 32 (leAt m 8 4), secver := BitVec.ofNat 16 (leAt m 12 2),
           size := BitVec.ofNat 32 (leAt m 16 4), meas := BitVec.ofNat 384 (leNat (sha3_384 m)),
           root := BitVec.ofNat 384 (leNat rootN), sha384 := h = 1 }
  else none

/-- Sizes of a Merkle tree's levels over `n` leaves, the root not among them unless it is the only leaf (R312). -/
def treeNodes : Nat → Nat → Nat
  | 0, _ => 0
  | k + 1, n => if n ≤ 1 then n else n + treeNodes k ((n + 1) / 2)

/-- SIZE, the tree area and the manifest fit within LEN (R318, R312, R313). -/
def manFits (m : Bytes) (len : Nat) : Bool :=
  let size := leAt m 16 4
  let off := leAt m 20 4
  let hs := if leAt m 7 1 = 1 then 48 else 32
  decide (8192 ≤ len) && decide (size ≤ len - 8192) && decide (off + hs * treeNodes 40 ((size + 4095) / 4096) ≤ len - 8192)

/-- The usable owner slot whose digest a key block has (R217, R313). -/
def keyOwner (s : State) (kb : Bytes) : Option Nat :=
  let d := sha3_384 (kb.take 2049)
  (List.range 4).find? fun k => ownUsable s k && ownDigest s k == d

/-- The signature checks of a key block and a signature block over a message: 0, or 2, 3, 4 (R216, R217, R270). -/
def hybridCheck (s : State) (kb sb ctx msg : Bytes) : Nat :=
  if (keyOwner s kb).isNone then 2
  else if !Config.sigVerify 0 (kb.take 1952) ctx msg (sb.take 3309) then 3
  else if !Config.sigVerify 1 (slice kb 1952 97) [] msg (slice sb 3312 96) then 4
  else 0

/-- Checks 2 to 4 of a manifest. -/
def manSigs (s : State) (m : Bytes) : Nat :=
  hybridCheck s (slice m 128 2056) (slice m 2184 3408) (ascii "KS-2416 image") (m.take 2184)

/-- The fused counter of an object (R107). -/
def fusedFloor (s : State) (o : Nat) : Nat := (s.fus.ctr.toList.getD o 0).toNat

/-- The root a check computed equals the manifest's (R318). -/
def rootOk (m root : Bytes) : Bool :=
  if leAt m 7 1 = 1 then root == slice m 24 48 else root == slice m 24 32

/-- Which checks of R318 a reader makes: the ledger's 9 and 10, the floor's 8, the root's 6. -/
structure ChecksOf where
  /-- checks 9 and 10 -/
  ledger : Bool
  /-- check 8 -/
  floor : Bool
  /-- check 6 -/
  root : Bool

/-- The first failing check of R318 in its order, 0 where all pass, with the manifest's facts. -/
def slotCode (k : ChecksOf) (o : Fin 64) (b : Bool) (f : SlotFacts) (s : State) : Nat × Option ManInfo :=
  let l := latest s o.val b
  let len := ((s.ldg.objs[o].cfg.map (·.len)).getD 0#32).toNat
  if f.fault then (11, none)
  else if k.ledger && !((l.map (·.st)).getD 0 == 2 || (l.map (·.st)).getD 0 == 3) then (9, none)
  else match parseMan o.val f.man with
    | none => (1, none)
    | some m =>
      if !manFits f.man len then (5, some m)
      else if k.ledger && (match l with
          | some r => !(r.digest == BitVec.ofNat 256 (leNat (slice (sha3_384 f.man) 0 32)) && r.version == m.version &&
              r.secver == m.secver)
          | none => true) then (10, some m)
      else
        let g := manSigs s f.man
        if g ≠ 0 then (g, some m)
        else if decide (m.secver.toNat < fusedFloor s o.val) then (7, some m)
        else if k.floor && (l.map (·.origin)).getD 0 != 2 && decide (m.secver.toNat < ledFloor s o.val) then (8, some m)
        else if k.root && !rootOk f.man f.root then (6, some m)
        else (0, some m)

/-- The first 32 bytes of a measurement, as a record holds them (R322). -/
def digestOf (m : ManInfo) : BitVec 256 := BitVec.setWidth 256 m.meas

end Sys2Proof.Machine
end

