-- ==== Sys2Proof/Machine/Platform.lean ====
section
/-! DEFINITION. The release sequencer and the recovery manager (chapter 12): holds, verification, slot choice, release,
redirections abandoned with their domain, and the recovery order. -/

namespace Sys2Proof.Machine

/-- The code of a domain state (R306). -/
def domStNo : DomSt → Nat
  | .held => 0 | .verifying => 1 | .released => 2 | .quarantined => 3 | .recovering => 4

/-- The domains. -/
def allDoms : List (Fin 32) := List.finRange 32

/-- The image objects. -/
def allObjs : List (Fin 64) := List.finRange 64

/-- The channels that a domain owns, present. -/
def ownChannels (s : State) (d : Fin 32) : List (Fin 16) :=
  (List.finRange 16).filter fun c => chPresent s c && (s.sdl.ch[c].cfg.domain == some d)

/-- A domain requires an object (R315). -/
def requires (s : State) (d : Fin 32) (o : Fin 64) : Bool :=
  match s.ldg.objs[o].cfg with
  | some e => e.domains.getLsbD d.val
  | none => false

/-- A domain's required objects. -/
def reqObjs (s : State) (d : Fin 32) : List (Fin 64) := allObjs.filter fun o => requires s d o

/-- A domain's plan's predecessors. -/
def predsOf (s : State) (d : Fin 32) : BitVec 32 := ((s.prs.dom[d].plan).map (·.pred)).getD 0#32

/-- DOM_PG[d] is an enabled input (R62). -/
def pgEnabled (s : State) (d : Fin 32) : Bool := ((s.prs.dom[d].plan).map (·.pgReq)).getD false

/-- The domains in a state, as a mask. -/
def domMaskOf (s : State) (f : Domain → Bool) : BitVec 32 :=
  allDoms.foldl (fun b d => if f s.prs.dom[d] then bvPut b d.val true else b) 0#32

/-- Both of an object's slots have checks that stand, and one was eligible (R319). -/
def objReady (s : State) (o : Fin 64) : Bool :=
  let x := s.ldg.objs[o]
  x.chosen && x.doneA && x.doneB

/-- Neither slot is eligible (R319). -/
def objFailed (s : State) (o : Fin 64) : Bool :=
  let x := s.ldg.objs[o]
  x.cfg.isSome && x.doneA && x.doneB && !x.okA && !x.okB

/-- Drive a DOM_RST# line; its readback follows. -/
def driveRst (d : Fin 32) (assert : Bool) (s : State) : State :=
  modDom d (fun x => { x with rbHigh := !assert, rbLogged := false })
    (s.modPins fun p => { p with domRst := bvPut p.domRst d.val assert })

/-- Change one platform watchdog. -/
def modPlat (d : Fin 32) (f : PlatWdg → PlatWdg) (s : State) : State :=
  s.modWdg fun w => { w with plat := w.plat.set d (f w.plat[d]) }

/-- Arm a platform watchdog, at its domain's release (R400). -/
def armPlat (d : Fin 32) (s : State) : State :=
  let p := s.wdg.plat[d]
  if p.period = 0 then modPlat d (fun p => { p with periodNow := 0, armed := false }) s
  else
    ev 0xE121#16 d.val p.period.toNat 0 (modPlat d (fun p => { p with
      armed := true, paused := false, periodNow := p.period, token := if p.seed = 0 then 1#16 else p.seed,
      startTick := s.tbs.tick.toNat }) s)

/-- Disarm a platform watchdog (R400). -/
def disarmPlat (d : Fin 32) (s : State) : State := modPlat d (fun p => { p with armed := false, paused := false }) s

/-- The staging slot of an object: the one not chosen (R289, R294). -/
def stagingB (s : State) (o : Fin 64) : Bool := !s.ldg.objs[o].sel

/-- Show an update's state in the mailbox of the channel it runs on (R293). -/
def setMbox (c : Fin 16) (o : Fin 64) (st res : Nat) (s : State) : State :=
  modCh c (fun x => { x with mboxState := st, mboxObj := BitVec.ofNat 6 o.val, mboxRes := res }) s

/-- Erase the slot of an object on its flash. -/
def eraseSlot (o : Fin 64) (b : Bool) (s : State) : State :=
  match s.ldg.objs[o].cfg with
  | some e => unstand o b (flashErase e.ch b e.base e.len.toNat s)
  | none => s

/-- An abandoned redirection ends: S′ is erased and RETIRED is appended (R295). -/
def endAbandon (o : Fin 64) (cause : Nat) (s : State) : State :=
  let b := stagingB s o
  let c := s.ldg.objs[o].redirCh
  let s := eraseSlot o b s
  let s := (ledRestate o b 4 (some 1) s).2
  let s := modObj o (fun x => { x with redir := false, redirCh := none, redirPhase := 0 }) s
  let s := match c with
    | some c => setMbox c o 5 0 s
    | none => s
  ev 0xA024#16 o.val (if b then 1 else 0) cause s

/-- Abandon an open redirection: at once, or once the operation issued to a flash of its channel ends (R295). The cause
waits in `redirPhase` as 3 + cause. -/
def abandonRedir (o : Fin 64) (cause : Nat) (s : State) : State :=
  let x := s.ldg.objs[o]
  if !x.redir || decide (x.redirPhase ≥ 3) then s
  else
    let busy := (x.redirCh.map fun c => s.sdl.ch[c].writeBusy.isSome).getD false
    if busy then modObj o (fun x => { x with redirPhase := 3 + cause }) s else endAbandon o cause s

/-- A held domain's channels return to VERIFYING and the redirections on them are abandoned (R280, R281, R295). -/
def holdChannels (d : Fin 32) (s : State) : State :=
  (ownChannels s d).foldl (fun s c =>
    let s := if s.sdl.ch[c].mode = .filtering || s.sdl.ch[c].mode = .pass then setMode c .verifying s else s
    let s := modCh c (fun x => { x with golden := false }) s
    allObjs.foldl (fun s o => if s.ldg.objs[o].redirCh == some c then abandonRedir o 3 s else s) s) s

/-- A domain leaves RELEASED: its line is asserted, then its channels follow (R280, R308). -/
def leaveReleased (d : Fin 32) (tgt : DomSt) (s : State) : State :=
  let s := driveRst d true s
  let s := modDom d (fun x => { x with st := tgt, ready := false, golden := false }) s
  holdChannels d (disarmPlat d s)

/-- A hold cause arises on a domain; under CASCADE its successors take PRED (R307, R308). `fuel` bounds the chain. -/
def holdDomain : Nat → Fin 32 → Nat → State → State
  | 0, _, _, s => s
  | fuel + 1, d, bitNo, s =>
    let x := s.prs.dom[d]
    let s := modDom d (fun x => { x with hold := bvPut x.hold bitNo true }) s
    let causes := s.prs.dom[d].hold.toNat
    if x.st = .released then
      let s := leaveReleased d .held s
      let s := ev 0xB002#16 d.val causes 2 (modDom d (fun x => { x with holds := bvSat x.holds 1 }) s)
      allDoms.foldl (fun s e =>
        let y := s.prs.dom[e]
        if (y.plan.map fun p => p.cascade && p.pred.getLsbD d.val).getD false then
          holdDomain fuel e 3 (modDom e (fun y => { y with predLeft := bvPut y.predLeft d.val true }) s)
        else s) s
    else if x.st = .verifying then
      let s := modDom d (fun x => { x with st := .held, ready := false, holds := bvSat x.holds 1 }) s
      ev 0xB002#16 d.val causes 1 s
    else s

/-- A hold cause arises. -/
def hold (d : Fin 32) (bitNo : Nat) (s : State) : State := holdDomain 33 d bitNo s

/-- A hold cause ends; the domain leaves HELD when none remains, at `settle`. -/
def unhold (d : Fin 32) (bitNo : Nat) (s : State) : State :=
  modDom d (fun x => { x with hold := bvPut x.hold bitNo false }) s

/-- The successors of a domain that has left RELEASED without a hold of its own take PRED (R308). -/
def cascadeFrom (d : Fin 32) (s : State) : State :=
  allDoms.foldl (fun s e =>
    let y := s.prs.dom[e]
    if (y.plan.map fun p => p.cascade && p.pred.getLsbD d.val).getD false then
      hold e 3 (modDom e (fun y => { y with predLeft := bvPut y.predLeft d.val true }) s)
    else s) s

/-- A domain begins VERIFYING (R307, R316). -/
def startVerify (d : Fin 32) (s : State) : State :=
  let delay := ((s.prs.dom[d].plan).map (·.delayMs)).getD 0#16
  ev 0xB004#16 d.val 0 0 (modDom d (fun x => { x with st := .verifying, ready := false, delayDone := delay = 0 }) s)

/-- A domain is quarantined for an object (R307, R319). -/
def quarantine (d : Fin 32) (o : Fin 64) (s : State) : State :=
  let x := s.ldg.objs[o]
  ev 0xB003#16 d.val o.val (x.checkA.toNat * 16 + x.checkB.toNat)
    (modDom d (fun y => { y with
      st := .quarantined, ready := false, check := x.checkA, obj := BitVec.ofNat 6 o.val }) s)

/-- Choose a slot of an object, once both slots' checks stand (R319). -/
def chooseSlot (o : Fin 64) (s : State) : State :=
  let x := s.ldg.objs[o]
  if !(x.doneA && x.doneB) then s
  else
    let va := ((x.manA.map (·.version)).getD 0#32)
    let vb := ((x.manB.map (·.version)).getD 0#32)
    if !x.okA && !x.okB then modObj o (fun x => { x with chosen := false }) s
    else
      let b := if x.okA && x.okB then decide (vb.toNat > va.toNat) else x.okB
      let s := if x.okA && x.okB && va == vb then ev 0xB022#16 o.val va.toNat 0 s else s
      let m := (if b then x.manB else x.manA).getD {}
      let moved := x.chosen && x.sel != b
      let s := modObj o (fun x => { x with sel := b, chosen := true, version := m.version, secver := m.secver }) s
      let s := if moved then match x.cfg with
          | some e => modCh e.ch (fun c => { c with cache := [], cvNodes := [], cvQueue := [] }) s
          | none => s
        else s
      ev 0xB021#16 o.val (if b then 1 else 0) m.version.toNat s

/-- A domain in VERIFYING with an object that has no eligible slot is quarantined; READY follows its objects (R306,
R319). -/
def judge (d : Fin 32) (s : State) : State :=
  match (reqObjs s d).find? fun o => objFailed s o with
  | some o => quarantine d o s
  | none => modDom d (fun x => { x with ready := (reqObjs s d).all fun o => objReady s o }) s

/-- The conditions of a release (R316), the channels of the domain being in VERIFYING and discovered. -/
def canRelease (s : State) (d : Fin 32) : Bool :=
  let x := s.prs.dom[d]
  match x.plan with
  | none => false
  | some p =>
    (x.st == .verifying) && x.hold == 0#8 && x.ready && x.delayDone && s.glb.ready &&
      (bitsOf p.pred).all (fun e => if h : e < 32 then s.prs.dom[e].st == .released else true) &&
      (!p.pgReq || s.pins.domPg.getLsbD d.val) &&
      (ownChannels s d).all fun c => (s.sdl.ch[c].mode == .verifying) && s.sdl.ch[c].discovered

/-- Microseconds since supply valid (R335). -/
def nowUs (s : State) : BitVec 32 := p32s (usOf s.tbs.tick.toNat)

/-- The line of a domain is released: channels first, then DOM_RST# (R280, R316); the successors' delays start again
(R316) and a PRED cause whose predecessors are all back ends (R308). -/
def releaseLine (d : Fin 32) (golden : Bool) (s : State) : State :=
  let s := (ownChannels s d).foldl (fun s c => chRelease c s) s
  let s := driveRst d false s
  let t := nowUs s
  let s := modDom d (fun x => { x with
    st := .released, golden := golden, timeUs := t, releases := bvSat x.releases 1 }) s
  let s := ev 0xB001#16 d.val (if golden then 1 else 0) t.toNat s
  let s := armPlat d s
  allDoms.foldl (fun s e => modDom e (fun y =>
    let left := bvPut y.predLeft d.val false
    let isPred := (y.plan.map fun p => p.pred.getLsbD d.val).getD false
    { y with
      predLeft := left
      hold := if y.hold.getLsbD 3 && left == 0#32 then bvPut y.hold 3 false else y.hold
      delayDone := if isPred && y.st == .verifying then ((y.plan.map (·.delayMs)).getD 0#16) == 0#16 else y.delayDone }) s) s

/-- The records of a release (R320): ACTIVE for a chosen slot that is VERIFIED, keeping its ORIGIN, then RETIRED with
ORIGIN 7 for the loser. The checks of this start stand on (log entry 22). -/
def releaseRecords (o : Fin 64) (s : State) : State :=
  let x := s.ldg.objs[o]
  let keep (s : State) : State := modObj o (fun y => { y with
    doneA := x.doneA, doneB := x.doneB, okA := x.okA && (!x.chosen || !x.sel || latestSt s o.val false ≠ 4),
    okB := x.okB && (x.sel || latestSt s o.val true ≠ 4) }) s
  if !x.chosen then s
  else
    let s := if latestSt s o.val x.sel = 2 then keep (ledRestate o x.sel 3 none s).2 else s
    let l := latestSt s o.val (!x.sel)
    if l = 2 || l = 3 then
      let (ok, s) := ledRestate o (!x.sel) 4 (some 7) s
      let s := keep s
      if ok then ev 0xB029#16 o.val (if x.sel then 0 else 1) x.version.toNat s else s
    else s

/-- A domain is released (R316, R320). -/
def release (d : Fin 32) (s : State) : State :=
  let os := reqObjs s d
  os.foldl (fun s o => releaseRecords o s) (releaseLine d false s)

/-- One round over the domains. -/
def settleRound (s : State) : State :=
  allDoms.foldl (fun s d =>
    let x := s.prs.dom[d]
    match x.st with
    | .held => if x.plan.isSome && x.hold == 0#8 then startVerify d s else s
    | .verifying =>
      let s := judge d s
      if canRelease s d then release d s else s
    | _ => s) s

/-- Objects under recovery: required by a domain that is QUARANTINED or RECOVERING, with no eligible slot (R331). -/
def quarObjs (s : State) : List (Fin 64) :=
  allObjs.filter fun o => objFailed s o && !s.ldg.objs[o].rcvFailed &&
    allDoms.any fun d => requires s d o && (s.prs.dom[d].st == .quarantined || s.prs.dom[d].st == .recovering)

/-- The domains of an object join the recovery (R331). -/
def joinRecovery (o : Fin 64) (s : State) : State :=
  allDoms.foldl (fun s d =>
    if requires s d o && s.prs.dom[d].st == .quarantined then modDom d (fun x => { x with st := .recovering }) s else s) s

/-- A recovering domain none of whose objects lacks a slot returns to VERIFYING (R307, R332). -/
def recovered (s : State) : State :=
  allDoms.foldl (fun s d =>
    if s.prs.dom[d].st == .recovering && (reqObjs s d).all (fun o => !objFailed s o) then startVerify d s else s) s

/-- The recovery ends: the domains still recovering are QUARANTINED (R334). -/
def endRecovery (s : State) : State :=
  let s := allDoms.foldl (fun s d =>
    if s.prs.dom[d].st == .recovering then modDom d (fun x => { x with st := .quarantined }) s else s) s
  s.modLdg fun l => { l with
    rcvBusy := false, rcvSrc := 0, rcvObj := none, rcvOrder := [], rcvStage := 0, rcvTail := [] }

/-- The agent's own slots run it: RELEASED and not on the golden copy (R333). -/
def agentServes (s : State) : Bool :=
  match s.boot.eff.agentDom with
  | some d => s.prs.dom[d].st == .released
  | none => false

/-- The conditions of a recovery boot (R333). -/
def agentBootOk (s : State) (d : Fin 32) : Bool :=
  s.glb.ready && !s.prs.dom[d].hold.getLsbD 0 && !s.prs.dom[d].hold.getLsbD 1 &&
    (bitsOf (predsOf s d)).all fun e =>
      if h : e < 32 then
        let t := s.prs.dom[e].st
        t == .released || t == .quarantined || t == .recovering
      else true

/-- Drive AGENT_STRAP for a recovery boot, or restore it (R310, R333). -/
def driveStrap (on : Bool) (s : State) : State :=
  let v := s.boot.eff.agentStrap
  if !v.getLsbD 7 then s
  else
    let n := v.toNat % 16
    if h : n < 16 then
      let lvl : PinLevel := if v.getLsbD 4 then .high else .low
      let back : PinLevel :=
        if (s.chp.gpioUse.toList.getD n 0) = 2#8 then (if s.chp.gpioOut.getLsbD n then .high else .low) else .hiz
      s.modPins fun p => { p with gpio := p.gpio.set n (if on then lvl else back) }
    else s

/-- A session opens: event 0xB041, and the wait for a package (R333). -/
def openSession (src : Nat) (o : Fin 64) (s : State) : State :=
  ev 0xB041#16 src o.val 0 (s.modLdg fun l => { l with rcvStage := 0 })

/-- Drive SLV_RDY (R417). -/
def driveRdy (high : Bool) (s : State) : State :=
  match s.chp.slvRdy with
  | some n => s.modPins fun p => { p with gpio := p.gpio.set n (if high then .high else .low) }
  | none => s

/-- Every select is released: its pin is driven high (R407, R417). -/
def selsUp (s : State) : State :=
  s.modPins fun p => { p with gpio := Vector.ofFn fun n => if s.chp.gpioUse[n] = 3#8 then .high else p.gpio[n] }

/-- The Chain Port takes slave mode for source 3, once no master frame runs; else the attempt waits (R417). -/
def toolOpen (o : Fin 64) (s : State) : State :=
  if s.chp.mode = .masterFrame then s.modLdg fun l => { l with rcvStage := 4 }
  else
    let len := ((s.ldg.objs[o].cfg.map (·.len)).getD 0#32).toNat
    let s := s.modLdg fun l => { l with rcvStage := 0 }
    let s := s.modChp fun c => { c with
      mode := .slaveSession, sel := 0#16, slvState := 1#3, slvObj := some o, slvNext := len - 8192, slvTail := 0,
      slvHeld := [], slvCause := 0#8, slvFree := 4 }
    ev 0xF030#16 o.val len 0 (driveRdy false (selsUp s))

/-- The service session ends: SLV_RDY high and the port master again (R417). Its state then shows how it ended. -/
def toolEnd (cause : Nat) (s : State) : State :=
  if s.chp.mode = .slaveSession then
    let o := (s.chp.slvObj.map Fin.val).getD 0
    let s := s.modChp fun c => { c with
      mode := .masterIdle, slvState := if cause = 1 then 5#3 else 6#3, slvObj := none, slvHeld := [], slvTail := 0 }
    ev 0xF031#16 o cause 0 (driveRdy true s)
  else s

/-- An attempt fails (R331, R333); one of source 3 ends its session (R417). -/
def failAttempt (cause : Nat) (s : State) : State :=
  let o := (s.ldg.rcvObj.map Fin.val).getD 0
  let s := if s.ldg.rcvSrc = 3 then toolEnd (if cause = 3 then 3 else 2) s else s
  ev 0xB042#16 s.ldg.rcvSrc o cause (s.modLdg fun l => { l with rcvSrc := 0, rcvStage := 0, rcvTail := [] })

/-- One turn of a recovery (R331): the next object under recovery, or the next source of the one in hand; true where the
recovery goes on at once. -/
def rcvTurn (peer : Fin 64 → State → State) (s : State) : Bool × State :=
  match s.ldg.rcvObj with
  | none =>
    match quarObjs s with
    | [] => (false, endRecovery s)
    | o :: _ => (true, joinRecovery o (s.modLdg fun l => { l with rcvObj := some o, rcvOrder := s.boot.eff.order }))
  | some o =>
    let s := joinRecovery o s
    match s.ldg.rcvOrder with
    | [] =>
      (true, ev 0xB046#16 o.val s.boot.eff.retryMin 0
        (modObj o (fun x => { x with rcvFailed := true }) (s.modLdg fun l => { l with
          rcvObj := none, rcvSrc := 0, retryWait := decide (s.boot.eff.retryMin ≠ 0) })))
    | src :: rest =>
      let s := s.modLdg fun l => { l with rcvSrc := src, rcvOrder := rest, rcvStage := 0, rcvTail := [] }
      if src = 1 then
        if ((s.ldg.objs[o].cfg.map (·.goldOff)).getD 0xFFFFFFFF#32) == 0xFFFFFFFF#32 then (true, failAttempt 1 s)
        else (false, s)
      else if src = 2 then
        match s.boot.eff.agentDom with
        | none => (true, failAttempt 1 s)
        | some _ => (false, if agentServes s then openSession 2 o s else s.modLdg fun l => { l with rcvStage := 2 })
      else if src = 3 then
        if s.boot.eff.slvSel.isNone || s.boot.eff.slvRdy.isNone then (true, failAttempt 1 s)
        else (false, toolOpen o (openSession 3 o s))
      else if decide (s.boot.eff.role = 0) || !s.att.joined then (true, failAttempt 1 s)
      else (false, peer o (openSession 4 o s))

/-- The next object or the next source of the order is taken up (R331 to R334); `peer` sends the request of source 4. -/
def rcvNext (peer : Fin 64 → State → State) : Nat → State → State
  | 0, s => s
  | fuel + 1, s => if (rcvTurn peer s).1 then rcvNext peer fuel (rcvTurn peer s).2 else (rcvTurn peer s).2

/-- The bound on one run of `rcvNext`: every object with every source, and the turns between. -/
def rcvFuel : Nat := 520

/-- Recovery starts (R331). -/
def startRecovery (peer : Fin 64 → State → State) (s : State) : State :=
  match quarObjs s with
  | [] => s
  | os =>
    if s.ldg.rcvBusy then s
    else
      let m : Nat := os.foldl (fun m o => m + 2 ^ o.val) 0
      let s := s.modLdg fun l => { l with rcvBusy := true, rcvObj := none, rcvOrder := [], rcvSrc := 0 }
      rcvNext peer rcvFuel (ev 0xB040#16 (m % 2 ^ 32) (m / 2 ^ 32) 0 s)

/-- The domains settle: those that may verify do, those that may be released are, and a quarantine starts recovery. -/
def settleWith (peer : Fin 64 → State → State) (s : State) : State :=
  let s := iterN settleRound 34 s
  if s.ldg.rcvBusy then s else iterN settleRound 2 (startRecovery peer s)

/-- The sweep (R327): a slot whose latest record is WRITTEN and that has no open redirection is erased and retired. -/
def sweep (s : State) : State :=
  allObjs.foldl (fun s o =>
    [false, true].foldl (fun s b =>
      let x := s.ldg.objs[o]
      if x.cfg.isSome && latestSt s o.val b = 1 && !(x.redir && stagingB s o == b) then
        let s := (ledRestate o b 4 (some 7) (eraseSlot o b s)).2
        ev 0xB028#16 o.val (if b then 1 else 0) 0 s
      else s) s) s

/-- ERASE ends a recovery (R331): its objects have failed the order until it runs again (R334). -/
def eraseEnds (s : State) : State :=
  let os := quarObjs s
  endRecovery (os.foldl (fun s o => modObj o (fun x => { x with rcvFailed := true }) s) (toolEnd 4 s))

/-- VFLASH_OUT turns off: every channel is SEALED, and every domain that owns a channel is held (R281, R308). -/
def vflashDown (s : State) : State :=
  let m := unsealedMask s
  let owners := allDoms.filter fun d => !(ownChannels s d).isEmpty
  let s := s.modPwr fun p => { p with vflashOn := false }
  let s := sealAll s
  let s := (List.finRange 16).foldl (fun s c => setWp c false s) s
  let s := if m = 0 then s else ev 0xA032#16 m.toNat 0 0 s
  owners.foldl (fun s d => hold d 6 s) s

/-- VFLASH_OUT turns on, unless it is off after a repeated trip (R44): F_WP# low, every present channel enters VERIFYING,
and RAIL ends (R280, R281, R300, R301, R308). -/
def vflashUp (s : State) : State :=
  if s.pwr.vflashFault then s.modPwr fun p => { p with vfEn := true }
  else
  let s := s.modPwr fun p => { p with vflashOn := true, vfEn := true }
  let s := s.modPins fun p => { p with flPwr := p.flPwr ||| s.sdl.present, deepPd := false }
  let s := (List.finRange 16).foldl (fun s c => chVerify c (setWp c false s)) s
  allDoms.foldl (fun s d => unhold d 6 s) s

end Sys2Proof.Machine
end

