-- ==== Sys2Proof/Machine/Fedop.lean ====
section
/-! DEFINITION. Ifeosh relay frames: their layout, their sending by the host ring or to a peer's inbox (R369 to R373), and
the settling of the domains with source 4's request (R379). -/

namespace Sys2Proof.Machine

/-- Pad with zeros to a multiple of eight bytes. -/
def pad8 (b : Bytes) : Bytes := b ++ List.replicate ((8 - b.length % 8) % 8) 0#8

/-- A frame without its MAC (R369). -/
def frameBody (typ : Nat) (src dst : BitVec 16) (epoch : BitVec 32) (seq : BitVec 64) (payload : Bytes) : Bytes :=
  let p := pad8 payload
  leBytes 4 0x4946534B ++ [1#8, BitVec.ofNat 8 typ, 0#8, 0#8] ++ leBytes 2 src.toNat ++ leBytes 2 dst.toNat ++
    leBytes 4 epoch.toNat ++ leBytes 8 seq.toNat ++ leBytes 4 (64 + p.length) ++ leBytes 4 0 ++ p

/-- The MAC of a frame (R369). -/
def frameMac (lk body : Bytes) : Bytes := kmac256 lk body 32 (ascii "KS2416 IFEOSH")

/-- The transmit ring is full (R373, R241). -/
def txFull (s : State) : Bool := (s.att.txTail + 1) % 2 ^ s.att.txK = s.att.txHead

/-- Write a frame into the transmit ring (R373). -/
def txWrite (dst : BitVec 16) (f : Bytes) (s : State) : State :=
  let at_ : BitVec 64 := s.att.txAddr + BitVec.ofNat 64 (16384 * s.att.txTail)
  let s := hostWrite 0 at_ f s
  let s := hostWrite 0 (at_ + 16383#64) [if s.att.txPhase then 1#8 else 0#8] s
  let t := (s.att.txTail + 1) % 2 ^ s.att.txK
  let s := s.modAtt fun a => { a with txTail := t, txPhase := if t = 0 then !a.txPhase else a.txPhase }
  chargeDma 3 true (f.length + 1) (emit (.linkFrame dst f) s)

/-- A frame goes to the host ring, waits for it, or is dropped (R373). -/
def txRing (dst : BitVec 16) (f : Bytes) (s : State) : State :=
  if s.att.txEn && s.att.waiting.isEmpty && !txFull s then txWrite dst f s
  else if s.att.waiting.length < 16 then s.modAtt fun a => { a with waiting := a.waiting ++ [(dst, f)] }
  else ev 0xD021#16 1 0 0 s

/-- The frames that wait are written while the ring takes them. -/
def txDrain : Nat → State → State
  | 0, s => s
  | n + 1, s =>
    match s.att.waiting with
    | (d, f) :: t =>
      if s.att.txEn && !txFull s then txDrain n (txWrite d f (s.modAtt fun a => { a with waiting := t })) else s
    | [] => s

/-- Send a frame to a neighbour: by the peer route or the host ring; a standalone device sends none (R367, R373). -/
def sendFrame (dst : BitVec 16) (f : Bytes) (s : State) : State :=
  if s.att.role = 0 then s
  else if s.boot.eff.peerTx && s.boot.eff.routes.any (fun r => r.mem == dst) then
    s.modAtt fun a => { a with peerWait := a.peerWait ++ [(dst, f)] }
  else txRing dst f s

/-- Send an unauthenticated frame (R370). -/
def sendPlain (typ : Nat) (dst : BitVec 16) (payload : Bytes) (s : State) : State :=
  sendFrame dst (frameBody typ s.boot.eff.member dst 0#32 0#64 payload ++ List.replicate 32 0#8) s

/-- Send an authenticated frame on a link, under its next SEQ (R372); the link with its SEQ risen. -/
def sendOn (typ : Nat) (l : Link) (payload : Bytes) (s : State) : Link × State :=
  let l := { l with txSeq := l.txSeq + 1 }
  let b := frameBody typ s.boot.eff.member l.mem l.epoch l.txSeq payload
  (l, sendFrame l.mem (b ++ frameMac l.lk b) s)

/-- Send an authenticated frame to the parent. -/
def sendUp (typ : Nat) (payload : Bytes) (s : State) : State :=
  match s.att.up with
  | some l => let (l, s) := sendOn typ l payload s; s.modAtt fun a => { a with up := some l }
  | none => s

/-- Send an authenticated frame to a joined child. -/
def sendDown (typ : Nat) (m : BitVec 16) (payload : Bytes) (s : State) : State :=
  match s.att.children.find? fun l => l.mem == m with
  | some l =>
    let (l, s) := sendOn typ l payload s
    s.modAtt fun a => { a with children := a.children.map fun x => if x.mem == m then l else x }
  | none => s

/-- Source 4 asks the parent for the object (R370, R379). -/
def askPeer (o : Fin 64) (s : State) : State :=
  let len := ((s.ldg.objs[o].cfg.map (·.len)).getD 0#32).toNat
  let s := sendUp 7 ([BitVec.ofNat 8 o.val, 0#8] ++ leBytes 2 (ledFloor s o.val) ++ leBytes 4 len) s
  s.modAtt fun a => { a with rcvNext := some (len - 8192) }

/-- The domains settle (R307, R316, R331). -/
def settle (s : State) : State := settleWith askPeer s

/-- The recovery's next attempt, and the domains settle. -/
def nextAttempt (s : State) : State := settle (recovered (rcvNext askPeer rcvFuel s))

/-- JOIN_HELLO to the parent, at most once in 10 s (R371). -/
def sendHello (s : State) : State :=
  let now := s.tbs.tick.toNat
  let root := s.boot.eff.parent == s.boot.eff.member
  let due := match s.att.helloTick with
    | some t => decide (now ≥ t + 250000000)
    | none => true
  if s.att.role = 0 || root || !due then s
  else sendPlain 1 s.boot.eff.parent [] (s.modAtt fun a => { a with helloTick := some now })

/-- Every link of the federation tree ends, with the vault (R371). -/
def endLinks (s : State) : State := s.modAtt fun a => { a with up := none, children := [], joined := false, challenge := [] }

end Sys2Proof.Machine
end

