-- ==== Sys2Proof/Machine/Vaultop.lean ====
section
/-! DEFINITION. The key vault's operations (chapter 13): slots and their masks, derivation, the KEK, replacement through the
shadows, image copies and their restore, zeroisation, and the checks of a key update message. -/

namespace Sys2Proof.Machine

/-- XOR of two byte strings. -/
def xorBytes (a b : Bytes) : Bytes := (a.zip b).map fun p => p.1 ^^^ p.2

/-- A slot of the vault. -/
def slotAt (s : State) (n : Nat) : Slot := (assocGet s.kvt.slots n).getD {}

/-- The key in a slot, unmasked (R355). -/
def slotKey (x : Slot) : Bytes := xorBytes x.stored x.mask

/-- The slot holds no key. -/
def slotEmpty (s : State) (n : Nat) : Bool := (slotAt s n).ktype = 0

/-- Fields of an attribute word (R338). -/
def attrDest (a : BitVec 32) : BitVec 16 := a.setWidth 16
/-- USAGE. -/
def attrUse (a : BitVec 32) : BitVec 6 := BitVec.ofNat 6 (a.toNat / 2 ^ 16)
/-- LIFE is persistent. -/
def attrPers (a : BitVec 32) : Bool := a.getLsbD 22
/-- ORIGIN. -/
def attrOrigin (a : BitVec 32) : Nat := a.toNat / 2 ^ 23 % 4
/-- MINLC. -/
def attrMinLc (a : BitVec 32) : Nat := a.toNat / 2 ^ 25 % 8
/-- An attribute word with its ORIGIN set. -/
def attrWith (a : BitVec 32) (origin : Nat) : BitVec 32 := (a &&& 0xFE7FFFFF#32) ||| BitVec.ofNat 32 (origin * 2 ^ 23)

/-- The uses a key type permits (R339). -/
def useMask (kt : Nat) : BitVec 6 :=
  match kt with
  | 1 => 0x38#6
  | 2 | 3 | 4 | 5 | 6 => 0x01#6
  | 7 | 8 => 0x04#6
  | 9 => 0x02#6
  | _ => 0#6

/-- The key lengths of a type (R339). -/
def klenOk (kt n : Nat) : Bool :=
  match kt with
  | 1 => decide (16 ≤ n ∧ n ≤ 64)
  | 2 => n = 2560 | 3 => n = 4032 | 4 => n = 4896 | 5 => n = 32 | 6 => n = 48 | 7 => n = 2400 | 8 => n = 3168
  | 9 => decide (1 ≤ n ∧ n ≤ 2592)
  | _ => false

/-- An attribute word with ORIGIN zero that a key of this type and length may carry (R338, R339). -/
def attrOk (a : BitVec 32) (kt n : Nat) : Bool :=
  decide ((attrDest a).toNat < 2 ^ 13) && attrOrigin a = 0 && decide (attrMinLc a ≤ 3) && decide (a.toNat < 2 ^ 28) &&
    (attrUse a &&& ~~~(useMask kt)) == 0#6 && klenOk kt n && (!(attrUse a).getLsbD 3 || n = 32)

/-- Restricted window (R347). -/
def restricted (s : State) : Bool :=
  !s.glb.ready || s.glb.lc = 1 || s.glb.lc = 3 || s.ldg.rcvBusy || allDoms.any fun d => s.prs.dom[d].golden

/-- Bytes of an image entry (R351). -/
def entryLen (n : Nat) : Nat := 16 + (n + 7) / 8 * 8

/-- The bytes of every persistent slot's entry but one's. -/
def persistBytes (s : State) (but : Nat) : Nat :=
  s.kvt.slots.foldl (fun t e => if e.1 ≠ but && attrPers e.2.attr && e.2.ktype ≠ 0 then t + entryLen e.2.stored.length else t) 0

/-- A slot that may be claimed or replaced for a function: 0, or the reason 1 or 2 (R340, R358). -/
def slotOwn (s : State) (n f : Nat) : Nat :=
  if n < 16 then 2
  else if !slotEmpty s n then (if (slotAt s n).owner = f then 0 else 2)
  else if h : f < 16 then
    if s.kvt.en.getLsbD f && decide ((s.kvt.first[f]).toNat ≤ n) && decide (n ≤ (s.kvt.last[f]).toNat) then 0 else 1
  else 2

/-- Step 1 of R346 for a slot, whatever path: 0, or the reason 3, 4 or 5 (R339, R347, R351). -/
def slotFit (s : State) (n : Nat) (a : BitVec 32) (kt len : Nat) (message : Bool) : Nat :=
  let pers := attrPers a || (attrPers (slotAt s n).attr && !slotEmpty s n)
  if !attrOk a kt len then 4
  else if pers && !message && restricted s then 3
  else if attrPers a && (!recFlash s || decide (persistBytes s n + entryLen len > 524208)) then 5
  else 0

/-- Step 1 of R346 for a function: 0, or the first reason of R358. -/
def slotRefusal (s : State) (n f : Nat) (a : BitVec 32) (kt len : Nat) (message : Bool) : Nat :=
  let own := if message then 0 else slotOwn s n f
  if own ≠ 0 then own else slotFit s n a kt len message

/-- Write a slot whole, under a fresh mask (R355). -/
def putSlot (n : Nat) (kt : Nat) (a : BitVec 32) (owner ver : Nat) (key : Bytes) (s : State) : State :=
  let (m, s) := drawRandom key.length s
  let x : Slot := { ktype := kt, attr := a, owner := owner, version := ver, stored := xorBytes key m, mask := m }
  s.modKvt fun k => { k with slots := assocPut k.slots n x }

/-- A running job stops at its next slice points, its key being gone: KEY_REFUSED with reason 1 (R265, R271). -/
def stopKeyed (v : BitVec 32) (j : Job) : Job :=
  { j with ph := .stopping, status := 0x20#8, result := (v &&& 0x7FFF00FF#32) ||| 0x100#32 }

/-- The running jobs that a condition names stop (R265). The other fields of their trap word are not in the spec: a free
value. -/
def stopKeyJobs (p : Job → Bool) (s : State) : State :=
  let hit (j : Job) : Bool := j.ph == .running && p j
  if s.job.jobs.any hit then
    let (v, s) := drawFree 32 s
    s.modJob fun b => { b with jobs := b.jobs.map fun j => if hit j then stopKeyed v j else j }
  else s

/-- A job whose key result was abandoned stops with SLOT_REFUSED (R346). -/
def stopUnstored (j : Job) : Job := { j with ph := .stopping, status := 0x21#8, result := j.d.dstSlot.setWidth 32 }

/-- Replacements under way are abandoned (R346, R354): their shadows are zeroised, a command ends with RESULT 2, a job with
SLOT_REFUSED. -/
def dropShadows (p : Shadow → Bool) (s : State) : State :=
  let gone := s.kvt.shadows.filter p
  let lost (j : Job) : Bool := j.ph == .keyWait && gone.any fun x => !x.holdsOld && x.job == some j.id
  let s := s.modJob fun b => { b with jobs := b.jobs.map fun j => if lost j then stopUnstored j else j }
  let cmd := gone.any fun x => x.cmd && !x.holdsOld
  s.modKvt fun k => { k with
    shadows := k.shadows.filter fun x => !p x, busy := k.busy && !cmd, result := if cmd then 2#4 else k.result }

/-- A slot is zeroised, with the replacement under way for it (R346, R354), and the jobs that use it stop (R265). -/
def zeroSlot (n : Nat) (src : Nat) (s : State) : State :=
  let pers := attrPers (slotAt s n).attr
  let s := stopKeyJobs (fun j => j.d.keySlot.toNat = n || (assocGet j.keyVer n).isSome) s
  let s := dropShadows (fun x => x.slot.val = n) s
  ev 0xC013#16 n src 0 (s.modKvt fun k => { k with slots := assocDel k.slots n, imgPend := k.imgPend || pers })

/-- Full zeroisation (R354). The federation's links and the IDE streams keyed from the vault end with it (R371, R244). The
cause's coding is not in the spec: a free value. -/
def zeroVault (s : State) : State :=
  let s := stopKeyJobs (fun j => decide (j.d.keySlot.toNat < 256) || j.d.op = 0x0A#8 || !j.keyVer.isEmpty) s
  let s := dropShadows (fun _ => true) s
  let s := s.modKvt fun k => { k with
    slots := [], ident := false, restored := false, imgOk := false, sk0 := 0#256, sk := 0#256, idh := 0#384, aliasH := 0#384,
    imgPend := false }
  let s := endLinks s
  let s := s.modAtt fun a => { a with endorsed := false }
  let s := s.modHlk fun h => { h with ide := Vector.replicate 9 {} }
  let (v, s) := drawFree 32 s
  raise 0xC014#16 v 0#32 0#32 s

/-- A new KEK is drawn (R350). -/
def drawKek (cause : Nat) (s : State) : State :=
  let (b, s) := drawRandom 32 s
  let s := s.modAon fun a => { a with kek := BitVec.ofNat 256 (leNat b), kekValid := true }
  ev 0xC004#16 cause 0 0 (s.modKvt fun k => { k with wipePend := false, kekNew := true })

/-- SK from SK0 and the KEK (R343). -/
def deriveSk (s : State) : State :=
  s.modKvt fun k => { k with
    sk := BitVec.ofNat 256 (leNat (kmac256 (leBytes 32 k.sk0.toNat) (leBytes 32 s.aon.kek.toNat) 32 (ascii "KS2416 SEAL-K"))) }

/-- The order n of the group of P-384. -/
def p384n : Nat :=
  0xFFFFFFFFFFFFFFFFFFFFFFFFFFFFFFFFFFFFFFFFFFFFFFFFC7634D81F4372DDF581A0DB248B0A77AECEC196ACCC52973

/-- A P-384 scalar from 448 bits (R343). -/
def p384d (c : Bytes) : Bytes := beBytes 48 (beNat c % (p384n - 1) + 1)

/-- The 1,024 bytes of PATCH words 0 to 255 as loaded (R343). -/
def patchBytes (s : State) : Bytes := (List.range 256).flatMap fun i => leBytes 4 (shadowW s (0x380 + i)).toNat

/-- M0 (R343). -/
def m0 (s : State) : Bytes :=
  sha3_384 (Config.romDigest ++ patchBytes s ++ [BitVec.ofNat 8 s.glb.lc.toNat, 1#8, 0#8])

/-- The attribute word of a derived device slot (R341). -/
def devAttr (dest use lc : Nat) : BitVec 32 := BitVec.ofNat 32 (dest + use * 2 ^ 16 + lc * 2 ^ 25)

/-- An aggregator draws the federation master secret into slot 6 (R362, R371), again with the device slots after a
zeroisation (R354); its MINLC is that of the device slots (R341). -/
def drawFms (lc : Nat) (s : State) : State :=
  if s.att.role ≠ 2 then s
  else
    let (b, s) := drawRandom 32 s
    putSlot 6 1 (attrWith (devAttr 1 16 lc) 1) 16 1 b s

/-- Derive the identity layers (R341, R343, R344) and the endorsement (R361). Without a root nothing is derived (R342). -/
def derive (s : State) : State :=
  match rootRegion s.glb.lc.toNat with
  | none => s
  | some r =>
    let lc := s.glb.lc.toNat
    let e : Bytes := []
    let cdi0 := kmac256 (rootSecret s.fus r) (m0 s) 64 (ascii "KS2416 CDI0")
    let clamped : Byte := if s.boot.clamps = 0 then 0#8 else 1#8
    let cdi1 := kmac256 cdi0 (leBytes 48 s.boot.meas.toNat ++ [clamped]) 64 (ascii "KS2416 CDI1")
    let dMl := Config.keyGen 3 (kmac256 cdi0 e 32 (ascii "KS2416 DEVID MLDSA"))
    let dEc := p384d (kmac256 cdi0 e 56 (ascii "KS2416 DEVID P384"))
    let imp := Config.keyGen 8 (kmac256 cdi0 e 64 (ascii "KS2416 IMPORT MLKEM"))
    let aMl := Config.keyGen 3 (kmac256 cdi1 e 32 (ascii "KS2416 ALIAS MLDSA"))
    let aEc := p384d (kmac256 cdi1 e 56 (ascii "KS2416 ALIAS P384"))
    let sk0 := kmac256 cdi0 e 32 (ascii "KS2416 SEAL")
    let idh := sha3_384 (Config.pubOf 3 dMl ++ Config.pubOf 6 dEc)
    let ah := sha3_384 (Config.pubOf 3 aMl ++ Config.pubOf 6 aEc)
    let s := putSlot 0 3 (devAttr 1 1 lc) 16 1 dMl s
    let s := putSlot 1 6 (devAttr 1 1 lc) 16 1 dEc s
    let s := putSlot 2 3 (devAttr 0xFF 1 lc) 16 1 aMl s
    let s := putSlot 3 6 (devAttr 0x8FF 1 lc) 16 1 aEc s
    let s := putSlot 4 8 (devAttr 1 4 lc) 16 1 imp s
    let s := s.modKvt fun k => { k with
      ident := true, idh := BitVec.ofNat 384 (leNat idh), aliasH := BitVec.ofNat 384 (leNat ah),
      sk0 := BitVec.ofNat 256 (leNat sk0), lcAt := lc }
    let s := ev 0xC001#16 lc (leAt idh 0 4) 0 (deriveSk s)
    let s := s.modAtt fun a => { a with endorsed := true, endDraw := s.out.rng }
    let s := s.modOut fun o => { o with rng := o.rng + 96 }
    drawFms lc (ev 0xD001#16 (leAt ah 0 4) 0 0 s)

/-- The KEK of a start: drawn where its flag is clear or no cell is there (R350). The message counter is the highest of
the always-on copy and the mirrors (R349). -/
def startKek (s : State) : State :=
  let s := s.modKvt fun k => { k with kekNew := false }
  let s := if !s.aon.kekValid then drawKek 1 s else if !s.pwr.batPresent then drawKek 2 s else s
  let up (c : Option VImage) (n : Nat) : Nat := match c with
    | some i => if i.crcOk then max n i.mirror.toNat else n
    | none => n
  s.modAon fun a => { a with msgCtr := BitVec.ofNat 64 (up s.nv.img0 (up s.nv.img1 a.msgCtr.toNat)) }

/-- KID of the image (R351). -/
def kidOf (s : State) : BitVec 128 :=
  BitVec.ofNat 128 (leNat (kmac256 (leBytes 32 s.kvt.sk.toNat) [] 16 (ascii "KS2416 KID")))

/-- An image copy is valid (R353). -/
def imgValid (s : State) (i : VImage) : Bool :=
  i.valid && i.crcOk && i.kid == kidOf s && i.tagOk && decide (i.mirror.toNat ≥ s.aon.msgCtr.toNat)

/-- Restore the persistent slots (R353). -/
def restore (s : State) : State :=
  let c (o : Option VImage) (n : Nat) := (o.map fun i => [(n, i)]).getD []
  let all := if recFlash s then c s.nv.img0 0 ++ c s.nv.img1 1 else []
  let ok := all.filter fun p => imgValid s p.2
  let best (l : List (Nat × VImage)) : Option (Nat × VImage) := l.foldl (fun b p => match b with
    | none => some p
    | some q => if p.2.gen.toNat > q.2.gen.toNat then some p else some q) none
  match best ok with
  | some (n, i) =>
    let s := i.entries.foldl (fun s e => putSlot e.slot.val e.ktype e.attr e.owner e.version e.key s) s
    ev 0xC002#16 n i.gen.toNat i.entries.length (s.modKvt fun k => { k with restored := true, imgOk := true })
  | none =>
    let cause := if !recFlash s then 4 else match best (all.filter fun p => p.2.valid && p.2.crcOk) with
      | none => 2
      | some (_, i) =>
        if i.kid != kidOf s then (if s.kvt.kekNew then 1 else 5)
        else if !i.tagOk then 2 else 3
    ev 0xC003#16 cause 0 0 (s.modKvt fun k => { k with restored := true, imgOk := false })

/-- A shadow's replacement has begun: one of the first eight, and the first for its slot (R346). -/
def shadowBegun (l : List Shadow) (i : Nat) : Bool :=
  match l[i]? with
  | none => false
  | some x => decide (i < 8) && !x.holdsOld && (l.take i).all fun y => y.slot ≠ x.slot || y.holdsOld

/-- The public key of a key (R358); a slot of KTYPE 9 holds it itself. -/
def publicOf (kt : Nat) (key : Bytes) : Bytes := if kt = 9 then key else Config.pubOf kt key

/-- PF0 host software can be written to (R225, R236). -/
def hostOpen (s : State) : Bool := s.hlk.fns[0].bme && !s.hlk.fns[0].d3

/-- A public key goes to KVT_ADDR (R358): RESULT 0, or 5 where the DMA fails. -/
def writePub (kt : Nat) (key : Bytes) (ok : Bool) (s : State) : State :=
  if ok && hostOpen s then
    let b := publicOf kt key
    chargeDma 2 true b.length (hostWrite 0 s.kvt.addr b (s.modKvt fun k => { k with result := 0#4 }))
  else s.modKvt fun k => { k with result := 5#4 }

/-- Step 5 of R346: shadow and slot are swapped; the shadow keeps the old key while a job that loaded it runs. -/
def swapShadow (i : Nat) (x : Shadow) (s : State) : State :=
  let n := x.slot.val
  let o := slotAt s n
  let key := xorBytes x.key x.mask
  let inUse := o.ktype ≠ 0 && s.job.jobs.any fun j => (n, slotKey o) ∈ j.keyVer
  let s := putSlot n x.ktype x.attr x.owner (o.version + 1) key s
  let s := s.modKvt fun k => { k with
    shadows := if inUse then
        k.shadows.set i { x with holdsOld := true, old := o.stored, mask := o.mask, waitImage := false, key := [] }
      else k.shadows.eraseIdx i }
  let s := ev 0xC010#16 n (o.version + 1) (attrOrigin x.attr) s
  if x.cmd then
    let s := s.modKvt fun k => { k with busy := false, result := 0#4, sub := 0#4 }
    if x.pub = 0 then s else writePub x.ktype key (x.pub = 1) s
  else s

/-- Every replacement that can finish without an image write does; the jobs whose key result swapped (R346). -/
def kvtAdvance : Nat → State → State × List (Nat × Bool)
  | 0, s => (s, [])
  | fuel + 1, s =>
    match (List.range s.kvt.shadows.length).find? fun i =>
        shadowBegun s.kvt.shadows i && !((s.kvt.shadows[i]?).getD {}).waitImage with
    | none => (s, [])
    | some i =>
      let x := (s.kvt.shadows[i]?).getD {}
      let (t, l) := kvtAdvance fuel (swapShadow i x s)
      (t, (x.job.map fun j => [(j, true)]).getD [] ++ l)

/-- A replacement that passed step 1 joins the shadows (R346). -/
def beginReplace (n : Fin 256) (kt : Nat) (a : BitVec 32) (owner : Nat) (key : Bytes) (cmd : Bool) (pub : Nat)
    (jobId : Option Nat) (s : State) : State × List (Nat × Bool) :=
  let (m, s) := drawRandom key.length s
  let x : Shadow := { slot := n, key := xorBytes key m, mask := m, ktype := kt, attr := a, owner := owner, waitImage := attrPers a,
                      cmd := cmd, pub := pub, job := jobId }
  let s := s.modKvt fun k => { k with shadows := k.shadows ++ [x] }
  kvtAdvance (s.kvt.shadows.length + 1) s

/-- The old keys of ended jobs are zeroised and their shadows freed (R265, R346). -/
def freeShadows (s : State) : State :=
  s.modKvt fun k => { k with
    shadows := k.shadows.filter fun x => !x.holdsOld || s.job.jobs.any fun j =>
      (x.slot.val, xorBytes x.old x.mask) ∈ j.keyVer }

/-- The entries of an image: the persistent slots in ascending order (R351). -/
def imageEntries (s : State) : List VEntry :=
  s.kvt.slots.filterMap fun e =>
    if attrPers e.2.attr && e.2.ktype ≠ 0 then
      (if h : e.1 < 256 then some { slot := ⟨e.1, h⟩, ktype := e.2.ktype, owner := e.2.owner, attr := e.2.attr,
                                    version := e.2.version, key := slotKey e.2 } else none)
    else none

/-- The copy that the next image write takes: the one that is not current, by GEN (R352), and its GEN (R351, R353). -/
def nextCopy (s : State) : Nat × BitVec 32 :=
  match s.nv.img0, s.nv.img1 with
  | none, none => (0, 1#32)
  | some a, none => (1, a.gen + 1)
  | none, some b => (0, b.gen + 1)
  | some a, some b => if a.gen.toNat > b.gen.toNat then (1, a.gen + 1) else (0, b.gen + 1)

/-- A new image copy becomes current (R351, R352). -/
def writeImage (es : List VEntry) (s : State) : State :=
  let (c, gen) := nextCopy s
  let len := es.foldl (fun t e => t + entryLen e.key.length) 0 + 16
  let i : VImage := { gen := gen, mirror := s.aon.msgCtr, kid := kidOf s, valid := true, entries := es }
  let s := s.modNv fun n => if c = 0 then { n with img0 := some i } else { n with img1 := some i }
  ev 0xC040#16 c gen.toNat len (s.modKvt fun k => { k with imgOk := true })

/-- The bytes of the device identity hash. -/
def idhBytes (s : State) : Bytes := leBytes 48 s.kvt.idh.toNat

/-- The payload of a key update message. -/
def kumPayload (m : Bytes) : Bytes := slice m 128 (leAt m 64 4)

/-- The key that a type 1 payload imports: key and whether its tag verifies (R348). -/
def kumKey (s : State) (m : Bytes) : Option Bytes :=
  let p := kumPayload m
  let klen := leAt p 8 2
  let ss := Config.kemDecaps (slotKey (slotAt s 4)) (slice p 16 1568)
  let k := kmac256 ss (m.take 64) 32 (ascii "KS2416 IMPORT")
  let iv := slice m 8 8 ++ [0#8, 0#8, 0#8, 0#8]
  let ct := slice p 1584 klen
  if gcmTag k iv (p.take 16) ct == slice p (1584 + klen) 16 then some (gcmStream k iv ct) else none

/-- The payload obeys its TYPE (R348); type 3's own layout is judged by R137. -/
def kumPayloadOk (s : State) (m : Bytes) : Bool :=
  let p := kumPayload m
  match leAt m 6 1 with
  | 1 =>
    let klen := leAt p 8 2
    p.length = 1584 + klen + 16 && decide (16 ≤ leAt p 0 1) && decide (leAt p 1 1 ≤ 15) && leAt p 3 1 = 0 &&
      (slice p 10 6).all (· == 0#8) && attrOk (BitVec.ofNat 32 (leAt p 4 4)) (leAt p 2 1) klen && (kumKey s m).isSome
  | 2 => p.length = 32 && (p.take 2).all (· == 0#8)
  | 3 => true
  | _ => p.length = 8 && decide (1 ≤ leAt p 0 1 ∧ leAt p 0 1 ≤ 4) && (p.drop 1).all (· == 0#8)

/-- The checks of a key update message in their order: 0, or the code of the first that fails (R348). `types` are those
of the path that submitted it. -/
def kumCheck (types : List Nat) (m : Bytes) (s : State) : Nat :=
  let plen := leAt m 64 4
  let padded := (plen + 7) / 8 * 8
  let zero (a n : Nat) : Bool := (slice m a n).all (· == 0#8)
  let typ := leAt m 6 1
  let kb := slice m (128 + padded) 2056
  let sb := slice m (128 + padded + 2056) 3408
  let signed := m.take (128 + padded + 2056)
  if !(m.length = 128 + padded + 2056 + 3408 && leAt m 0 4 = 0x4D554B53 && leAt m 4 2 = 1 &&
      decide (1 ≤ typ ∧ typ ≤ 4) && zero 7 1 && zero 68 60 && zero (128 + plen) (padded - plen)) then 1
  else if slice m 16 48 != idhBytes s || !s.kvt.ident then 2
  else if decide (leAt m 8 8 ≤ s.aon.msgCtr.toNat) then 3
  else match hybridCheck s kb sb (ascii "KS-2416 key update") signed with
    | 2 => 4
    | 3 => 5
    | 4 => 6
    | _ =>
      if !kumPayloadOk s m then 7
      else if !(typ ∈ types) then 8
      else 0

/-- The owner slot whose key signed a message (R348, event 0xC020). -/
def kumOwner (m : Bytes) (s : State) : Nat :=
  let padded := (leAt m 64 4 + 7) / 8 * 8
  (keyOwner s (slice m (128 + padded) 2056)).getD 0

/-- A message is accepted: the counter advances and an image write that carries it is owed (R349). -/
def kumAccept (m : Bytes) (slot : Nat) (s : State) : State :=
  let ctr := leAt m 8 8
  let s := s.modAon fun a => { a with msgCtr := BitVec.ofNat 64 ctr }
  ev 0xC020#16 (leAt m 6 1) (ctr % 2 ^ 32) slot (s.modKvt fun k => { k with imgPend := true })

/-- A message is refused (R348). -/
def kumRefuse (m : Bytes) (code : Nat) (s : State) : State := ev 0xC021#16 (leAt m 6 1) code 0 s

end Sys2Proof.Machine
end

