-- ==== Sys2Proof/Machine/Token.lean ====
section
/-! DEFINITION. Measurements and evidence tokens (chapter 14, R360 to R364): deterministic CBOR, the hybrid token of two
nested COSE_Sign1 structures, and the claims. -/

namespace Sys2Proof.Machine

/-- The head of a CBOR item: major type and argument in its shortest form (R363). -/
def cborHead (major n : Nat) : Bytes :=
  let m := major * 32
  if n < 24 then [BitVec.ofNat 8 (m + n)]
  else if n < 2 ^ 8 then BitVec.ofNat 8 (m + 24) :: beBytes 1 n
  else if n < 2 ^ 16 then BitVec.ofNat 8 (m + 25) :: beBytes 2 n
  else if n < 2 ^ 32 then BitVec.ofNat 8 (m + 26) :: beBytes 4 n
  else BitVec.ofNat 8 (m + 27) :: beBytes 8 n

/-- An integer. -/
def cborInt (z : Int) : Bytes := if 0 ≤ z then cborHead 0 z.toNat else cborHead 1 (-1 - z).toNat

/-- A byte string. -/
def cborBytes (b : Bytes) : Bytes := cborHead 2 b.length ++ b

/-- A text string of ASCII. -/
def cborText (t : String) : Bytes := cborHead 3 (ascii t).length ++ ascii t

/-- An array of encoded items. -/
def cborArr (l : List Bytes) : Bytes := cborHead 4 l.length ++ l.flatten

/-- A map of encoded values under integer keys, given in the canonical order (R363). -/
def cborMap (l : List (Int × Bytes)) : Bytes := cborHead 5 l.length ++ l.flatMap fun p => cborInt p.1 ++ p.2

/-- true or false. -/
def cborBool (b : Bool) : Bytes := [if b then 0xF5#8 else 0xF4#8]

/-- A signature under a slot's key, drawing from the random bit generator (R267). -/
def signSlot (alg slot : Nat) (ctx msg : Bytes) (s : State) : Bytes × State :=
  (Config.sigSign alg (slotKey (slotAt s slot)) ctx msg s.out.rng, s.modOut fun o => { o with rng := o.rng + 48 })

/-- A COSE_Sign1 structure of a payload: tag 18, the protected header with its algorithm and kid, and the signature over
the Sig_structure with an empty external AAD (R363). -/
def coseSign1 (alg : Int) (kid payload : Bytes) (sign : Bytes → State → Bytes × State) (s : State) : Bytes × State :=
  let hdr := cborMap [(1, cborInt alg), (4, cborBytes kid)]
  let (sig, s) := sign (cborArr [cborText "Signature1", cborBytes hdr, cborBytes [], cborBytes payload]) s
  (cborHead 6 18 ++ cborArr [cborBytes hdr, cborMap [], cborBytes payload, cborBytes sig], s)

/-- A hybrid token: ML-DSA-65 inside, ECDSA P-384 outside, under two slots (R363). -/
def hybridToken (ml ec : Nat) (kid ctx payload : Bytes) (s : State) : Bytes × State :=
  let (inner, s) := coseSign1 (-70065) kid payload (signSlot 0 ml ctx) s
  coseSign1 (-35) kid inner (signSlot 1 ec []) s

/-- The bytes of a 48-byte measurement. -/
def measBytes (m : BitVec 384) : Bytes := leBytes 48 m.toNat

/-- Measurement 2 (R360). -/
def meas2 (s : State) : Bytes := sha3_384 (patchBytes s)

/-- The owner digest over the usable OWN slots (R360). -/
def ownerDigest (s : State) : Bytes :=
  sha3_384 (((List.range 4).filter (ownUsable s)).flatMap fun k => BitVec.ofNat 8 k :: ownDigest s k)

/-- Measurement 4, the fuse policy (R360). -/
def meas4 (s : State) : Bytes :=
  sha3_384 (BitVec.ofNat 8 s.glb.lc.toNat :: (s.fus.ctr.toList.map fun c => BitVec.ofNat 8 c.toNat) ++
    ((List.range 15).flatMap fun i => leBytes 4 (ceilW s i).toNat) ++ ownerDigest s)

/-- Measurement 16 + o: of the golden copy while a domain that requires the object runs it, else of the chosen slot, else
zero; on the fast path the retained one (R360). -/
def measObj (s : State) (o : Fin 64) : BitVec 384 :=
  let x := s.ldg.objs[o]
  let m (i : Option ManInfo) : BitVec 384 := (i.map (·.meas)).getD 0#384
  if allDoms.any fun d => s.prs.dom[d].golden && requires s d o then m x.manG
  else if x.chosen then
    match if x.sel then x.manB else x.manA with
    | some i => i.meas
    | none => ((s.pwr.retMeas.find? fun p => p.1 = o).map (·.2)).getD 0#384
  else 0#384

/-- The objects that are defined. -/
def definedObjs (s : State) : List (Fin 64) := allObjs.filter fun o => s.ldg.objs[o].cfg.isSome

/-- Bytes 0 to 15 of the alias hash, the kid of evidence (R363). -/
def aliasKid (s : State) : Bytes := (leBytes 48 s.kvt.aliasH.toNat).take 16

/-- The claims that every token holds, those that ARG0 selects, and an aggregate's own (R364). -/
def claims (nonce : Bytes) (fn : Nat) (sel : BitVec 32) (agg : Option Bytes) (s : State) : Bytes :=
  let opt (b : Bool) (k : Int) (v : Bytes) : List (Int × Bytes) := if b then [(k, v)] else []
  let idh := leBytes 48 s.kvt.idh.toNat
  cborMap (
    opt s.aon.calValid 6 (cborInt (s.aon.calSecs.toNat + 946684800)) ++
    [(10, cborBytes nonce), (256, cborBytes (1#8 :: idh.take 32)),
     (259, cborText (if shadowW s 0x44 = 0#32 then "KS-2416-LA" else "KS-2416-LF")),
     (261, cborInt (s.tbs.tick.toNat / 25000000)),
     (263, cborInt (if s.glb.lc = 1 || s.glb.lc = 3 then 0 else 1)),
     (265, cborText "urn:horior:ks2416:evidence:1"), (267, cborInt s.aon.coldCount.toNat),
     (268, cborBytes (leBytes 32 s.att.bootseed.toNat)),
     (-70001, cborInt 1), (-70002, cborInt s.glb.lc.toNat),
     (-70003, cborArr [cborBytes (measBytes s.boot.meas), cborBool (s.boot.clamps != 0), cborBool s.glb.sealedDefaults]),
     (-70004, cborInt fn), (-70005, cborArr [cborBytes Config.romDigest, cborBytes (meas2 s)])] ++
    opt (sel.getLsbD 0) (-70010) (cborMap ((definedObjs s).map fun o => ((o.val : Int), cborBytes (measBytes (measObj s o))))) ++
    opt (sel.getLsbD 1) (-70011) (cborArr (allDoms.map fun d => cborInt (domStNo s.prs.dom[d].st))) ++
    opt (sel.getLsbD 2) (-70012) (cborArr [cborBytes (meas4 s), cborBytes (ownerDigest s)]) ++
    opt (sel.getLsbD 3) (-70013) (cborArr [cborInt s.tmp.alarms.toNat, cborInt ((s.tmp.last.map (·.val)).getD 0),
      cborInt s.tmp.erases.toNat]) ++
    opt (sel.getLsbD 4) (-70014) (cborArr [cborInt s.boot.eff.member.toNat, cborInt s.boot.eff.parent.toNat,
      cborInt s.att.role, cborBool s.att.joined, cborInt s.att.children.length]) ++
    (agg.map fun a => [((-70020 : Int), a)]).getD [])

/-- The random bit generator gives output (R356, R357). -/
def entropyOn (s : State) : Bool := s.ent.st == .running

/-- An evidence token (R363, R364). -/
def evidenceToken (nonce : Bytes) (fn : Nat) (sel : BitVec 32) (agg : Option Bytes) (s : State) : Bytes × State :=
  hybridToken 2 3 (aliasKid s) (ascii "KS-2416 evidence") (claims nonce fn sel agg s) s

/-- The endorsement of the Alias keys, as signed at the end of derivation (R361). -/
def endorsement (s : State) : Bytes :=
  (hybridToken 0 1 (aliasKid s) (ascii "KS-2416 endorsement") (cborMap [
    (1, cborBytes (idhBytes s)), (2, cborBytes (leBytes 48 s.kvt.aliasH.toNat)), (3, cborBytes (m0 s)),
    (4, cborBytes (measBytes s.boot.meas))]) (s.modOut fun o => { o with rng := s.att.endDraw })).1

end Sys2Proof.Machine
end

