-- ==== Sys2Proof/Machine/Arrayop.lean ====
section
/-! DEFINITION. The engine array's shared operations (chapter 07): engines, accelerator units, context slots, pages, and
the grant of a cluster. An engine's key is cluster × 16 + engine. -/

namespace Sys2Proof.Machine

/-- The cluster of an engine's key. -/
def clOf (e : Nat) : Fin 64 := ⟨e / 16 % 64, Nat.mod_lt _ (by decide)⟩

/-- An engine that holds a job. -/
def eng? (s : State) (e : Nat) : Option Engine := assocGet s.pln.engines e

/-- Put an engine back. -/
def putEng (e : Nat) (x : Engine) (s : State) : State := s.modPln fun p => { p with engines := assocPut p.engines e x }

/-- Change an engine that holds a job. -/
def modEng (e : Nat) (f : Engine → Engine) (s : State) : State :=
  match eng? s e with
  | some x => putEng e (f x) s
  | none => s

/-- A cluster of the array. -/
def cluster (s : State) (c : Nat) : Cluster := s.pln.clusters.toList.getD c {}

/-- Release every unit an engine holds, with its state zeroed (R175). -/
def freeUnits (e : Nat) (x : Cluster) : Cluster :=
  { x with
    k0 := if x.k0.owner = some e then {} else x.k0, k1 := if x.k1.owner = some e then {} else x.k1
    s0 := if x.s0.owner = some e then {} else x.s0, s1 := if x.s1.owner = some e then {} else x.s1
    a0 := if x.a0.owner = some e then {} else x.a0 }

/-- An engine leaves its job: its registers and guard bits are cleared and its units released (R166, R175). -/
def dropEngine (e : Nat) (s : State) : State :=
  modCluster (clOf e) (freeUnits e) (s.modPln fun p => { p with engines := assocDel p.engines e })

/-- The Keccak unit an engine holds. -/
def heldK (x : Cluster) (e : Nat) : Option Kck :=
  if x.k0.owner = some e then some x.k0 else if x.k1.owner = some e then some x.k1 else none

/-- The SHA-2 unit an engine holds. -/
def heldS (x : Cluster) (e : Nat) : Option Sha :=
  if x.s0.owner = some e then some x.s0 else if x.s1.owner = some e then some x.s1 else none

/-- The AES unit an engine holds. -/
def heldA (x : Cluster) (e : Nat) : Option Aes := if x.a0.owner = some e then some x.a0 else none

/-- Preempt an engine: its context goes into its context slot; a blocked instruction executes again on resume (R181). -/
def preempt (e : Nat) (x : Engine) (s : State) : State :=
  let cl := s.pln.clusters[clOf e]
  let c : Ctx := { eng := { x with blk := none, st := .running, issued := 0 }, k := heldK cl e, sh := heldS cl e, a := heldA cl e }
  pmcAdd 474 1 ((dropEngine e s).modPln fun p => { p with ctx := assocPut p.ctx e c })

/-- Put a saved Keccak unit back into a free one. -/
def putK (k : Kck) (x : Cluster) : Cluster := if x.k0.owner.isNone then { x with k0 := k } else { x with k1 := k }

/-- Put a saved SHA-2 unit back into a free one. -/
def putS (k : Sha) (x : Cluster) : Cluster := if x.s0.owner.isNone then { x with s0 := k } else { x with s1 := k }

/-- A preempted engine resumes with its context and its units (R181). -/
def resume (e : Nat) (c : Ctx) (s : State) : State :=
  let s := s.modPln fun p => { p with ctx := assocDel p.ctx e }
  let s := putEng e { c.eng with sliceTick := s.tbs.tick.toNat } s
  modCluster (clOf e) (fun x =>
    let x := (c.k.map fun k => putK k x).getD x
    let x := (c.sh.map fun k => putS k x).getD x
    (c.a.map fun a => { x with a0 := a }).getD x) s

/-- The partition of a job's function (R248). -/
def jobPart (j : Job) : Nat := 8 + j.fn.val

/-- A partition of class C0. -/
def isC0 (s : State) (p : Nat) : Bool := (part s p).cls = 0

/-- A partition is exhausted on a resource that running its work takes. -/
def engExhausted (s : State) (p : Nat) : Bool := exhausted s p 0

/-- A cluster that no engine works on any more: it is idle, powered down where the profile does not power it, and else its
preempted jobs resume, of one partition that is not exhausted, unless C0 work has still to start there (R152, R157, R181,
R185). -/
def settleCluster (c : Fin 64) (s : State) : State :=
  let x := s.pln.clusters[c]
  if c = 0 || x.st = 0 || (s.pln.engines.any fun e => e.1 / 16 = c.val) then s
  else
    let waits := x.take.isSome && x.st ≠ 3
    let s := modCluster c (fun x => { x with
      st := if x.outCause = 0 then 1 else 4, part := 31, close := false, take := if waits then x.take else none }) s
    let mine := s.pln.ctx.filter fun e => e.1 / 16 = c.val
    if !clusterOn s c.val && mine.isEmpty then gateCluster c s
    else if waits || x.outCause ≠ 0 || !clusterOn s c.val then s
    else
      let live := mine.filterMap fun e => (job? s e.2.eng.job).map fun j => (e, jobPart j)
      match live.find? fun p => !engExhausted s p.2 with
      | none => s
      | some (_, p) =>
        let s := modCluster c (fun x => { x with st := 2, part := p, grantTick := s.tbs.tick.toNat }) s
        (live.filter fun q => q.2 = p).foldl (fun s q => resume q.1.1 q.1.2 s) s

/-- The pages of a cluster that jobs hold. -/
def heldPages (s : State) (c : Fin 64) : List (Fin 128) :=
  s.job.jobs.flatMap fun j => if j.cluster = some c then j.pages ++ j.gpages else []

/-- The pages of a cluster that a job of a class may draw: the pool, or the reserve for C0 (R168, R169), lowest first. -/
def freePages (s : State) (c : Fin 64) (c0 : Bool) : List (Fin 128) :=
  (List.finRange 128).filter fun p =>
    (if c0 then decide (96 ≤ p.val) else decide (p.val < 96)) && !(p ∈ heldPages s c) && !(p ∈ s.pln.clusters[c].retired)

/-- The key of a word in a cluster's data memory: physical page × 512 + offset. -/
def memKey (p : Fin 128) (off : Nat) : Nat := p.val * 512 + off % 512

/-- Zero pages, with guard and parity bits (R171). -/
def zeroPages (c : Fin 64) (ps : List (Fin 128)) (s : State) : State :=
  modCluster c (fun x => { x with mem := x.mem.filter fun e => !(ps.any fun p => e.1 / 512 = p.val) }) s

/-- A page that failed its read-back is retired; more than eight take the cluster out of service (R171, R182). -/
def retirePage (c : Fin 64) (p : Fin 128) (s : State) : State :=
  if c = 0 || p ∈ s.pln.clusters[c].retired then s
  else
    let s := modCluster c (fun x => { x with retired := p :: x.retired }) s
    let n := s.pln.clusters[c].retired.length
    let s := ev 0x7021#16 c.val p.val n s
    if n > 8 && s.pln.clusters[c].outCause = 0 then
      ev 0x7022#16 c.val 2 0 (modCluster c (fun x => { x with outCause := 2, st := if x.st = 1 then 4 else x.st }) s)
    else s

/-- The two parity bits of a word with its guard bit (R168). -/
def wordOf (v : BitVec 24) (g : Bool) : BitVec 27 :=
  let lo := popCount (BitVec.ofNat 12 v.toNat) + (if g then 1 else 0)
  let hi := popCount (BitVec.ofNat 12 (v.toNat / 4096))
  BitVec.ofNat 27 (v.toNat + (if g then 2 ^ 24 else 0) + lo % 2 * 2 ^ 25 + hi % 2 * 2 ^ 26)

/-- The data of a word. -/
def wordVal (w : BitVec 27) : BitVec 24 := w.setWidth 24
/-- The guard bit of a word. -/
def wordG (w : BitVec 27) : Bool := w.getLsbD 24
/-- Both parity bits hold. -/
def wordOk (w : BitVec 27) : Bool := wordOf (wordVal w) (wordG w) == w

/-- The physical page of a job's logical address, and whether it is a guarded page (R169). -/
def pageAt (j : Job) (a : BitVec 24) : Option (Fin 128 × Bool) :=
  let n := a.toNat
  if n < 0x800000 then (j.pages[n / 512]?).map (·, false) else (j.gpages[(n - 0x800000) / 512]?).map (·, true)

/-- The word at a logical address, with its page; none outside the job's pages. -/
def memAt (s : State) (j : Job) (a : BitVec 24) : Option (BitVec 27 × Fin 128 × Bool) :=
  match j.cluster, pageAt j a with
  | some c, some (p, g) => some (cellGet 0#27 s.pln.clusters[c].mem (memKey p a.toNat), p, g)
  | _, _ => none

/-- Write a word at a logical address of a job. -/
def memPut (j : Job) (a : BitVec 24) (v : BitVec 24) (g : Bool) (s : State) : State :=
  match j.cluster, pageAt j a with
  | some c, some (p, _) => modCluster c (fun x => { x with mem := cellSet 0#27 x.mem (memKey p a.toNat) (wordOf v g) }) s
  | _, _ => s

/-- Bytes packed three to a word, the last word's high bytes zero (R180). -/
def packWords : Bytes → List (BitVec 24)
  | [] => []
  | [a] => [a.setWidth 24]
  | [a, b] => [(b ++ a).setWidth 24]
  | a :: b :: c :: t => (c ++ b ++ a) :: packWords t

/-- The bytes of a word (R180). -/
def wordBytes (w : BitVec 24) : Bytes := leBytes 3 w.toNat

end Sys2Proof.Machine
end

