-- ==== Sys2Proof/Machine/Jobop.lean ====
section
/-! DEFINITION. Jobs from their start on a cluster to their completion record (chapters 07, 08 and 10): the programs, the
results of the library operations, scatter-gather lists, the end of a job, traps, and the loss of a cluster. -/

namespace Sys2Proof.Machine

/-- One ROM library program (R215): ID, operation, width, open and guarded pages, USE. -/
structure RomProg where
  /-- ID -/
  id : Nat
  /-- operation -/
  op : Nat
  /-- width -/
  width : Nat
  /-- open pages -/
  openP : Nat
  /-- guarded pages -/
  guardedP : Nat
  /-- USE -/
  use : Nat

/-- The ROM library (R215). -/
def romProgs : List RomProg :=
  ((List.range 6).map fun i => ⟨1 + i, 0x01, 1, 1, 0, 0⟩) ++
  [⟨0x010, 0x02, 16, 2, 0, 0⟩, ⟨0x011, 0x02, 16, 2, 0, 0⟩] ++
  ([0x020, 0x021, 0x022, 0x028, 0x029, 0x02C].map fun i => ⟨i, 0x03, 16, 2, 0, 2⟩) ++
  ([0x030, 0x031, 0x032, 0x038, 0x039].map fun i => ⟨i, 0x04, 16, 1, 1, 1⟩) ++
  [⟨0x040, 0x05, 16, 1, 1, 3⟩, ⟨0x041, 0x05, 16, 1, 1, 3⟩, ⟨0x050, 0x06, 1, 1, 1, 4⟩, ⟨0x051, 0x07, 1, 1, 1, 4⟩,
   ⟨0x060, 0x08, 1, 1, 1, 5⟩, ⟨0x070, 0x09, 16, 2, 0, 2⟩, ⟨0x080, 0x0A, 16, 1, 1, 1⟩, ⟨0x0F0, 0x0B, 16, 2, 0, 0⟩]

/-- A ROM program by its ID. -/
def rom? (id : Nat) : Option RomProg := romProgs.find? fun p => p.id = id

/-- The program of a descriptor. -/
def progId (j : Job) : Nat := j.d.progId.toNat % 4096

/-- The copy of a customer program that a job runs (R219). -/
def copyOf (s : State) (j : Job) : Option Prog := s.pln.progs.find? fun p => p.base = j.prog

/-- Width, open and guarded pages, USE and entry point of a job's program (R215, R216). -/
def progShape (s : State) (j : Job) : Nat × Nat × Nat × Nat × Nat :=
  if progId j < 0x400 then
    match rom? (progId j) with
    | some p => (p.width, p.openP, p.guardedP, p.use, (Config.romEntry p.id).toNat)
    | none => (1, 1, 0, 0, 0)
  else match copyOf s j with
    | some p => (p.width, p.openP, p.guardedP, p.use, p.base + p.entry)
    | none => (1, 1, 0, 0, 0)

/-- A queue pair of a function. -/
def queue (s : State) (f q : Nat) : Queue := (assocGet s.job.queues (f * 64 + q)).getD {}

/-- Change a queue pair. -/
def modQueue (f q : Nat) (g : Queue → Queue) (s : State) : State :=
  s.modJob fun b => { b with queues := assocPut b.queues (f * 64 + q) (g ((assocGet b.queues (f * 64 + q)).getD {})) }

/-- Walk a scatter-gather list until a length is covered: the segments, and whether the list obeys R254. An entry with LEN
0 and an address chains to an array that is aligned; a list has at most 4,096 data entries. -/
def sglWalk : List SglEnt → Nat → Nat → List (BitVec 64 × Nat) × Bool
  | _, 0, _ => ([], true)
  | [], _, _ => ([], false)
  | e :: t, need + 1, n =>
    if e.zero ≠ 0#32 then ([], false)
    else if e.len = 0#32 then (if e.addr = 0#64 || e.addr.toNat % 16 ≠ 0 then ([], false) else sglWalk t (need + 1) n)
    else if n ≥ 4096 then ([], false)
    else
      let k := min e.len.toNat (need + 1)
      let (r, ok) := sglWalk t (need + 1 - k) (n + 1)
      ((e.addr, k) :: r, ok)

/-- Write bytes to a job's destination, contiguous or through its list; false where the list is at fault, with the bytes
before the fault written (R253, R254). Charged to the function's partition (R146). -/
def writeDst (j : Job) (b : Bytes) (s : State) : Bool × State :=
  if b.isEmpty then (true, s)
  else if !j.d.flags.getLsbD 1 then (true, chargeDma (jobPart j) true b.length (hostWrite j.fn.val j.d.dst b s))
  else
    let (segs, ok) := if j.d.dst.toNat % 16 = 0 then sglWalk j.dstSgl b.length 0 else ([], false)
    let (_, s) := segs.foldl (fun (r, s) g => (r.drop g.2, hostWrite j.fn.val g.1 (r.take g.2) s)) (b, s)
    (ok, chargeDma (jobPart j) true (segs.foldl (fun t g => t + g.2) 0) s)

/-- The two parts of a completion record (R259, R260). -/
def recordParts (j : Job) (q : Queue) : Bytes × Bytes :=
  (leBytes 4 j.d.tag.toNat ++ leBytes 4 j.result.toNat ++ leBytes 4 (min (2 ^ 32 - 1) ((j.time + 15) / 16)),
   leBytes 2 (q.sqHead % 4096) ++ [j.status, BitVec.ofNat 8 ((if q.phase then 1 else 0) + (if j.losses ≠ 0 then 2 else 0))])

/-- Draining copies of programs that no job uses any more are freed (R219): event 0x7053. -/
def freeCopies (s : State) : State :=
  let gone := s.pln.progs.filter fun p =>
    p.draining && !(s.job.jobs.any fun j => j.prog = p.base && decide (0x400 ≤ progId j))
  gone.foldl (fun s p => ev 0x7053#16 p.id p.version.toNat 0 (s.modPln fun x => { x with
    progs := x.progs.filter fun y => y.base ≠ p.base,
    clusters := x.clusters.map fun c => { c with resident := c.resident.filter (· ≠ p.base) } })) s

/-- Send a queue's vector after its records (R261). -/
def signalQueue (f : Fin 16) (q : Nat) (s : State) : State :=
  sendMsix f (queue s f.val q).vector.toNat (modQueue f.val q (fun x => { x with unsignalled := 0 }) s)

/-- After a record: the vector is sent at the count, or at once for NOTIFY (R261). -/
def afterRecord (j : Job) (s : State) : State :=
  let q := queue s j.fn.val j.q.val
  if !q.msix then s
  else if j.d.flags.getLsbD 3 || decide (q.coalCount.toNat ≤ q.unsignalled + 1) || q.coalCount = 0#8 then
    signalQueue j.fn j.q.val s
  else modQueue j.fn.val j.q.val (fun x => { x with unsignalled := x.unsignalled + 1 }) s

/-- A function's records can be written: Bus Master Enable, not D3hot (R236, R259), and DMA granted (R150). -/
def canRecord (s : State) (f : Fin 16) : Bool :=
  s.hlk.fns[f].bme && !s.hlk.fns[f].d3 && !exhausted s (8 + f.val) 2

/-- Write the record of a finished job where it can be written: the destination first, then the record in its two posted
writes; the credit returns with the second (R257, R259). A fault of the destination's list ends it with BAD_SGL (R254). -/
def tryRecord (j : Job) (s : State) : State :=
  if j.ph != .done || !canRecord s j.fn then s
  else
    let (ok, s) := writeDst j (j.out.take j.d.dstLen.toNat) s
    let s := if ok || decide (j.status.toNat ≥ 0x10) then s
      else ev 0x8020#16 (j.fn.val * 64 + j.q.val) 0x14 j.d.tag.toNat s
    let j := if ok || decide (j.status.toNat ≥ 0x10) then j else { j with status := 0x14#8, result := 2#32 }
    let q := queue s j.fn.val j.q.val
    let at_ : BitVec 64 := q.cqBase + BitVec.ofNat 64 (16 * q.cqTail)
    let (a, b) := recordParts j q
    let s := hostWrite j.fn.val (at_ + 12#64) b (hostWrite j.fn.val at_ a s)
    let s := chargeDma (jobPart j) true 16 s
    let t := (q.cqTail + 1) % 2 ^ q.k
    let s := modQueue j.fn.val j.q.val (fun x => { x with cqTail := t, phase := if t = 0 then !x.phase else x.phase }) s
    let s := s.modJob fun x => { x with jobs := x.jobs.filter fun y => y.id ≠ j.id }
    let s := s.modWsh fun w => { w with inFlight := s.job.jobs.length }
    afterRecord j (freeCopies (pmcAdd (368 + j.fn.val) 1 s))

/-- The records that can be written now, oldest first (R259). -/
def flushRecords (s : State) : State :=
  (s.job.jobs.filter fun j => j.ph == .done).foldl (fun s j => tryRecord j s) s

/-- A job leaves its cluster: its engines, contexts, registers and pages are cleared, and the cluster is released where
nothing else holds it (R166, R167, R171). -/
def leaveCluster (id : Nat) (s : State) : State :=
  match job? s id with
  | none => s
  | some j =>
    let es := (s.pln.engines.filter fun e => e.2.job = id).map (·.1)
    let s := es.foldl (fun s e => dropEngine e s) s
    let s := s.modPln fun p => { p with ctx := p.ctx.filter fun e => e.2.eng.job ≠ id }
    match j.cluster with
    | none => s
    | some c =>
      let s := zeroPages c (j.pages ++ j.gpages) s
      settleCluster c (modJob id (fun j => { j with cluster := none, pages := [], gpages := [] }) s)

/-- A job leaves the device, with its credit and the copies and keys that only it held (R227, R265). -/
def removeJob (id : Nat) (s : State) : State :=
  let s := s.modJob fun x => { x with jobs := x.jobs.filter fun y => y.id ≠ id }
  freeShadows (freeCopies (s.modWsh fun w => { w with inFlight := s.job.jobs.length }))

/-- A job ends with a status and a result (R167, R171, R259, R271); one whose function was reset leaves without a record
(R227). -/
def finishJob (id status : Nat) (result : BitVec 32) (s : State) : State :=
  match job? s id with
  | none => s
  | some j =>
    if j.ph = .done then s
    else if j.discard then removeJob id (leaveCluster id s)
    else
      let fq := j.fn.val * 64 + j.q.val
      let s := leaveCluster id s
      let s := modJob id (fun j => { j with ph := .done, status := BitVec.ofNat 8 status, result := result, keyVer := [] }) s
      let s := if j.lost ≠ 0 then ev 0x8026#16 fq j.d.tag.toNat j.lost s else s
      let s := if status ≥ 0x10 then ev 0x8020#16 fq status j.d.tag.toNat s else s
      let s := freeShadows s
      match job? s id with
      | some j => tryRecord j s
      | none => s

/-- Jobs that stop and have no engine at work are at their slice points: they end (R227, R263, R264). -/
def endIdle (s : State) : State :=
  (s.job.jobs.filter fun j => j.ph == .stopping && !(s.pln.engines.any fun e => e.2.job = j.id)).foldl
    (fun s j => finishJob j.id j.status.toNat j.result s) s

/-- The jobs whose key result was stored, or was not, end (R346). -/
def keyDone (l : List (Nat × Bool)) (s : State) : State :=
  l.foldl (fun s p => match job? s p.1 with
    | some j => if p.2 then finishJob p.1 0 0#32 s else finishJob p.1 0x21 (j.d.dstSlot.setWidth 32) s
    | none => s) s

/-- What a job yields: status, RESULT, output bytes, and its key result as KTYPE and key. -/
structure JobRes where
  /-- STATUS -/
  status : Nat := 0
  /-- RESULT -/
  result : BitVec 32 := 0#32
  /-- bytes for the destination -/
  out : Bytes := []
  /-- key result -/
  key : Option (Nat × Bytes) := none

/-- Signature algorithm, public key and signature bytes of a verification program (R215, R267). -/
def sigShape (p : Nat) : Nat × Nat × Nat :=
  match p with
  | 0x020 => (2, 1312, 2420) | 0x021 => (0, 1952, 3309) | 0x022 => (3, 2592, 4627)
  | 0x028 => (4, 65, 64) | 0x029 => (1, 97, 96) | _ => (5, 0, 0)

/-- Signature algorithm and signature bytes of a signing program (R215, R267). -/
def signShape (p : Nat) : Nat := match p with | 0x030 => 2 | 0x031 => 0 | 0x032 => 3 | 0x038 => 4 | _ => 1

/-- The key a job uses: the version it first loaded, else the slot's (R265). -/
def jobKey (s : State) (j : Job) : Bytes := (assocGet j.keyVer j.d.keySlot.toNat).getD (slotKey (slotAt s j.d.keySlot.toNat))

/-- The Merkle root of a job's leaves (R268). -/
def jobRoot (h : Bytes → Bytes) (leaf : Nat) (b : Bytes) : Bytes :=
  let ls := chunks leaf (b.length / leaf + 1) b
  merkleRoot (fun l r => h (1#8 :: (l ++ r))) (ls.length + 1) (ls.map fun l => h (0#8 :: l))

/-- SIG_VERIFY: RESULT 2 a malformed key, 3 a malformed signature, 1 an invalid one (R270). -/
def sigVerifyRes (p : Nat) (ctxLen : Nat) (aux src : Bytes) : JobRes :=
  let (alg, pl, sl) := sigShape p
  let pl := if alg = 5 then min aux.length (Config.lmsKeyLen aux) else pl
  let sl := if alg = 5 then aux.length - pl else sl
  let pk := aux.take pl
  let sig := slice aux pl sl
  if !Config.pkOk alg pk then { status := 1, result := 2#32 }
  else if !Config.sigOk alg sig then { status := 1, result := 3#32 }
  else if Config.sigVerify alg pk (slice aux (pl + sl) ctxLen) src sig then {}
  else { status := 1, result := 1#32 }

/-- IMAGE_CHECK: the first check of R270 that fails, or the measurement (R266). -/
def imageCheckRes (j : Job) (s : State) : JobRes :=
  let bad (n : Nat) : JobRes := { status := 1, result := p32 n }
  let o := leAt j.aux 6 1
  match if o < 64 then parseMan o j.aux else none with
  | none => bad 1
  | some m =>
    let g := manSigs s j.aux
    if g ≠ 0 then bad g
    else if m.size ≠ j.d.srcLen then bad 5
    else if !rootOk j.aux (jobRoot (if m.sha384 then sha3_384 else sha3_256) 4096 j.src) then bad 6
    else if decide (m.secver.toNat < fusedFloor s o) then bad 7
    else { out := if j.d.dstLen = 0#32 then [] else measBytes m.meas }

/-- What a customer program leaves: RESULT in word 63 of its parameter block, its byte count in word 62; bytes sent beyond
the count are overwritten with zero (R256, R257). -/
def customRes (j : Job) (s : State) : JobRes :=
  let w (a : Nat) : BitVec 24 := ((memAt s j (BitVec.ofNat 24 a)).map fun x => wordVal x.1).getD 0#24
  let n := (w 62).toNat
  let cap := j.d.dstLen.toNat
  if min n j.out.length > cap then { status := 0x16, result := p32s n, out := j.out.take cap }
  else { result := (w 63).setWidth 32, out := j.out.take n ++ List.replicate (min j.out.length cap - n) 0#8 }

/-- The result of a job whose last engine has halted, by its operation (R266 to R270). -/
def jobResult (j : Job) (s : State) : JobRes × State :=
  let arg0 := j.d.arg0.toNat
  let bytes (b : Bytes) : JobRes := { result := p32s b.length, out := b }
  match j.d.op.toNat with
  | 0x01 =>
    let n := j.d.dstLen.toNat
    (bytes (match progId j with
      | 1 => sha3_256 j.src | 2 => sha3_384 j.src | 3 => sha256 j.src | 4 => sha384 j.src
      | 5 => shake128 j.src n | _ => shake256 j.src n), s)
  | 0x02 =>
    let h := if progId j = 0x010 then sha3_256 else sha3_384
    let root := jobRoot h (2 ^ arg0) j.src
    let out := if root.length ≤ j.d.dstLen.toNat then root else []
    (if root == j.aux then { out := out } else { status := 1, result := 1#32, out := out }, s)
  | 0x03 => (sigVerifyRes (progId j) arg0 j.aux j.src, s)
  | 0x04 =>
    let sig := Config.sigSign (signShape (progId j)) (jobKey s j) (j.aux.take arg0) j.src s.out.rng
    (bytes sig, s.modOut fun o => { o with rng := o.rng + 48 })
  | 0x05 =>
    ({ key := some (1, (if progId j = 0x040 then Config.kemDecaps768 else Config.kemDecaps) (jobKey s j) j.src) }, s)
  | 0x06 =>
    let ct := gcmStream (jobKey s j) (j.aux.take 12) j.src
    (bytes (ct ++ gcmTag (jobKey s j) (j.aux.take 12) (j.aux.drop 12) ct), s)
  | 0x07 =>
    let n := j.src.length - 16
    let ct := j.src.take n
    if gcmTag (jobKey s j) (j.aux.take 12) (j.aux.drop 12) ct == j.src.drop n then
      (bytes (gcmStream (jobKey s j) (j.aux.take 12) ct), s)
    else ({ status := 1, result := 1#32, out := List.replicate n 0#8 }, s)
  | 0x08 => ({ key := some (1, kmac256 (jobKey s j) j.src arg0 j.aux) }, s)
  | 0x09 => (imageCheckRes j s, s)
  | 0x0A =>
    let (t, s) := evidenceToken j.aux j.fn.val j.d.arg0 none s
    (bytes t, ev 0xD002#16 j.fn.val j.d.arg0.toNat t.length s)
  | 0x0C => (customRes j s, s)
  | _ => ({}, s)

/-- The key result of a job goes to the vault through R346; the record waits for the swap (R214, R346). -/
def storeKeyResult (j : Job) (kt : Nat) (key : Bytes) (s : State) : State :=
  let a := attrWith j.d.arg2 0
  if h : j.d.dstSlot.toNat < 256 then
    let n : Fin 256 := ⟨j.d.dstSlot.toNat, h⟩
    let why := slotRefusal s n.val j.fn.val a kt key.length false
    if why ≠ 0 then finishJob j.id 0x21 (j.d.dstSlot.setWidth 32) (ev 0xC012#16 n.val j.fn.val why s)
    else
      let s := modJob j.id (fun j => { j with ph := .keyWait }) (leaveCluster j.id s)
      let (s, l) := beginReplace n kt a j.fn.val key false 0 (some j.id) s
      keyDone l s
  else finishJob j.id 0x21 (j.d.dstSlot.setWidth 32) s

/-- The last engine of a job has halted (R165, R171, R206). An output larger than the destination ends it with DST_SHORT
(R257). -/
def jobEnd (id : Nat) (s : State) : State :=
  match job? s id with
  | none => s
  | some j =>
    let (r, s) := jobResult j s
    if r.out.length > j.d.dstLen.toNat then
      finishJob id 0x16 (p32s r.out.length) s
    else
      let s := modJob id (fun j => { j with out := r.out }) s
      match r.key with
      | some (kt, key) => storeKeyResult j kt key s
      | none => finishJob id r.status r.result s

/-- The trap word (R271). -/
def trapWord (cause eid code pc : Nat) : BitVec 32 := p32 (cause % 16 + eid % 16 * 16 + code % 256 * 256 + pc % 32768 * 65536)

/-- A trap of an engine ends its job: event 0x7010, every engine stopped, its registers and pages zeroed (R167, R197). -/
def jobTrap (e cause code : Nat) (s : State) : State :=
  match eng? s e with
  | none => s
  | some x =>
    let st := if cause = 6 then 0x20 else if cause = 4 || cause = 5 then 0x31 else 0x30
    let s := pmcAdd 472 1 (ev 0x7010#16 e x.pc.toNat cause s)
    let s := s.modPln fun p => { p with traps := bvSat p.traps 1 }
    finishJob x.job st (trapWord cause x.eid.toNat code x.pc.toNat) s

/-- A job has lost its cluster: it starts again, ahead of its partition's other jobs, or ends at the third loss (R262). -/
def loseJob (id : Nat) (s : State) : State :=
  match job? s id with
  | none => s
  | some j =>
    let fq := j.fn.val * 64 + j.q.val
    let c := (j.cluster.map (·.val)).getD 0
    let s := leaveCluster id s
    if j.discard then removeJob id s
    else if j.losses ≥ 2 then
      finishJob id 0x34 (p32 c) (ev 0x8024#16 fq j.d.tag.toNat c (modJob id (fun j => { j with losses := j.losses + 1 }) s))
    else
      pmcAdd 479 1 (ev 0x8023#16 fq j.d.tag.toNat c (modJob id (fun j => { j with
        ph := .waiting, losses := j.losses + 1, joined := 0, halted := 0, bar := Vector.replicate 8 0#24, src := [], aux := [],
        out := [], lost := 0, dstSgl := [], keyVer := [] }) s))

/-- The cluster no longer serves: unpowered, or out of service by a supply difference or retired pages (R65, R182). -/
def clusterLost (s : State) (c : Fin 64) : Bool :=
  !clusterOn s c.val || s.pln.clusters[c].outCause = 2 || s.pln.clusters[c].outCause = 3

/-- Jobs that only hold contexts on a cluster that no longer serves have lost it. -/
def loseIdle (s : State) : State :=
  (s.job.jobs.filter fun j => match j.cluster with
    | some c => clusterLost s c && !(s.pln.engines.any fun e => e.2.job = j.id)
    | none => false).foldl (fun s j => loseJob j.id s) s

end Sys2Proof.Machine
end

