-- ==== Sys2Proof/Machine/Operands.lean ====
section
/-! DEFINITION. The engine's operand forms and the issue of an instruction (chapter 08): registers with their guard bits,
extended immediates, the fetch checks, the loop-back, blocking and trapping. -/

namespace Sys2Proof.Machine

/-- A general register; g0 reads as zero (R192). -/
def rg (x : Engine) (r : BitVec 5) : BitVec 24 := if r = 0#5 then 0#24 else x.g[r.toFin]

/-- The guard bit of a general register; g0's is always clear (R192). -/
def rgG (x : Engine) (r : BitVec 5) : Bool := r != 0#5 && x.gg.getLsbD r.toNat

/-- Write a general register and its guard bit; writes of g0 are discarded (R192). -/
def wr (r : BitVec 5) (v : BitVec 24) (g : Bool) (x : Engine) : Engine :=
  if r = 0#5 then x else { x with g := x.g.set r.toFin v, gg := bvPut x.gg r.toNat g }

/-- An 8-bit immediate, sign-extended (R198). -/
def sext8 (i : BitVec 8) : BitVec 24 := i.signExtend 24

/-- An 8-bit immediate, zero-extended (R198). -/
def zext8 (i : BitVec 8) : BitVec 24 := i.setWidth 24

/-- How an issued instruction ends. -/
inductive Act where
  /-- it completes without transferring control; the next address in sequence -/
  | next (x : Engine) (pc : BitVec 15)
  /-- it transfers control -/
  | jump (x : Engine) (pc : BitVec 15)
  /-- it waits on a handshake -/
  | block (x : Engine) (b : Blocked)
  /-- it traps, with the cause and the code of R271 -/
  | trap (cause code : Nat)
  /-- the engine's part of the job ends (R206) -/
  | halt

/-- The instruction completes and the next one follows. -/
def Act.seq (x : Engine) : Act := .next x (x.pc + 1)

/-- The program counter lies in the range of the job's program (R204). -/
def inRange (s : State) (j : Job) (pc : BitVec 15) : Bool :=
  if progId j < 0x400 then decide (pc.toNat < 0x4000)
  else match copyOf s j with
    | some p => decide (p.base ≤ pc.toNat ∧ pc.toNat < p.base + p.len)
    | none => false

/-- The loop-back of R203, after the instruction at `pc` completed with `npc` next in sequence: no instruction, not
counted. -/
def loopBack (x : Engine) (pc npc : BitVec 15) : Engine :=
  let body : BitVec 15 := x.la.setWidth 15
  let last : BitVec 15 := body + (x.la >>> 15).setWidth 15
  if pc = last && x.lc != 0#24 then
    if x.lc.toNat > 1 then { x with lc := x.lc - 1, pc := body } else { x with lc := 0#24, pc := npc }
  else { x with pc := npc }

/-- A tag-buffer entry of an issued instruction, with the times the spec does not fix as free values (R445). -/
def tagEntry (e : Nat) (x : Engine) (j : Job) (s : State) : State :=
  let (f, s) := drawFree 8 s
  let (i, s) := drawFree 16 s
  let (r, s) := drawFree 16 s
  let t : TagRec := {
    engine := BitVec.ofNat 16 e, prog := BitVec.ofNat 16 (progId j), pc := x.pc.setWidth 16,
    fetch := (s.tbs.tick.setWidth 24 ++ f), issue := i, retire := r }
  let s := s.modPmc fun p => { p with tags := p.tags ++ [t] }
  if s.pmc.tags.length ≥ 1024 then ev 0xF060#16 s.pmc.tagN.toNat (s.tbs.tick.toNat % 2 ^ 32) 0 (s.modPmc fun p => { p with tagFull := true })
  else s

/-- Random tagging with probability 2^-TAG_N: the generator's choice is a free value (R445). -/
def tagIssue (e : Nat) (x : Engine) (j : Job) (s : State) : State :=
  if !s.pmc.tagEn || s.pmc.tagFull then s
  else
    let (v, s) := drawFree s.pmc.tagN.toNat s
    if v.toNat = 0 then tagEntry e x j s else s

/-- After an instruction: at 256 issued, the engine is at a slice point (R181, R198); an address outside the program's range
is fetched next and traps with cause 11 (R204). -/
def retire (e : Nat) (x : Engine) (s : State) : State :=
  let s := putEng e (if x.issued ≥ 256 then { x with st := .atSlice } else x) s
  match job? s x.job with
  | some j => if inRange s j x.pc then s else jobTrap e 11 0 s
  | none => s

/-- Words an engine has sent leave its stream-out queue: EID 0's go to the destination, others are discarded and counted
(R257). -/
def sendWords (x : Engine) (ws : List (BitVec 24)) (s : State) : State :=
  modJob x.job (fun j =>
    if x.eid = 0#4 then { j with out := j.out ++ ws.flatMap wordBytes } else { j with lost := j.lost + ws.length }) s

/-- The engine's part of its job ends; once every engine that joined has halted, the job is complete (R165, R206). -/
def haltEngine (e : Nat) (x : Engine) (s : State) : State :=
  let s := modJob x.job (fun j => { j with halted := j.halted + 1 }) (dropEngine e (sendWords x x.sout s))
  match job? s x.job with
  | some j => if j.halted ≥ j.joined then jobEnd j.id s else settleCluster (clOf e) s
  | none => s

/-- An instruction's end takes effect. -/
def applyAct (e : Nat) (x : Engine) (a : Act) (s : State) : State :=
  if (eng? s e).isNone then s else
  match a with
  | .next y npc => retire e (loopBack y x.pc npc) s
  | .jump y pc => retire e { y with pc := pc } s
  | .block y b => putEng e { y with blk := some b } s
  | .trap cause code => jobTrap e cause code s
  | .halt => haltEngine e x s

/-- Issue an instruction on a running engine: the fetch checks, the issue count, then what it does (R196, R198, R204). -/
def runInstr (e : Nat) (x : Engine) (j : Job) (body : Job → Engine → State → Act × State) (s : State) : State :=
  if !inRange s j x.pc then jobTrap e 11 0 s
  else if x.pc.toNat ∈ (cluster s (e / 16)).badParity then jobTrap e 5 0 (ev 0x7041#16 (e / 16) x.pc.toNat 0 s)
  else
    let x := { x with issued := x.issued + 1 }
    let (a, s) := body j x (tagIssue e x j (pmcAdd (e / 16) 1 s))
    applyAct e x a s

/-- An instruction for an engine. An engine that holds no job, or is blocked or at a slice point, issues nothing. -/
def issue (e : Fin 1024) (body : Job → Engine → State → Act × State) (s : State) : State :=
  match eng? s e.val with
  | none => s
  | some x =>
    if x.st != .running || x.blk.isSome then s
    else match job? s x.job with
      | none => s
      | some j => runInstr e.val x j body s

/-- A blocked instruction completes: a new issue count from here (R198), and the next instruction. -/
def unblock (e : Nat) (x : Engine) (s : State) : State :=
  let y := loopBack { x with blk := none, issued := 0, sliceTick := s.tbs.tick.toNat } x.pc (x.pc + 1)
  retire e y s

/-- An instruction that only writes registers. -/
def pureInstr (f : Engine → Act) : Job → Engine → State → Act × State := fun _ x s => (f x, s)

/-- A T-format instruction of two sources: the result is guarded if a source is (R178). -/
def alu3 (gd ga gb : BitVec 5) (f : BitVec 24 → BitVec 24 → BitVec 24) : Job → Engine → State → Act × State :=
  pureInstr fun x => .seq (wr gd (f (rg x ga) (rg x gb)) (rgG x ga || rgG x gb) x)

/-- An I-format instruction of one source. -/
def alu2 (gd ga : BitVec 5) (f : BitVec 24 → BitVec 24) : Job → Engine → State → Act × State :=
  pureInstr fun x => .seq (wr gd (f (rg x ga)) (rgG x ga) x)

/-- A modular instruction: it traps with cause 8 while MQ is 0 (R193). MQ is one of its sources (R178). -/
def modular (f : Engine → Act) : Job → Engine → State → Act × State :=
  pureInstr fun x => if x.mq = 0#24 then .trap 8 0 else f x

/-- A T-format modular instruction. -/
def mod3 (gd ga gb : BitVec 5) (f : Nat → Nat → Nat → Nat) : Job → Engine → State → Act × State :=
  modular fun x =>
    .seq (wr gd (BitVec.ofNat 24 (f x.mq.toNat (rg x ga).toNat (rg x gb).toNat)) (rgG x ga || rgG x gb || x.mqG) x)

/-- A conditional branch: it compares gd and ga, unsigned; no guard bit is set (R178, R199). -/
def branch (gd ga : BitVec 5) (off : BitVec 8) (p : BitVec 24 → BitVec 24 → Bool) : Job → Engine → State → Act × State :=
  pureInstr fun x =>
    if p (rg x gd) (rg x ga) then .jump x (x.pc + 1 + off.signExtend 15) else .seq x

/-- The address of a memory operand (R201). -/
def memAddr (x : Engine) (ga : BitVec 5) (off : BitVec 8) : BitVec 24 := rg x ga + zext8 off

/-- Load a word: cause 3 outside the job's pages, cause 4 and event 0x7020 at a parity error; an open page's word is
unguarded (R172, R178, R201). -/
def loadWord (j : Job) (a : BitVec 24) (k : BitVec 24 → Bool → Act) (s : State) : Act × State :=
  match memAt s j a with
  | none => (.trap 3 0, s)
  | some (w, p, g) =>
    if !wordOk w then (.trap 4 0, ev 0x7020#16 ((j.cluster.map (·.val)).getD 0) p.val 0 s)
    else (k (wordVal w) (g && wordG w), s)

/-- Store a word: cause 3 outside the job's pages, cause 1 for a guarded value to an open page (R178, R201). -/
def storeWord (j : Job) (a v : BitVec 24) (g : Bool) (k : Act) (s : State) : Act × State :=
  match memAt s j a with
  | none => (.trap 3 0, s)
  | some (_, _, gp) => if g && !gp then (.trap 1 0, s) else (k, memPut j a v g s)

/-- A word decodes (R195): a defined opcode and mod, and zero in every field the instruction does not use. -/
def wordDecodes (w : BitVec 24) : Bool :=
  let op := w.toNat / 2 ^ 18
  let gd := w.toNat / 2 ^ 13 % 32 = 0
  let ga := w.toNat / 2 ^ 8 % 32 = 0
  let gb := w.toNat / 8 % 32 = 0
  let m := w.toNat % 8
  let i8 := w.toNat % 256 = 0
  let i13 := w.toNat % 8192 = 0
  if op ≤ 0x09 then m = 0
  else if op ≤ 0x10 then true
  else if op ≤ 0x12 || op = 0x18 then m ≤ 1
  else if op ≤ 0x17 then m = 0
  else if op ≤ 0x1C then true
  else match op with
    | 0x1D => ga && i8
    | 0x1E => gd && i8
    | 0x1F => match m with
      | 0 => gd && gb | 1 => gd | 2 | 7 => gd && ga && gb | 3 => ga | _ => false
    | 0x20 => match m with
      | 0 => gd && gb | 1 => gd | 2 => ga && gb | 7 => gd && ga && gb | _ => false
    | 0x21 => match m with
      | 0 | 1 => gd | 2 | 3 => true | 4 => ga && gb | 7 => gd && ga && gb | _ => false
    | 0x22 | 0x23 | 0x24 | 0x25 | 0x27 | 0x29 => true
    | 0x26 => gd
    | 0x28 => gd && i8
    | 0x2A => gd
    | 0x2B => gd && ga
    | 0x2C => ga
    | 0x2D => gd
    | 0x2E => m = 0 || (m = 1 && gd && gb)
    | 0x2F => ga && i8
    | 0x30 => gd && i13
    | 0x31 => gd && ga
    | _ => false

end Sys2Proof.Machine
end

