-- ==== Sys2Proof/Machine/Flags.lean ====
section
/-! DEFINITION. The carry C (chapter 08, R199): what the chain instructions, MTS and SIN write into it, with its guard
bit (R178). -/

namespace Sys2Proof.Machine

/-- Write C and its guard bit. -/
def setC (v g : Bool) (x : Engine) : Engine := { x with c := v, cG := g }

/-- The carry into a chain instruction: 0 with .S, else C (R199). -/
def carryIn (start : Bool) (x : Engine) : Nat := if start || !x.c then 0 else 1

/-- The result of a chain instruction is guarded if a register it reads is, C among them where it is taken in (R178). -/
def chainG (start : Bool) (ga gb : BitVec 5) (x : Engine) : Bool := rgG x ga || rgG x gb || (!start && x.cG)

/-- ADDC: the sum with its carry out (R199). -/
def addChain (start : Bool) (gd ga gb : BitVec 5) (x : Engine) : Engine :=
  let t := (rg x ga).toNat + (rg x gb).toNat + carryIn start x
  let g := chainG start ga gb x
  wr gd (BitVec.ofNat 24 t) g (setC (decide (2 ^ 24 ≤ t)) g x)

/-- SUBB: the difference with its borrow (R199). -/
def subChain (start : Bool) (gd ga gb : BitVec 5) (x : Engine) : Engine :=
  let a := (rg x ga).toNat
  let b := (rg x gb).toNat + carryIn start x
  let g := chainG start ga gb x
  wr gd (BitVec.ofNat 24 (a + 2 ^ 25 - b)) g (setC (decide (a < b)) g x)

end Sys2Proof.Machine
end

