-- ==== Sys2Proof/Machine/MemStream.lean ====
section
/-! DEFINITION. The meanings of the engine's loads, stores and streams (chapters 07 and 08, R179, R201, R202). -/

namespace Sys2Proof.Machine

/-- LDW (R201). -/
def ldwInstr (gd ga : BitVec 5) (off : BitVec 8) : Job → Engine → State → Act × State :=
  fun j x s => loadWord j (memAddr x ga off) (fun v g => .seq (wr gd v g x)) s

/-- STW (R201). -/
def stwInstr (gd ga : BitVec 5) (off : BitVec 8) : Job → Engine → State → Act × State :=
  fun j x s => storeWord j (memAddr x ga off) (rg x gd) (rgG x gd) (.seq x) s

/-- A pointer stepped by a sign-extended immediate, its guard bit kept (R201). -/
def stepPtr (ga : BitVec 5) (stp : BitVec 8) (x : Engine) : Engine := wr ga (rg x ga + sext8 stp) (rgG x ga) x

/-- LDP: cause 8 where gd and ga are one register (R201). -/
def ldpInstr (gd ga : BitVec 5) (stp : BitVec 8) : Job → Engine → State → Act × State :=
  fun j x s =>
    if gd = ga then (.trap 8 0, s)
    else loadWord j (rg x ga) (fun v g => .seq (wr gd v g (stepPtr ga stp x))) s

/-- STP: the store, then the step (R201). -/
def stpInstr (gd ga : BitVec 5) (stp : BitVec 8) : Job → Engine → State → Act × State :=
  fun j x s => storeWord j (rg x ga) (rg x gd) (rgG x gd) (.seq (stepPtr ga stp x)) s

/-- SIN takes a word: unguarded, C clear (R202). -/
def takeIn (gd : BitVec 5) (w : BitVec 24) (x : Engine) : Engine := wr gd w false (setC false false x)

/-- SIN (R202). -/
def sinInstr (gd : BitVec 5) : Job → Engine → State → Act × State :=
  pureInstr fun x => match x.sin with
    | w :: t => .seq (takeIn gd w { x with sin := t })
    | [] =>
      if x.inDone then .seq (wr gd 0#24 false (setC true false x))
      else .block x { op := 0x1D, gd := gd }

/-- The input of an engine in order (R257): AUX to EID 0; then the source, by leaves for the operations that take it so,
else in one run to EID 0. -/
def engInput (j : Job) (eid ew : Nat) : List (BitVec 24) :=
  let aux := if eid = 0 then packWords j.aux else []
  let leaves (n : Nat) : List (BitVec 24) :=
    let ls := chunks n (j.src.length / n + 1) j.src
    ((List.range ls.length).zip ls).flatMap fun p => if p.1 % ew = eid then packWords p.2 else []
  aux ++ (match j.d.op.toNat with
    | 0x02 => leaves (2 ^ j.d.arg0.toNat)
    | 0x09 => leaves 4096
    | _ => if eid = 0 then packWords j.src else [])

/-- The engine waits on an accelerator command whose source is the stream (R209). -/
def streamFed (x : Engine) : Bool :=
  (x.blk.map fun b => decide (0x1F ≤ b.op ∧ b.op ≤ 0x21) && b.ga = 0#5).getD false

/-- A word arrives (R202): the next of the engine's input, which ends with `last`; the queue holds 32 words (R179), and a
unit that takes its input from the stream drains it. A blocked SIN completes with it. -/
def streamIn (e : Nat) (w : BitVec 24) (last : Bool) (s : State) : State :=
  match eng? s e with
  | none => s
  | some x =>
    match job? s x.job with
    | none => s
    | some j =>
      let inp := engInput j x.eid.toNat x.ew.toNat
      if (inp[x.fed]?) = some w && last = decide (x.fed + 1 = inp.length) && (streamFed x || decide (x.sin.length < 32)) then
        let x := { x with fed := x.fed + 1, inDone := last }
        match x.blk with
        | some b =>
          if b.op = 0x1D then unblock e (takeIn b.gd w x) s else putEng e { x with sin := x.sin ++ [w] } s
        | none => putEng e { x with sin := x.sin ++ [w] } s
      else s

/-- SOUT: cause 2 for a guarded register; it blocks without credit (R202). -/
def soutInstr (ga : BitVec 5) : Job → Engine → State → Act × State :=
  pureInstr fun x =>
    if rgG x ga then .trap 2 0
    else if x.credit = 0 then .block x { op := 0x1E, ga := ga }
    else .seq { x with sout := x.sout ++ [rg x ga], credit := x.credit - 1 }

/-- Credit returns as the oldest word leaves the queue; a blocked SOUT completes (R179). -/
def streamOut (e : Nat) (s : State) : State :=
  match eng? s e with
  | none => s
  | some x =>
    match x.sout with
    | [] => s
    | w :: t =>
      let s := sendWords x [w] s
      let x := { x with sout := t, credit := x.credit + 1 }
      match x.blk with
      | some b =>
        if b.op = 0x1E then unblock e { x with sout := x.sout ++ [rg x b.ga], credit := x.credit - 1 } s
        else putEng e x s
      | none => putEng e x s

/-- LDW. -/
def execILdw (e : Fin 1024) (gd ga : BitVec 5) (off : BitVec 8) (s : State) : Host.Outcome State Fault Refusal :=
  .next (issue e (ldwInstr gd ga off) s)

/-- STW. -/
def execIStw (e : Fin 1024) (gd ga : BitVec 5) (off : BitVec 8) (s : State) : Host.Outcome State Fault Refusal :=
  .next (issue e (stwInstr gd ga off) s)

/-- LDP. -/
def execILdp (e : Fin 1024) (gd ga : BitVec 5) (stp : BitVec 8) (s : State) : Host.Outcome State Fault Refusal :=
  .next (issue e (ldpInstr gd ga stp) s)

/-- STP. -/
def execIStp (e : Fin 1024) (gd ga : BitVec 5) (stp : BitVec 8) (s : State) : Host.Outcome State Fault Refusal :=
  .next (issue e (stpInstr gd ga stp) s)

/-- SIN. -/
def execISin (e : Fin 1024) (gd : BitVec 5) (s : State) : Host.Outcome State Fault Refusal :=
  .next (issue e (sinInstr gd) s)

/-- STREAM_IN_WORD. -/
def execStreamInWord (e : Fin 1024) (w : BitVec 24) (last : Bool) (s : State) : Host.Outcome State Fault Refusal :=
  .next (streamIn e.val w last s)

/-- SOUT. -/
def execISout (e : Fin 1024) (ga : BitVec 5) (s : State) : Host.Outcome State Fault Refusal :=
  .next (issue e (soutInstr ga) s)

/-- STREAM_OUT_CREDIT. -/
def execStreamOutCredit (e : Fin 1024) (s : State) : Host.Outcome State Fault Refusal := .next (streamOut e.val s)

end Sys2Proof.Machine
end

