-- ==== Sys2Proof/Machine/Accel.lean ====
section
/-! DEFINITION. The meanings of the accelerator commands (chapters 07 and 08, R175, R176, R209 to R211): the checks at
issue, when the engine blocks, and what the unit does by the command's end. -/

namespace Sys2Proof.Machine

/-- The words a number of bytes takes (R209). -/
def wordsFor (n : Nat) : Nat := (n + 2) / 3

/-- The whole range of a command's words lies in the job's pages (R209). -/
def rangeOk (j : Job) (a : BitVec 24) (n : Nat) : Bool :=
  let w := wordsFor n
  w = 0 || (decide (a.toNat + w ≤ 2 ^ 24) && (pageAt j a).isSome &&
    (pageAt j (a + BitVec.ofNat 24 (w - 1))).map (·.2) == (pageAt j a).map (·.2))

/-- The check of a source of `n` bytes: the trap cause, 0 for none. -/
def srcCause (j : Job) (x : Engine) (ga : BitVec 5) (n : Nat) : Nat :=
  if ga = 0#5 || rangeOk j (rg x ga) n then 0 else 3

/-- The check of a destination of `n` bytes, guarded or not: the trap cause, 0 for none (R176, R209). -/
def dstCause (j : Job) (x : Engine) (gd : BitVec 5) (n : Nat) (guarded : Bool) : Nat :=
  if n = 0 then 0
  else if gd = 0#5 then (if guarded then 2 else 0)
  else if !rangeOk j (rg x gd) n then 3
  else if guarded && (pageAt j (rg x gd)).map (·.2) == some false then 1
  else 0

/-- The first cause that is not 0. -/
def firstCause (l : List Nat) : Nat := (l.find? (· ≠ 0)).getD 0

/-- A unit's command: the checks at issue, else the engine blocks until the command is done (R209). -/
def accel (b : Blocked) (check : Job → Engine → Cluster → Nat) (e : Fin 1024) : Job → Engine → State → Act × State :=
  fun j x s =>
    match check j x (cluster s (e.val / 16)) with
    | 0 => (.block x b, s)
    | c => (.trap c 0, s)

/-- The rate in bytes of a Keccak mode (R210). -/
def kckRate (m : Nat) : Nat := match m with | 1 => 104 | 2 => 168 | _ => 136

/-- The padding byte of a Keccak mode (R210). -/
def kckDom (m : Nat) : Byte := if m ≤ 1 then 0x06#8 else if m ≤ 3 then 0x1F#8 else 0x04#8

/-- KCK INIT: a mode of the list (R210, R211). -/
def kckInitCheck (ga : BitVec 5) : Job → Engine → Cluster → Nat := fun _ x _ => if (rg x ga).toNat ≤ 4 then 0 else 10

/-- KCK ABSORB: after INIT, before FINAL (R210). -/
def kckAbsorbCheck (e : Nat) (ga gb : BitVec 5) : Job → Engine → Cluster → Nat := fun j x c =>
  match heldK c e with
  | some k => if k.ph == .absorbing then srcCause j x ga (rg x gb).toNat else 10
  | none => 10

/-- KCK FINAL: once after INIT (R210). -/
def kckFinalCheck (e : Nat) : Job → Engine → Cluster → Nat := fun _ _ c =>
  match heldK c e with
  | some k => if k.ph == .absorbing then 0 else 10
  | none => 10

/-- The most bytes a Keccak mode squeezes (R210). -/
def kckLimit (m : Nat) : Option Nat := match m with | 0 => some 32 | 1 => some 48 | _ => none

/-- KCK SQUEEZE: after FINAL, within the digest for modes 0 and 1 (R210). -/
def kckSqueezeCheck (e : Nat) (gd gb : BitVec 5) : Job → Engine → Cluster → Nat := fun j x c =>
  match heldK c e with
  | some k =>
    let n := (rg x gb).toNat
    if k.ph == .squeezing && ((kckLimit k.mode).map fun l => decide (k.out + n ≤ l)).getD true then dstCause j x gd n k.guarded
    else 10
  | none => 10

/-- A RELEASE: the unit is held (R210). -/
def heldCheck {α : Type} (held : Cluster → Option α) : Job → Engine → Cluster → Nat := fun _ _ c =>
  if (held c).isSome then 0 else 10

/-- SHA INIT: a mode of the list (R210). -/
def shaInitCheck (ga : BitVec 5) : Job → Engine → Cluster → Nat := fun _ x _ => if (rg x ga).toNat ≤ 1 then 0 else 10

/-- SHA ABSORB (R210). -/
def shaAbsorbCheck (e : Nat) (ga gb : BitVec 5) : Job → Engine → Cluster → Nat := fun j x c =>
  match heldS c e with
  | some k => if k.ph == .absorbing then srcCause j x ga (rg x gb).toNat else 10
  | none => 10

/-- The digest bytes of a SHA-2 mode. -/
def shaLen (m : Nat) : Nat := if m = 0 then 32 else 48

/-- SHA FINAL: once after INIT (R210). -/
def shaFinalCheck (e : Nat) (gd : BitVec 5) : Job → Engine → Cluster → Nat := fun j x c =>
  match heldS c e with
  | some k => if k.ph == .absorbing then dstCause j x gd (shaLen k.mode) k.guarded else 10
  | none => 10

/-- The output of the AES unit is guarded, except for a ROM program of AEAD_SEAL or AEAD_OPEN (R176). -/
def aesGuard (j : Job) : Bool := !(progId j = 0x050 || progId j = 0x051)

/-- AES INIT: a key is loaded, a mode of the list, and the 16-byte block (R210, R211). -/
def aesInitCheck (e : Nat) (ga gb : BitVec 5) : Job → Engine → Cluster → Nat := fun j x c =>
  match heldA c e with
  | some a => if a.key.isSome && decide ((rg x ga).toNat ≤ 1) then srcCause j x gb 16 else 10
  | none => 10

/-- AES AAD: GCM, after INIT, before any ENC or DEC (R210). -/
def aesAadCheck (e : Nat) (ga gb : BitVec 5) : Job → Engine → Cluster → Nat := fun j x c =>
  match heldA c e with
  | some a => if !a.ctr && (a.ph == .ready || a.ph == .aad) then srcCause j x ga (rg x gb).toNat else 10
  | none => 10

/-- AES ENC and DEC: after INIT, one direction in a message, a GCM text of at most 2^36 - 32 bytes (R210, R211). -/
def aesTextCheck (e : Nat) (dir : Nat) (gd ga gb : BitVec 5) : Job → Engine → Cluster → Nat := fun j x c =>
  match heldA c e with
  | some a =>
    let n := (rg x gb).toNat
    if (a.ph == .ready || a.ph == .aad || (a.ph == .text && a.dir = dir)) &&
        (a.ctr || decide (a.ct.length + n ≤ 2 ^ 36 - 32)) then
      firstCause [srcCause j x ga n, dstCause j x gd n (aesGuard j)]
    else 10
  | none => 10

/-- AES TAG: GCM, in a message (R210, R211). -/
def aesTagCheck (e : Nat) (gd : BitVec 5) : Job → Engine → Cluster → Nat := fun j x c =>
  match heldA c e with
  | some a =>
    if !a.ctr && (a.ph == .ready || a.ph == .aad || a.ph == .text) then dstCause j x gd 16 (aesGuard j) else 10
  | none => 10

/-- What a command reads: the bytes, whether a word was guarded, and the engine after. -/
inductive Input where
  /-- the words are not all there yet -/
  | wait
  /-- the stream ends too soon, or a word's parity fails on a page -/
  | trap (cause : Nat) (page : Option (Fin 128))
  /-- the bytes, guarded or not, and the engine -/
  | bytes (b : Bytes) (guarded : Bool) (x : Engine)

/-- The words of a memory range. -/
def rangeWords (s : State) (j : Job) (a : BitVec 24) (n : Nat) : List (BitVec 27 × Fin 128 × Bool) :=
  (List.range (wordsFor n)).filterMap fun i => memAt s j (a + BitVec.ofNat 24 i)

/-- Read a source of `n` bytes, from the stream-in queue or the job's pages (R175, R211, R172). -/
def readSrc (s : State) (j : Job) (x : Engine) (ga : BitVec 5) (n : Nat) : Input :=
  if ga = 0#5 then
    let w := wordsFor n
    if x.sin.length < w then (if x.inDone then .trap 10 none else .wait)
    else .bytes (((x.sin.take w).flatMap wordBytes).take n) false { x with sin := x.sin.drop w }
  else
    let ws := rangeWords s j (rg x ga) n
    match ws.find? fun w => !wordOk w.1 with
    | some w => .trap 4 (some w.2.1)
    | none => .bytes ((ws.flatMap fun w => wordBytes (wordVal w.1)).take n) (ws.any fun w => w.2.2 && wordG w.1) x

/-- Write a destination: bytes packed three to a word (R180, R209). To the stream they follow what the engine sent. -/
def writeOut (j : Job) (gd : BitVec 5) (b : Bytes) (guarded : Bool) (x : Engine) (s : State) : Engine × State :=
  let ws := packWords b
  if gd = 0#5 then ({ x with sout := [], credit := 32 }, sendWords x (x.sout ++ ws) s)
  else
    let a := rg x gd
    (x, ((List.range ws.length).zip ws).foldl (fun s p => memPut j (a + BitVec.ofNat 24 p.1) p.2 guarded s) s)

/-- Change the Keccak unit an engine holds. -/
def modK (e : Nat) (f : Kck → Kck) (c : Cluster) : Cluster :=
  if c.k0.owner = some e then { c with k0 := f c.k0 } else if c.k1.owner = some e then { c with k1 := f c.k1 } else c

/-- Change the SHA-2 unit an engine holds. -/
def modS (e : Nat) (f : Sha → Sha) (c : Cluster) : Cluster :=
  if c.s0.owner = some e then { c with s0 := f c.s0 } else if c.s1.owner = some e then { c with s1 := f c.s1 } else c

/-- Change the AES unit an engine holds. -/
def modA (e : Nat) (f : Aes → Aes) (c : Cluster) : Cluster := if c.a0.owner = some e then { c with a0 := f c.a0 } else c

/-- A Keccak unit is held by the engine, or claimed now if one is free (R175, R209). -/
def claimK (e : Nat) (c : Cluster) : Option Cluster :=
  if (heldK c e).isSome then some c
  else if c.k0.owner.isNone then some { c with k0 := { owner := some e } }
  else if c.k1.owner.isNone then some { c with k1 := { owner := some e } }
  else none

/-- As above, for SHA-2. -/
def claimS (e : Nat) (c : Cluster) : Option Cluster :=
  if (heldS c e).isSome then some c
  else if c.s0.owner.isNone then some { c with s0 := { owner := some e } }
  else if c.s1.owner.isNone then some { c with s1 := { owner := some e } }
  else none

/-- As above, for the AES unit. -/
def claimA (e : Nat) (c : Cluster) : Option Cluster :=
  if (heldA c e).isSome then some c
  else if c.a0.owner.isNone then some { c with a0 := { owner := some e } }
  else none

/-- Put a cluster back. -/
def setCluster (c : Fin 64) (x : Cluster) (s : State) : State := modCluster c (fun _ => x) s

/-- A Keccak command's effect on its unit, with the bytes it writes and the blocks it permutes (R210). -/
def kckDo (mod n : Nat) (b : Bytes) (g : Bool) (k : Kck) : Kck × Bytes × Nat :=
  let r := kckRate k.mode
  match mod with
  | 1 =>
    let (a, p) := kckAbsorbBytes r b (k.lanes, k.pos)
    ({ k with lanes := a, pos := p, guarded := k.guarded || g }, [], (k.pos + n) / r)
  | 2 => ({ k with lanes := kckPad r (kckDom k.mode) k.lanes k.pos, pos := 0, out := 0, ph := .squeezing }, [], 1)
  | _ =>
    let (o, a, p) := kckSqueezeBytes r n (k.lanes, k.pos)
    ({ k with lanes := a, pos := p, out := k.out + n }, o, (k.pos + n - 1) / r)

/-- A SHA-2 command's effect on its unit (R210). -/
def shaDo (mod : Nat) (b : Bytes) (g : Bool) (k : Sha) : Sha × Bytes × Nat :=
  let bl := if k.mode = 0 then 64 else 128
  match mod with
  | 1 => ({ k with msg := k.msg ++ b, guarded := k.guarded || g }, [], (k.msg.length % bl + b.length) / bl)
  | _ =>
    ({ k with ph := .ended }, if k.mode = 0 then sha256 k.msg else sha384 k.msg,
      (k.msg.length % bl + 1 + bl / 8 + bl - 1) / bl)

/-- The counter stream of an AES message, `n` bytes from where its text stands (R210). -/
def aesKs (a : Aes) (n : Nat) : Bytes :=
  let c := if a.ctr then a.iv else a.iv.take 12 ++ beBytes 4 2
  (aesCtr (a.key.getD []) c (List.replicate (a.ct.length + n) 0#8)).drop a.ct.length

/-- An AES command's effect on its unit (R210); `m` is the mode that INIT takes. -/
def aesDo (mod m : Nat) (b : Bytes) (g : Bool) (a : Aes) : Aes × Bytes × Nat :=
  let n := b.length
  let blocks := (a.ct.length % 16 + n) / 16
  match mod with
  | 0 => ({ a with ph := .ready, ctr := m = 1, iv := b, aad := [], ct := [], dir := 0, guarded := a.guarded || g }, [], 0)
  | 1 => ({ a with ph := .aad, aad := a.aad ++ b, guarded := a.guarded || g }, [], (a.aad.length % 16 + n) / 16)
  | 2 =>
    let o := xorBytes b (aesKs a n)
    ({ a with ph := .text, dir := 1, ct := a.ct ++ o, guarded := a.guarded || g }, o, blocks)
  | 3 => ({ a with ph := .text, dir := 2, ct := a.ct ++ b, guarded := a.guarded || g }, xorBytes b (aesKs a n), blocks)
  | _ => ({ a with ph := .ended }, gcmTag (a.key.getD []) (a.iv.take 12) a.aad a.ct, 1)

/-- The source operand and the byte count of a command (R210). -/
def cmdSource (b : Blocked) (x : Engine) : BitVec 5 × Nat :=
  if b.op = 0x21 && b.mod = 0#8 then (b.gb, 16)
  else if b.mod = 1#8 || (b.op = 0x21 && (b.mod = 2#8 || b.mod = 3#8)) then (b.ga, (rg x b.gb).toNat)
  else (31#5, 0)

/-- A unit's command takes effect on the cluster's unit: the cluster after, the output, its guard, and what the blocks
count as (R441). -/
def unitDo (e : Nat) (j : Job) (x : Engine) (b : Blocked) (inp : Bytes) (g : Bool) (c : Cluster) :
    Cluster × Bytes × Bool × Nat × Nat :=
  let n := (rg x b.gb).toNat
  let rel := b.mod = 7#8
  if b.op = 0x1F then match heldK c e with
    | some k =>
      if rel then (modK e (fun _ => {}) c, [], false, 0, 468)
      else if b.mod = 0#8 then
        (modK e (fun k => { owner := some e, ph := .absorbing, mode := (rg x b.ga).toNat, guarded := k.guarded }) c, [], false,
          0, 468)
      else
        let (k', o, t) := kckDo b.mod.toNat n inp g k
        (modK e (fun _ => k') c, o, k.guarded, t, 468)
    | none => (c, [], false, 0, 468)
  else if b.op = 0x20 then match heldS c e with
    | some k =>
      if rel then (modS e (fun _ => {}) c, [], false, 0, 469)
      else if b.mod = 0#8 then
        (modS e (fun k => { owner := some e, ph := .absorbing, mode := (rg x b.ga).toNat, guarded := k.guarded }) c, [], false,
          0, 469)
      else
        let (k', o, t) := shaDo b.mod.toNat inp g k
        (modS e (fun _ => k') c, o, k.guarded, t, 469)
    | none => (c, [], false, 0, 469)
  else match heldA c e with
    | some a =>
      if rel then (modA e (fun _ => {}) c, [], false, 0, 470)
      else
        let (a', o, t) := aesDo b.mod.toNat (rg x b.ga).toNat inp g a
        (modA e (fun _ => a') c, o, aesGuard j, t, 470)
    | none => (c, [], false, 0, 470)

/-- The unit a command claims where it is an INIT (R209). -/
def claimFor (e : Nat) (b : Blocked) (c : Cluster) : Option Cluster :=
  if b.mod ≠ 0#8 then some c
  else if b.op = 0x1F then claimK e c
  else if b.op = 0x20 then claimS e c
  else claimA e c

/-- The unit has taken all of a command's input and written all of its output (R209): the engine goes on. An INIT waits
while every unit of the type is held (R175). -/
def accelDone (e : Nat) (s : State) : State :=
  match eng? s e with
  | none => s
  | some x => match x.blk, job? s x.job with
    | some b, some j =>
      if b.op < 0x1F || 0x21 < b.op then s
      else match claimFor e b s.pln.clusters[clOf e] with
        | none => s
        | some c =>
          let (ga, n) := cmdSource b x
          match (if n = 0 then .bytes [] false x else readSrc s j x ga n) with
          | .wait => s
          | .trap cause page =>
            let s := (page.map fun p => ev 0x7020#16 (e / 16) p.val 0 s).getD s
            jobTrap e cause 0 s
          | .bytes inp g y =>
            let (c, o, og, t, ctr) := unitDo e j y b inp g c
            let s := pmcAdd ctr t (setCluster (clOf e) c s)
            let (y, s) := if o.isEmpty then (y, s) else writeOut j b.gd o og y s
            unblock e y s
    | _, _ => s

/-- ACCEL_COMMAND_DONE. -/
def execAccelCommandDone (e : Fin 1024) (s : State) : Host.Outcome State Fault Refusal := .next (accelDone e.val s)

/-- KCK_INIT. -/
def execKckInit (e : Fin 1024) (ga : BitVec 5) (s : State) : Host.Outcome State Fault Refusal :=
  .next (issue e (accel ⟨0x1F, 0#5, ga, 0#5, 0#8⟩ (kckInitCheck ga) e) s)

/-- KCK_ABSORB. -/
def execKckAbsorb (e : Fin 1024) (ga gb : BitVec 5) (s : State) : Host.Outcome State Fault Refusal :=
  .next (issue e (accel ⟨0x1F, 0#5, ga, gb, 1#8⟩ (kckAbsorbCheck e.val ga gb) e) s)

/-- KCK_FINAL. -/
def execKckFinal (e : Fin 1024) (s : State) : Host.Outcome State Fault Refusal :=
  .next (issue e (accel ⟨0x1F, 0#5, 0#5, 0#5, 2#8⟩ (kckFinalCheck e.val) e) s)

/-- KCK_SQUEEZE. -/
def execKckSqueeze (e : Fin 1024) (gd gb : BitVec 5) (s : State) : Host.Outcome State Fault Refusal :=
  .next (issue e (accel ⟨0x1F, gd, 0#5, gb, 3#8⟩ (kckSqueezeCheck e.val gd gb) e) s)

/-- KCK_RELEASE. -/
def execKckRelease (e : Fin 1024) (s : State) : Host.Outcome State Fault Refusal :=
  .next (issue e (accel ⟨0x1F, 0#5, 0#5, 0#5, 7#8⟩ (heldCheck fun c => heldK c e.val) e) s)

/-- SHA_INIT. -/
def execShaInit (e : Fin 1024) (ga : BitVec 5) (s : State) : Host.Outcome State Fault Refusal :=
  .next (issue e (accel ⟨0x20, 0#5, ga, 0#5, 0#8⟩ (shaInitCheck ga) e) s)

/-- SHA_ABSORB. -/
def execShaAbsorb (e : Fin 1024) (ga gb : BitVec 5) (s : State) : Host.Outcome State Fault Refusal :=
  .next (issue e (accel ⟨0x20, 0#5, ga, gb, 1#8⟩ (shaAbsorbCheck e.val ga gb) e) s)

/-- SHA_FINAL. -/
def execShaFinal (e : Fin 1024) (gd : BitVec 5) (s : State) : Host.Outcome State Fault Refusal :=
  .next (issue e (accel ⟨0x20, gd, 0#5, 0#5, 2#8⟩ (shaFinalCheck e.val gd) e) s)

/-- SHA_RELEASE. -/
def execShaRelease (e : Fin 1024) (s : State) : Host.Outcome State Fault Refusal :=
  .next (issue e (accel ⟨0x20, 0#5, 0#5, 0#5, 7#8⟩ (heldCheck fun c => heldS c e.val) e) s)

/-- AES_INIT. -/
def execAesInit (e : Fin 1024) (ga gb : BitVec 5) (s : State) : Host.Outcome State Fault Refusal :=
  .next (issue e (accel ⟨0x21, 0#5, ga, gb, 0#8⟩ (aesInitCheck e.val ga gb) e) s)

/-- AES_AAD. -/
def execAesAad (e : Fin 1024) (ga gb : BitVec 5) (s : State) : Host.Outcome State Fault Refusal :=
  .next (issue e (accel ⟨0x21, 0#5, ga, gb, 1#8⟩ (aesAadCheck e.val ga gb) e) s)

/-- AES_ENC. -/
def execAesEnc (e : Fin 1024) (gd ga gb : BitVec 5) (s : State) : Host.Outcome State Fault Refusal :=
  .next (issue e (accel ⟨0x21, gd, ga, gb, 2#8⟩ (aesTextCheck e.val 1 gd ga gb) e) s)

/-- AES_DEC. -/
def execAesDec (e : Fin 1024) (gd ga gb : BitVec 5) (s : State) : Host.Outcome State Fault Refusal :=
  .next (issue e (accel ⟨0x21, gd, ga, gb, 3#8⟩ (aesTextCheck e.val 2 gd ga gb) e) s)

/-- AES_TAG. -/
def execAesTag (e : Fin 1024) (gd : BitVec 5) (s : State) : Host.Outcome State Fault Refusal :=
  .next (issue e (accel ⟨0x21, gd, 0#5, 0#5, 4#8⟩ (aesTagCheck e.val gd) e) s)

/-- AES_RELEASE. -/
def execAesRelease (e : Fin 1024) (s : State) : Host.Outcome State Fault Refusal :=
  .next (issue e (accel ⟨0x21, 0#5, 0#5, 0#5, 7#8⟩ (heldCheck fun c => heldA c e.val) e) s)

end Sys2Proof.Machine
end

