-- ==== Sys2Proof/Machine/Alu.lean ====
section
/-! DEFINITION. The meanings of the engine's arithmetic and logic instructions (chapter 08, R199, R200). -/

namespace Sys2Proof.Machine

/-- The shifts: left, right, and arithmetic right, by five bits (R199). -/
def shl24 (a : BitVec 24) (n : Nat) : BitVec 24 := if n ≥ 24 then 0#24 else a <<< n
/-- Logical right shift. -/
def shr24 (a : BitVec 24) (n : Nat) : BitVec 24 := if n ≥ 24 then 0#24 else a >>> n
/-- Arithmetic right shift; 24 and above act as 23. -/
def sra24 (a : BitVec 24) (n : Nat) : BitVec 24 := a.sshiftRight (min n 23)
/-- The shift amount of a T-format shift. -/
def shamt (b : BitVec 24) : Nat := b.toNat % 32

/-- The Montgomery product: a × b × 2^-24 mod m, with 2^-24 as the 24th power of the inverse of 2, (m + 1) / 2 (R198). -/
def montMul (m a b : Nat) : Nat := a * b * ((m + 1) / 2) ^ 24 % m

/-- a - b mod m. -/
def subMod (m a b : Nat) : Nat := (((a : Int) - b) % m).toNat

/-- BFLY's two results, for gd and ga (R200). -/
def bfly (inv : Bool) (m x y w : Nat) : Nat × Nat :=
  if inv then ((x + y) % m, montMul m (subMod m x y) w)
  else
    let t := montMul m y w
    ((x + t) % m, subMod m x t)

/-- BFLY (R193, R200): cause 8 where gd and ga name one register other than g0. -/
def bflyInstr (inv : Bool) (gd ga gb : BitVec 5) : Job → Engine → State → Act × State :=
  modular fun x =>
    if gd = ga && gd != 0#5 then .trap 8 0
    else
      let g := rgG x gd || rgG x ga || rgG x gb || x.mqG
      let (a, b) := bfly inv x.mq.toNat (rg x gd).toNat (rg x ga).toNat (rg x gb).toNat
      .seq (wr ga (BitVec.ofNat 24 b) g (wr gd (BitVec.ofNat 24 a) g x))

/-- SHLI and SHRI: imm8[7:5] must be zero, else cause 8 (R199). -/
def shiftImm (gd ga : BitVec 5) (imm : BitVec 8) (f : BitVec 24 → Nat → BitVec 24) : Job → Engine → State → Act × State :=
  pureInstr fun x => if imm.toNat ≥ 32 then .trap 8 0 else .seq (wr gd (f (rg x ga) imm.toNat) (rgG x ga) x)

/-- CSEL: ga where C is set, else gb; guarded if ga, gb or C is (R199). -/
def cselInstr (gd ga gb : BitVec 5) : Job → Engine → State → Act × State :=
  pureInstr fun x => .seq (wr gd (if x.c then rg x ga else rg x gb) (rgG x ga || rgG x gb || x.cG) x)

/-- LDHI: the high 13 bits, the low 11 kept; guarded if gd was (R199). -/
def ldhiInstr (gd : BitVec 5) (imm : BitVec 13) : Job → Engine → State → Act × State :=
  pureInstr fun x => .seq (wr gd (imm ++ (rg x gd).setWidth 11) (rgG x gd) x)

/-- ADD. -/
def execIAdd (e : Fin 1024) (gd ga gb : BitVec 5) (s : State) : Host.Outcome State Fault Refusal :=
  .next (issue e (alu3 gd ga gb (· + ·)) s)

/-- SUB. -/
def execISub (e : Fin 1024) (gd ga gb : BitVec 5) (s : State) : Host.Outcome State Fault Refusal :=
  .next (issue e (alu3 gd ga gb (· - ·)) s)

/-- AND. -/
def execIAnd (e : Fin 1024) (gd ga gb : BitVec 5) (s : State) : Host.Outcome State Fault Refusal :=
  .next (issue e (alu3 gd ga gb (· &&& ·)) s)

/-- OR. -/
def execIOr (e : Fin 1024) (gd ga gb : BitVec 5) (s : State) : Host.Outcome State Fault Refusal :=
  .next (issue e (alu3 gd ga gb (· ||| ·)) s)

/-- XOR. -/
def execIXor (e : Fin 1024) (gd ga gb : BitVec 5) (s : State) : Host.Outcome State Fault Refusal :=
  .next (issue e (alu3 gd ga gb (· ^^^ ·)) s)

/-- SHL. -/
def execIShl (e : Fin 1024) (gd ga gb : BitVec 5) (s : State) : Host.Outcome State Fault Refusal :=
  .next (issue e (alu3 gd ga gb fun a b => shl24 a (shamt b)) s)

/-- SHR. -/
def execIShr (e : Fin 1024) (gd ga gb : BitVec 5) (s : State) : Host.Outcome State Fault Refusal :=
  .next (issue e (alu3 gd ga gb fun a b => shr24 a (shamt b)) s)

/-- SRA. -/
def execISra (e : Fin 1024) (gd ga gb : BitVec 5) (s : State) : Host.Outcome State Fault Refusal :=
  .next (issue e (alu3 gd ga gb fun a b => sra24 a (shamt b)) s)

/-- SLTU. -/
def execISltu (e : Fin 1024) (gd ga gb : BitVec 5) (s : State) : Host.Outcome State Fault Refusal :=
  .next (issue e (alu3 gd ga gb fun a b => if a.toNat < b.toNat then 1#24 else 0#24) s)

/-- CSEL. -/
def execICsel (e : Fin 1024) (gd ga gb : BitVec 5) (s : State) : Host.Outcome State Fault Refusal :=
  .next (issue e (cselInstr gd ga gb) s)

/-- ADDI. -/
def execIAddi (e : Fin 1024) (gd ga : BitVec 5) (imm : BitVec 8) (s : State) : Host.Outcome State Fault Refusal :=
  .next (issue e (alu2 gd ga (· + sext8 imm)) s)

/-- ANDI. -/
def execIAndi (e : Fin 1024) (gd ga : BitVec 5) (imm : BitVec 8) (s : State) : Host.Outcome State Fault Refusal :=
  .next (issue e (alu2 gd ga (· &&& zext8 imm)) s)

/-- ORI. -/
def execIOri (e : Fin 1024) (gd ga : BitVec 5) (imm : BitVec 8) (s : State) : Host.Outcome State Fault Refusal :=
  .next (issue e (alu2 gd ga (· ||| zext8 imm)) s)

/-- SHLI. -/
def execIShli (e : Fin 1024) (gd ga : BitVec 5) (imm : BitVec 8) (s : State) : Host.Outcome State Fault Refusal :=
  .next (issue e (shiftImm gd ga imm shl24) s)

/-- SHRI. -/
def execIShri (e : Fin 1024) (gd ga : BitVec 5) (imm : BitVec 8) (s : State) : Host.Outcome State Fault Refusal :=
  .next (issue e (shiftImm gd ga imm shr24) s)

/-- LDI. -/
def execILdi (e : Fin 1024) (gd : BitVec 5) (imm : BitVec 13) (s : State) : Host.Outcome State Fault Refusal :=
  .next (issue e (pureInstr fun x => .seq (wr gd (imm.setWidth 24) false x)) s)

/-- LDHI. -/
def execILdhi (e : Fin 1024) (gd : BitVec 5) (imm : BitVec 13) (s : State) : Host.Outcome State Fault Refusal :=
  .next (issue e (ldhiInstr gd imm) s)

/-- ADDC. -/
def execIAddc (e : Fin 1024) (gd ga gb : BitVec 5) (s : State) : Host.Outcome State Fault Refusal :=
  .next (issue e (pureInstr fun x => .seq (addChain false gd ga gb x)) s)

/-- ADDC_S. -/
def execIAddcS (e : Fin 1024) (gd ga gb : BitVec 5) (s : State) : Host.Outcome State Fault Refusal :=
  .next (issue e (pureInstr fun x => .seq (addChain true gd ga gb x)) s)

/-- SUBB. -/
def execISubb (e : Fin 1024) (gd ga gb : BitVec 5) (s : State) : Host.Outcome State Fault Refusal :=
  .next (issue e (pureInstr fun x => .seq (subChain false gd ga gb x)) s)

/-- SUBB_S. -/
def execISubbS (e : Fin 1024) (gd ga gb : BitVec 5) (s : State) : Host.Outcome State Fault Refusal :=
  .next (issue e (pureInstr fun x => .seq (subChain true gd ga gb x)) s)

/-- MULLO. -/
def execIMullo (e : Fin 1024) (gd ga gb : BitVec 5) (s : State) : Host.Outcome State Fault Refusal :=
  .next (issue e (alu3 gd ga gb (· * ·)) s)

/-- MULHI. -/
def execIMulhi (e : Fin 1024) (gd ga gb : BitVec 5) (s : State) : Host.Outcome State Fault Refusal :=
  .next (issue e (alu3 gd ga gb fun a b => BitVec.ofNat 24 (a.toNat * b.toNat / 2 ^ 24)) s)

/-- MMUL. -/
def execIMmul (e : Fin 1024) (gd ga gb : BitVec 5) (s : State) : Host.Outcome State Fault Refusal :=
  .next (issue e (mod3 gd ga gb montMul) s)

/-- MADD. -/
def execIMadd (e : Fin 1024) (gd ga gb : BitVec 5) (s : State) : Host.Outcome State Fault Refusal :=
  .next (issue e (mod3 gd ga gb fun m a b => (a + b) % m) s)

/-- MSUB. -/
def execIMsub (e : Fin 1024) (gd ga gb : BitVec 5) (s : State) : Host.Outcome State Fault Refusal :=
  .next (issue e (mod3 gd ga gb subMod) s)

/-- BFLY. -/
def execIBfly (e : Fin 1024) (gd ga gb : BitVec 5) (s : State) : Host.Outcome State Fault Refusal :=
  .next (issue e (bflyInstr false gd ga gb) s)

/-- BFLY_I. -/
def execIBflyI (e : Fin 1024) (gd ga gb : BitVec 5) (s : State) : Host.Outcome State Fault Refusal :=
  .next (issue e (bflyInstr true gd ga gb) s)

end Sys2Proof.Machine
end

