-- ==== Sys2Proof/Machine/Policyop.lean ====
section
/-! DEFINITION. Runtime writes of configuration fields (chapter 05, R133 to R136): what is refused, what is clamped, and
the LIVE writes that wait. -/

namespace Sys2Proof.Machine

/-- How a configuration field may be written at runtime (R129). -/
inductive FieldKind where
  /-- by the record alone -/
  | fixed
  /-- at once -/
  | rw
  /-- at once, where RWL_MASK permits its section -/
  | rwl
  /-- at the block's next idle point; static in a frozen section -/
  | live
deriving DecidableEq, Repr

/-- A write is ignored: event 0x5010, and BOOT_CFG_LASTREJ (R134). -/
def rejectWrite (off : Nat) (v : BitVec 32) (cause : Nat) (s : State) : State :=
  raise 0x5010#16 (p32 off) v (p32 cause) (s.modBoot fun b => { b with
    rejOffset := BitVec.ofNat 26 off, rejCause := BitVec.ofNat 3 cause })

/-- The cause for which R134 refuses a write of a field of a section, 0 for none. -/
def writeCause (k : FieldKind) (sec : Nat) (s : State) : Nat :=
  if s.glb.sealedDefaults then 3
  else match k with
    | .fixed => 1
    | .live => if sec ∈ s.boot.freeze then 1 else 0
    | .rwl => if s.boot.rwl.getLsbD (sec / 16) then 0 else 2
    | .rw => 0

/-- Write a configuration field where R134 permits it. -/
def cfgWrite (k : FieldKind) (sec off : Nat) (v : BitVec 32) (f : State → State) (s : State) : State :=
  match writeCause k sec s with
  | 0 => f s
  | c => rejectWrite off v c s

/-- A value clamped before it is applied is logged (R135). -/
def noteClamp (off : Nat) (v eff : BitVec 32) (s : State) : State :=
  if v = eff then s else raise 0x5012#16 (p32 off) v eff s

/-- A LIVE write waits for the block's idle point; a second replaces the first (R133). -/
def pendLive (off : Nat) (v : BitVec 32) (s : State) : State :=
  s.modBoot fun b => { b with live := assocPut b.live off v }

/-- A LIVE write is applied: event 0x5017 (R133). -/
def appliedLive (off : Nat) (v : BitVec 32) (s : State) : State :=
  raise 0x5017#16 (p32 off) v 0#32 (s.modBoot fun b => { b with live := assocDel b.live off })

end Sys2Proof.Machine
end

