-- ==== Sys2Proof/Machine/Record.lean ====
section
/-! DEFINITION. The configuration record (chapter 05 and the section layouts of chapters 06, 10 to 16): the checks of a copy,
its fields, and the clamp to the fuse ceiling. -/

namespace Sys2Proof.Machine

/-- CRC-64 of the trailer (R123). -/
def crc64 (b : Bytes) : BitVec 64 := ~~~(crcR 0xC96C5795D7870F42#64 0xFFFFFFFFFFFFFFFF#64 b)

/-- The built-in opcode table (R287): class + 16 × address field + 64 × dummy + 2048 × NOADDR_ACT + 8192 × EREG. -/
def builtinEntry (op : Nat) : BitVec 16 :=
  let e (c a d n r : Nat) : BitVec 16 := BitVec.ofNat 16 (c + 16 * a + 64 * d + 2048 * n + 8192 * r)
  match op with
  | 0x03 => e 1 1 0 0 0 | 0x13 => e 1 2 0 0 0
  | 0x0B => e 2 1 8 0 0 | 0x0C => e 2 2 8 0 0
  | 0x6B => e 2 1 8 0 0 | 0x6C => e 2 2 8 0 0 | 0xEB => e 2 1 6 0 0 | 0xEC => e 2 2 6 0 0
  | 0xEE => e 2 2 20 0 0
  | 0x02 => e 3 1 0 0 0 | 0x12 => e 3 2 0 0 0 | 0x32 => e 3 1 0 0 0 | 0x34 => e 3 2 0 0 0
  | 0x20 => e 4 1 0 0 0 | 0x21 => e 4 2 0 0 0 | 0xD8 => e 4 1 0 0 0 | 0xDC => e 4 2 0 0 0
  | 0x60 => e 4 0 0 1 0 | 0xC7 => e 4 0 0 1 0
  | 0x05 => e 5 0 0 2 0 | 0x70 => e 5 0 0 2 1 | 0x85 => e 5 0 0 2 2
  | 0x01 => e 6 0 0 2 0 | 0x50 => e 6 0 0 2 1 | 0x81 => e 6 0 0 2 2
  | 0x48 => e 7 1 8 0 0
  | 0x42 => e 8 1 0 0 0 | 0x44 => e 8 1 0 0 0
  | 0x9F => e 9 0 0 0 0 | 0x5A => e 9 1 8 0 0 | 0x4B => e 9 0 8 0 0
  | 0x06 => e 10 0 0 0 0 | 0x04 => e 10 0 0 0 0
  | 0x66 => e 11 0 0 0 0 | 0x99 => e 11 0 0 0 0
  | 0xB9 => e 12 0 0 0 0 | 0xAB => e 12 0 0 0 0
  | 0x75 => e 13 0 0 0 0 | 0x7A => e 13 0 0 0 0
  | _ => 0#16

/-- The opcode entry of a channel (R287). -/
def opcEntry (c : ChCfg) (op : BitVec 8) : BitVec 16 :=
  if c.ownTable then c.table.getD op.toNat 0#16 else builtinEntry op.toNat

/-- A section of a copy: ID, FLAGS, offset of its body, length of its body (R122). -/
abbrev Sec := Nat × Nat × Nat × Nat

/-- The sections of a copy, read in order; `none` at the header where the structure fails (R122). -/
def readSecs (b : Bytes) (fin : Nat) : Nat → Nat → Nat → Except Nat (List Sec)
  | 0, _, off => if off = fin then .ok [] else .error off
  | n + 1, last, off =>
    let id := leAt b off 2
    let fl := leAt b (off + 2) 2
    let len := leAt b (off + 4) 4
    if decide (off + 8 > fin) || decide (id ≤ last) || decide (fl ≥ 4) || len % 8 ≠ 0 || decide (off + 8 + len > fin) then
      .error off
    else match readSecs b fin n id (off + 8 + len) with
      | .ok l => .ok ((id, fl, off + 8, len) :: l)
      | .error e => .error e

/-- The channel blocks of section 0x0050: their offsets and lengths (R303). -/
def chanBlocks (b : Bytes) (fin : Nat) : Nat → Nat → Option (List (Nat × Nat))
  | 0, _ => some []
  | n + 1, off =>
    if off + 88 > fin then none
    else
      let len := 88 + (if leAt b (off + 14) 1 = 0xFF then 512 else 0) + 16 * leAt b (off + 8) 1
      (chanBlocks b fin n (off + len)).map ((off, len) :: ·)

/-- The layout length of a known section's body; `none` for an unknown ID, or a body too short to tell (R122, R129). -/
def secLayout (b : Bytes) (s : Sec) : Option Nat :=
  let (id, _, o, len) := s
  match id with
  | 0x10 => some 18
  | 0x20 => some 24
  | 0x30 => some 392
  | 0x40 => some 40
  | 0x50 =>
    if len < 8 then some 8
    else match chanBlocks b (o + len) (leAt b (o + 4) 1) (o + 8) with
      | some l => some (l.foldl (fun t p => t + p.2) 8)
      | none => some (len + 1)
  | 0x60 => if len < 24 then some 24 else some (24 + 32 * leAt b (o + 8) 1 + 16 * leAt b (o + 9) 1)
  | 0x70 => some 1
  | 0x80 => if len < 16 then some 16 else some (16 + 16 * leAt b (o + 8) 1)
  | 0x90 => some 112
  | 0xA0 => some 136
  | 0xB0 => some 16
  | 0xC0 => some 2
  | 0xD0 => some 4
  | _ => none

/-- The structure of every section's body: the offset of the first that fails (R122). -/
def secsBad (b : Bytes) (l : List Sec) : Option Nat :=
  l.findSome? fun s =>
    let (_, fl, o, len) := s
    match secLayout b s with
    | none => if fl % 2 = 1 then none else some (o - 8)
    | some n =>
      if len < n then some o
      else if len ≥ n + 8 then some (o + n)
      else if (slice b (o + n) (len - n)).all (· == 0#8) then none else some (o + n)

/-- The first of a list of checks that fails. -/
def firstBad (l : List (Bool × Nat)) : Option Nat := (l.find? fun p => !p.1).map (·.2)

/-- The body offset of a section, where it is present. -/
def secAt (l : List Sec) (id : Nat) : Option Nat := (l.find? fun s => s.1 = id).map fun s => s.2.2.1

/-- An option of a pin or channel number: 0xFF is none. -/
def optFin (n v : Nat) : Option (Fin n) := if h : v < n then some ⟨v, h⟩ else none

/-- A Fin of a value, 0 where it is out of range. -/
def finOf (n v : Nat) : Fin (n + 1) := if h : v < n + 1 then ⟨v, h⟩ else 0

/-- The eight bytes of an emulated register. -/
def eregOf (b : Bytes) (o : Nat) : BitVec 64 := BitVec.ofNat 64 (leAt b o 8)

/-- One channel block, its opcode table taken from an earlier block where it says so (R303). -/
def readChan (b : Bytes) (earlier : List (Nat × ChCfg)) (p : Nat × Nat) : Nat × ChCfg :=
  let o := p.1
  let from_ := leAt b (o + 14) 1
  let own := from_ = 0xFF
  let prev := (earlier.find? fun e => e.1 = from_).map (·.2)
  let rb := o + 88 + (if own then 512 else 0)
  (leAt b o 1, {
    xmode := BitVec.ofNat 2 (leAt b (o + 1) 1), layout := BitVec.ofNat 2 (leAt b (o + 2) 1)
    domain := optFin 32 (leAt b (o + 3) 1), fmax := leAt b (o + 4) 2, fdev := leAt b (o + 6) 2
    defaultAllow := leAt b (o + 9) 1 = 0, fill := BitVec.ofNat 8 (leAt b (o + 10) 1)
    ext := leAt b (o + 11) 1 = 1, wpRel := leAt b (o + 12) 1 = 1, cvHold := leAt b (o + 13) 1 = 1
    ownTable := own || (prev.map (·.ownTable)).getD false
    table := if own then (List.range 256).map fun i => BitVec.ofNat 16 (leAt b (o + 88 + 2 * i) 2)
      else (prev.map (·.table)).getD []
    commitAddr := BitVec.ofNat 32 (leAt b (o + 16) 4)
    eregInit := Vector.ofFn fun i => eregOf b (o + 24 + 8 * i.val)
    rules := (List.range (leAt b (o + 8) 1)).map fun i =>
      let q := rb + 16 * i
      { base := BitVec.ofNat 32 (leAt b q 4), limit := BitVec.ofNat 32 (leAt b (q + 4) 4)
        ops := BitVec.ofNat 6 (leAt b (q + 8) 1), action := BitVec.ofNat 2 (leAt b (q + 9) 1)
        object := optFin 64 (leAt b (q + 10) 1), contver := leAt b (q + 11) 1 % 2 = 1
        readStaged := leAt b (q + 11) 1 / 2 % 2 = 1, fill := BitVec.ofNat 8 (leAt b (q + 12) 1) } })

/-- Every channel block of a record, in order. -/
def readChans (b : Bytes) (ps : List (Nat × Nat)) : List (Nat × ChCfg) :=
  ps.foldl (fun acc p => acc ++ [readChan b acc p]) []

/-- The fields of a record (R129, R160, R272, R303, R310, R367, R394, R421); sections that are absent give the defaults. -/
def readCfg (b : Bytes) (l : List Sec) : Cfg :=
  let d : Cfg := {}
  let f (id : Nat) (g : Nat → Cfg → Cfg) (c : Cfg) : Cfg := match secAt l id with
    | some o => g o c
    | none => c
  let c : Cfg := { d with
    pinIpus := leAt b 24 2, pinClusters := leAt b 26 1, pinDma := leAt b 28 4,
    freeze := (l.filter fun s => s.2.1 / 2 % 2 = 1).map (·.1) }
  let c := f 0x10 (fun o c => { c with
    profile := BitVec.ofNat 2 (leAt b o 1), auto := BitVec.ofNat 32 (leAt b (o + 4) 4)
    therm := BitVec.ofNat 32 (leAt b (o + 8) 4), wakeEn := BitVec.ofNat 32 (leAt b (o + 12) 4)
    wakeGpio := BitVec.ofNat 8 (leAt b (o + 16) 1), keepDeep := leAt b (o + 17) 1 = 1 }) c
  let c := f 0x20 (fun o c => { c with
    present := BitVec.ofNat 16 (leAt b o 2), gpioUse := Vector.ofFn fun i => BitVec.ofNat 8 (leAt b (o + 8 + i.val) 1) }) c
  let c := f 0x30 (fun o c => { c with
    frame := leAt b o 4, riskN := leAt b (o + 4) 1
    parts := Vector.ofFn fun p =>
      let q := o + 8 + 16 * p.val
      { cls := leAt b q 1, burst := leAt b (q + 1) 1, rate := leAt b (q + 2) 2, eng := BitVec.ofNat 32 (leAt b (q + 4) 4)
        fab := BitVec.ofNat 32 (leAt b (q + 8) 4), dma := BitVec.ofNat 32 (leAt b (q + 12) 4) } }) c
  let c := f 0x40 (fun o c => { c with
    vfCount := leAt b o 1, progLoadEn := leAt b (o + 1) 1 = 1, pmcUserEn := leAt b (o + 2) 1 = 1
    quotas := Vector.ofFn fun i => leAt b (o + 8 + 2 * i.val) 2 }) c
  let c := f 0x50 (fun o c =>
    let fin := o + 8 + ((l.find? fun s => s.1 = 0x50).map fun s => s.2.2.2).getD 0
    let cs := readChans b ((chanBlocks b fin (leAt b (o + 4) 1) (o + 8)).getD [])
    { c with
      contver := BitVec.ofNat 16 (leAt b o 2), pass := BitVec.ofNat 16 (leAt b (o + 2) 2)
      chans := Vector.ofFn fun i => (assocGet cs i.val).getD d.chans[i] }) c
  let c := f 0x60 (fun o c =>
    let no := leAt b (o + 8) 1
    let ord := leAt b o 4
    { c with
      order := ((List.range 4).map fun i => ord / 16 ^ i % 16).filter (· ≠ 0)
      agentDom := optFin 32 (leAt b (o + 10) 1), agentStrap := BitVec.ofNat 8 (leAt b (o + 11) 1)
      rcvTimeoutS := if leAt b (o + 12) 2 = 0 then 600 else leAt b (o + 12) 2
      retryMin := leAt b (o + 14) 2, agentObj := optFin 64 (leAt b (o + 16) 1)
      objs := (List.range no).map fun i =>
        let q := o + 24 + 32 * i
        { obj := finOf 63 (leAt b q 1), ch := finOf 15 (leAt b (q + 1) 1), base := BitVec.ofNat 32 (leAt b (q + 4) 4)
          len := BitVec.ofNat 32 (leAt b (q + 8) 4), goldOff := BitVec.ofNat 32 (leAt b (q + 12) 4)
          domains := BitVec.ofNat 32 (leAt b (q + 16) 4) }
      plans := (List.range (leAt b (o + 9) 1)).map fun i =>
        let q := o + 24 + 32 * no + 16 * i
        { dom := finOf 31 (leAt b q 1), pgReq := leAt b (q + 1) 1 % 2 = 1, cascade := leAt b (q + 1) 1 / 2 % 2 = 1
          delayMs := BitVec.ofNat 16 (leAt b (q + 2) 2), pred := BitVec.ofNat 32 (leAt b (q + 4) 4) } }) c
  let c := f 0x70 (fun o c => { c with remaskMs := leAt b o 1 }) c
  let c := f 0x80 (fun o c => { c with
    member := BitVec.ofNat 16 (leAt b o 2), parent := BitVec.ofNat 16 (leAt b (o + 2) 2), role := leAt b (o + 4) 1
    peerTx := leAt b (o + 5) 1 % 2 = 1, aggMs := if leAt b (o + 6) 2 = 0 then 2000 else leAt b (o + 6) 2
    routes := (List.range (leAt b (o + 8) 1)).map fun i =>
      { mem := BitVec.ofNat 16 (leAt b (o + 16 + 16 * i) 2), addr := BitVec.ofNat 64 (leAt b (o + 24 + 16 * i) 8) } }) c
  let c := f 0x90 (fun o c => { c with
    resp := Vector.ofFn fun i => BitVec.ofNat 5 (leAt b (o + i.val) 1)
    pinmode := Vector.ofFn fun i => leAt b (o + 24 + i.val) 1
    andMask := BitVec.ofNat 6 (leAt b (o + 32) 1)
    holdset := Vector.ofFn fun i => BitVec.ofNat 32 (leAt b (o + 40 + 4 * i.val) 4), holdAutoS := leAt b (o + 108) 2 }) c
  let c := f 0xA0 (fun o c => { c with
    taskEn := BitVec.ofNat 16 (leAt b o 2), strict := BitVec.ofNat 16 (leAt b (o + 2) 2)
    platMs := Vector.ofFn fun i => BitVec.ofNat 20 (leAt b (o + 8 + 4 * i.val) 4) }) c
  let c := f 0xB0 (fun o c => { c with
    winOpcode := BitVec.ofNat 8 (leAt b o 1), winAddr := leAt b (o + 1) 1, winTurn := leAt b (o + 2) 1
    khz := leAt b (o + 4) 4, winSel := finOf 15 (leAt b (o + 8) 1), slvSel := optFin 16 (leAt b (o + 9) 1)
    slvRdy := optFin 16 (leAt b (o + 10) 1) }) c
  let c := f 0xC0 (fun o c => { c with notifySev := leAt b o 1, spillEn := leAt b (o + 1) 1 = 1 }) c
  f 0xD0 (fun o c => { c with rwlMask := BitVec.ofNat 32 (leAt b o 4) }) c

/-- RECOVERY_ORDER obeys R129. -/
def orderOk (v : Nat) : Bool :=
  let n := (List.range 4).map fun i => v / 16 ^ i % 16
  decide (v < 65536) && n.all (fun x => decide (x ≤ 4)) &&
    (List.range 3).all fun i => n.getD i 0 ≠ 0 || n.getD (i + 1) 0 = 0

/-- Two ranges overlap. -/
def overlap (a la b lb : Nat) : Bool := decide (a < b + lb) && decide (b < a + la)

/-- A predecessor cycle among the plans (R315): domains whose predecessors all come before are taken away in turn. -/
def planOrder (ps : List Plan) : Nat → Nat → Nat
  | 0, done => done
  | n + 1, done =>
    planOrder ps n (ps.foldl (fun d p =>
      if (bitsOf p.pred).all (fun e => d.testBit e) && !d.testBit p.dom.val then d + 2 ^ p.dom.val else d) done)

/-- The field rules of the record, each with the offset where it fails (R124 reason 9). -/
def fieldChecks (b : Bytes) (l : List Sec) (c : Cfg) : List (Bool × Nat) :=
  let zero (a n : Nat) : Bool × Nat := ((slice b a n).all (· == 0#8), a)
  let sec (id : Nat) (g : Nat → List (Bool × Nat)) : List (Bool × Nat) := ((secAt l id).map g).getD []
  let inr (a n lo hi : Nat) : Bool × Nat := (decide (lo ≤ leAt b a n) && decide (leAt b a n ≤ hi), a)
  let flag (a : Nat) := inr a 1 0 1
  let hdr := [inr 6 2 1 65535, inr 8 4 1 0xFFFFFFFF, (leAt b 24 2 = 0 || (inr 24 2 100 1100).1, 24), inr 26 1 0 63,
    zero 27 1, (leAt b 28 4 = 0 || (inr 28 4 1000 242000).1, 28), zero 34 30]
  let pwr := sec 0x10 fun o => [inr o 1 0 2, inr (o + 5) 1 1 255, inr (o + 6) 2 1 65535, flag (o + 17)]
  let chan := sec 0x20 fun o => (List.range 16).map fun i => if i = 0 then inr (o + 8) 1 3 3 else inr (o + 8 + i) 1 0 4
  let wsh := sec 0x30 fun o => [inr o 4 2500 250000, inr (o + 4) 1 0 15, zero (o + 5) 3] ++
    (List.range 24).flatMap fun p =>
      let q := o + 8 + 16 * p
      let cls := leAt b q 1
      let fixed := if p ≤ 1 then 0 else if p = 6 then 2 else 1
      [((if p < 8 then decide (cls = fixed) else decide (cls ≤ 2) : Bool), q),
       ((if cls = 0 then (inr (q + 1) 1 1 16).1 else decide (leAt b (q + 1) 1 = 0) : Bool), q + 1),
       ((if cls = 0 then (inr (q + 2) 2 1 4095).1 else decide (leAt b (q + 2) 2 = 0) : Bool), q + 2)] ++
      (List.range 3).map fun r => (cls = 2 || leAt b (q + 4 + 4 * r) 4 ≠ 0xFFFFFFFF, q + 4 + 4 * r)
  let job := sec 0x40 fun o => [inr o 1 0 15, flag (o + 1), flag (o + 2)] ++
    (List.range 16).map fun i =>
      (decide (i > leAt b o 1) || (inr (o + 8 + 2 * i) 2 1 16384).1, o + 8 + 2 * i)
  let isObj (x : Fin 64) := c.objs.find? fun e => e.obj = x
  let sdl := sec 0x50 fun o =>
    let fin := o + 8 + ((l.find? fun s => s.1 = 0x50).map fun s => s.2.2.2).getD 0
    let ps := (chanBlocks b fin (leAt b (o + 4) 1) (o + 8)).getD []
    zero (o + 5) 3 ::
      ((List.range ps.length).zip ps).flatMap fun ip =>
        let q := ip.2.1
        let ch := leAt b q 1
        let md := leAt b (q + 1) 1
        let lay := leAt b (q + 2) 1
        let own := leAt b (q + 14) 1 = 0xFF
        let lim := if md = 0 then 200 else 133
        let before := (ps.take ip.1).map fun e => leAt b e.1 1
        let rb := q + 88 + (if own then 512 else 0)
        [(decide (ch < 16) && c.present.getLsbD ch && before.all (fun x => decide (x < ch)), q), inr (q + 1) 1 0 3,
         ((if ch = 15 then decide (lay = 2) else decide (lay ≤ 1) : Bool), q + 2),
         (decide (leAt b (q + 3) 1 < 32) || leAt b (q + 3) 1 = 0xFF, q + 3), inr (q + 4) 2 1 lim, inr (q + 6) 2 1 lim,
         inr (q + 8) 1 0 64, flag (q + 9), flag (q + 11), flag (q + 12), flag (q + 13),
         (own || leAt b (q + 14) 1 = 0xFE || decide (leAt b (q + 14) 1 ∈ before), q + 14), zero (q + 15) 1,
         (leAt b (q + 16) 4 = 0xFFFFFFFF || leAt b (q + 16) 4 % 4096 = 0, q + 16), zero (q + 20) 4] ++
        (if own then (List.range 256).map fun i =>
            let e := leAt b (q + 88 + 2 * i) 2
            let cl := e % 16
            let ad := e / 16 % 4
            (decide (cl ≤ 13) && decide (ad ≤ 2) && decide (e / 2048 % 4 ≤ 2), q + 88 + 2 * i) else []) ++
        (List.range (leAt b (q + 8) 1)).flatMap fun i =>
          let r := rb + 16 * i
          let base := leAt b r 4
          let lim := leAt b (r + 4) 4
          let ops := leAt b (r + 8) 1
          let ob := leAt b (r + 10) 1
          let e := (optFin 64 ob).bind isObj
          [(decide (base % 4096 = 0), r), (decide (base ≤ lim) && (lim + 1) % 4096 = 0, r + 4), (decide (ops < 64), r + 8),
           (decide (leAt b (r + 9) 1 ≤ 3) &&
             (leAt b (r + 9) 1 ≠ 3 || (lay = 1 && ob ≠ 0xFF && ops / 16 % 4 = 0)), r + 9),
           (ob = 0xFF || (match e with
             | some e => e.ch.val = ch && decide (e.base.toNat ≤ base) && decide (lim < e.base.toNat + e.len.toNat)
             | none => false), r + 10),
           (decide (leAt b (r + 11) 1 < 4) && (leAt b (r + 11) 1 = 0 || ob ≠ 0xFF), r + 11), zero (r + 13) 3]
  let passDoms := (List.finRange 16).filterMap fun i =>
    if c.pass.getLsbD i.val then (c.chans[i].domain).map Fin.val else none
  let sdlPass := sec 0x50 fun o => [(decide passDoms.Nodup, o + 2)]
  let ldg := sec 0x60 fun o =>
    let no := leAt b (o + 8) 1
    let strap := leAt b (o + 11) 1
    let use (n : Nat) := (c.gpioUse.toList.getD n 0#8).toNat
    let ord := ((List.range 4).map fun i => leAt b o 4 / 16 ^ i % 16)
    [(orderOk (leAt b o 4), o), zero (o + 4) 4, inr (o + 8) 1 0 64, inr (o + 9) 1 0 32,
     (decide (leAt b (o + 10) 1 < 32) || leAt b (o + 10) 1 = 0xFF, o + 10),
     (strap / 32 % 4 = 0 && (strap < 128 || use (strap % 16) = 1 || use (strap % 16) = 2), o + 11),
     (leAt b (o + 12) 2 = 0 || decide (leAt b (o + 12) 2 ≥ 10), o + 12), inr (o + 14) 2 0 10080,
     (decide (leAt b (o + 16) 1 < 64) || leAt b (o + 16) 1 = 0xFF, o + 16), zero (o + 17) 7] ++
    ((List.range no).flatMap fun i =>
      let q := o + 24 + 32 * i
      let ob := leAt b q 1
      let ch := leAt b (q + 1) 1
      let base := leAt b (q + 4) 4
      let len := leAt b (q + 8) 4
      let gold := leAt b (q + 12) 4
      let doms := leAt b (q + 16) 4
      let cc := c.chans.toList.getD ch {}
      let before := c.objs.take i
      [(decide (ob < 64) && before.all (fun e => decide (e.obj.val < ob)), q),
       (decide (ch < 16) && c.present.getLsbD ch && cc.layout != 2#2 &&
         ((cc.domain.map fun d => doms.testBit d.val).getD false), q + 1),
       zero (q + 2) 2, (base % 65536 = 0, q + 4), (decide (len ≥ 65536) && len % 65536 = 0, q + 8),
       (gold = 0xFFFFFFFF || gold % 65536 = 0, q + 12), (doms ≠ 0, q + 16), zero (q + 20) 12,
       (before.all (fun e => !(e.ch.val = ch && overlap e.base.toNat e.len.toNat base len)), q + 4),
       (gold = 0xFFFFFFFF || before.all (fun e => e.goldOff == 0xFFFFFFFF#32 ||
         !overlap e.goldOff.toNat e.len.toNat gold len), q + 12)]) ++
    ((List.range (leAt b (o + 9) 1)).flatMap fun i =>
      let q := o + 24 + 32 * no + 16 * i
      let dm := leAt b q 1
      let pr := leAt b (q + 4) 4
      [(decide (dm < 32) && (c.plans.take i).all (fun p => p.dom.val ≠ dm), q), (decide (leAt b (q + 1) 1 < 4), q + 1),
       ((bitsOf (BitVec.ofNat 32 pr)).all (fun e => e ≠ dm && c.plans.any fun p => p.dom.val = e), q + 4), zero (q + 8) 8]) ++
    [((let done := planOrder c.plans 32 0
       c.plans.all fun p => done.testBit p.dom.val), o + 24 + 32 * no),
     (c.objs.all (fun e => (bitsOf e.domains).all fun d => c.plans.any fun p => p.dom.val = d), o + 24),
     (!(decide (2 ∈ ord)) || (c.agentDom.isSome && c.present.getLsbD 15 && (c.chans[15].domain == c.agentDom) &&
        (match c.agentObj.bind isObj with
         | some e => e.goldOff != 0xFFFFFFFF#32
         | none => false)), o)]
  let kvt := sec 0x70 fun o => [inr o 1 1 64]
  let att := sec 0x80 fun o =>
    [inr (o + 4) 1 0 2, (c.member != c.parent || leAt b (o + 4) 1 ≠ 1, o + 2), flag (o + 5),
     (leAt b (o + 6) 2 = 0 || (inr (o + 6) 2 10 60000).1, o + 6), inr (o + 8) 1 0 64, zero (o + 9) 7] ++
    (List.range (leAt b (o + 8) 1)).flatMap fun i =>
      let q := o + 16 + 16 * i
      [zero (q + 2) 6, (leAt b (q + 8) 8 % 2 ^ 26 = 0, q + 8)]
  let tmp := sec 0x90 fun o => (List.range 17).map (fun i => inr (o + i) 1 0 31) ++ [zero (o + 17) 7] ++
    (List.range 8).map (fun i => inr (o + 24 + i) 1 0 2) ++ [inr (o + 32) 1 0 63, zero (o + 33) 7, zero (o + 110) 2]
  let wdg := sec 0xA0 fun o => (List.range 32).map fun i => inr (o + 8 + 4 * i) 4 0 600000
  let chp := sec 0xB0 fun o =>
    let use (n : Nat) := (c.gpioUse.toList.getD n 0#8).toNat
    let pin (a u : Nat) : Bool := leAt b a 1 = 0xFF || (decide (leAt b a 1 < 16) && use (leAt b a 1) = u)
    [inr (o + 1) 1 1 4, inr (o + 2) 1 0 15, inr (o + 4) 4 100 25000,
     (decide (leAt b (o + 8) 1 < 16) && use (leAt b (o + 8) 1) = 3, o + 8), (pin (o + 9) 0, o + 9), (pin (o + 10) 2, o + 10),
     zero (o + 11) 5]
  let evr := sec 0xC0 fun o => [inr o 1 0 8, flag (o + 1)]
  hdr ++ pwr ++ chan ++ wsh ++ job ++ sdl ++ sdlPass ++ ldg ++ kvt ++ att ++ tmp ++ wdg ++ chp ++ evr

/-- Judge a copy under R124: its bytes, length and fields, or the reason and the offset of the failure. -/
def judgeCopy (fault : Bool) (serial : BitVec 64) (b : Bytes) : Except (Nat × Nat) (Bytes × Cfg) :=
  let len := leAt b 12 4
  if fault then .error (1, 0)
  else if leAt b 0 4 ≠ 0x52435A4B then .error (2, 0)
  else if leAt b 4 2 ≠ 1 then .error (3, 4)
  else if decide (len < 72) || decide (len > 32768) || len % 8 ≠ 0 || decide (b.length < len) then .error (4, 12)
  else
    let c := b.take len
    if leAt c (len - 8) 8 ≠ (crc64 (c.take (len - 8))).toNat then .error (5, len - 8)
    else if decide (leAt c 6 2 > 1) then .error (6, 6)
    else if leAt c 16 8 ≠ 0 && leAt c 16 8 ≠ serial.toNat then .error (7, 16)
    else match readSecs c (len - 8) (leAt c 32 2) 0 64 with
      | .error e => .error (8, e)
      | .ok l =>
        match secsBad c l with
        | some e => .error (8, e)
        | none =>
          let cfg := readCfg c l
          match firstBad (fieldChecks c l cfg) with
          | some e => .error (9, e)
          | none => .ok (c, cfg)

/-- The built-in sealed-default image (R126). -/
def sealedImage : Bytes :=
  let h := leBytes 4 0x52435A4B ++ leBytes 2 1 ++ leBytes 2 1 ++ leBytes 4 0 ++ leBytes 4 72 ++ List.replicate 48 0#8
  h ++ leBytes 8 (crc64 h).toNat

/-- The ceiling as the clamp uses it: the words of CEIL, the life-cycle state (R127). -/
structure Ceil where
  /-- CEIL words 0 to 14 -/
  w : List (BitVec 32)
  /-- the life-cycle state is MANUFACTURE -/
  manu : Bool

/-- The ceiling of this start. -/
def ceilOf (s : State) : Ceil := { w := (List.range 15).map fun i => ceilW s i, manu := s.glb.lc = 1 }

/-- A word of the ceiling. -/
def Ceil.at (c : Ceil) (i : Nat) : BitVec 32 := c.w.getD i 0#32

/-- A permission. -/
def Ceil.opt (c : Ceil) (i : Nat) : Bool := (c.at 2).getLsbD i

/-- TMP_MIN of a source, with the lid mesh's ERASE and CELL_ERASE (R127, R128). -/
def Ceil.tmin (c : Ceil) (s : Nat) : BitVec 5 :=
  BitVec.ofNat 5 ((c.at (4 + s / 4)).toNat / 256 ^ (s % 4)) ||| (if s = 5 then 16#5 else 0#5) |||
    (if s = 14 && (c.at 3).getLsbD 0 then 16#5 else 0#5)

/-- The smaller of two pins, 0 standing for none (R128). -/
def pinMin (a b : Nat) : Nat := if a = 0 then b else if b = 0 then a else min a b

/-- PWR_AUTO under the permissions (R127, R128): DOZE_EN and RETAIN_ON_PG with OPTIONS bit 4, FAST_EN with bit 5. -/
def autoClamp (c : Ceil) (v : BitVec 32) : BitVec 32 :=
  v &&& ~~~((if c.opt 4 then 0#32 else 6#32) ||| (if c.opt 5 then 0#32 else 8#32))

/-- A host partition enabled under VF_COUNT (R145). -/
def hostOn (vf p : Nat) : Bool := decide (8 ≤ p) && decide (p ≤ 8 + vf)

/-- R145's demotions: the highest-numbered C0 host partitions above the limit become C1. -/
def demote (lim vf : Nat) (ps : Vector PartCfg 24) : Vector PartCfg 24 :=
  let hosts := (List.range 24).filter fun p => hostOn vf p && (ps.toList.getD p {}).cls = 0
  let out := hosts.drop lim
  Vector.ofFn fun i => if i.val ∈ out then { ps[i] with cls := 1, burst := 0, rate := 0 } else ps[i]

/-- R145's BURST limit: lower from the highest-numbered enabled C0 partition down, never below 1. -/
def burstCut (vf : Nat) (ps : Vector PartCfg 24) : Vector PartCfg 24 :=
  let on (p : Nat) : Bool := (decide (p < 8) || hostOn vf p) && (ps.toList.getD p {}).cls = 0
  let tot := (List.range 24).foldl (fun t p => if on p then t + (ps.toList.getD p {}).burst else t) 0
  (List.range 24).reverse.foldl (fun (acc : Nat × Vector PartCfg 24) p =>
    if h : p < 24 then
      let x := acc.2[p]
      if on p && decide (acc.1 > 0) && decide (x.burst > 1) then
        let cut := min acc.1 (x.burst - 1)
        (acc.1 - cut, acc.2.set p { x with burst := x.burst - cut })
      else acc
    else acc) (tot - 16, ps) |>.2

/-- The effective configuration of a record under a ceiling (R128, R145). -/
def clampCfg (c : Ceil) (r : Cfg) : Cfg :=
  let prof := if r.profile = 0 && (c.at 0).getLsbD 0 then 0#2 else if r.profile = 1 && (c.at 0).getLsbD 1 then 1#2 else 2#2
  let vf := min r.vfCount ((c.at 9).toNat % 16)
  let rm := (c.at 12).toNat % 128
  { r with
    profile := prof
    auto := autoClamp c r.auto
    pass := if c.manu then r.pass &&& (c.at 1).setWidth 16 else 0#16
    contver := if c.opt 0 then r.contver else 0#16
    andMask := if c.opt 1 then r.andMask &&& 0x1F#6 else 0#6
    progLoadEn := r.progLoadEn && c.opt 2
    pmcUserEn := r.pmcUserEn && c.opt 3
    rwlMask := if c.opt 6 then r.rwlMask else 0#32
    order := r.order.filter fun x => x = 1 || c.opt (x + 5)
    vfCount := vf
    pinIpus := pinMin r.pinIpus ((c.at 10).toNat % 65536)
    pinClusters := pinMin r.pinClusters ((c.at 14).toNat % 64)
    pinDma := pinMin r.pinDma (c.at 11).toNat
    remaskMs := min r.remaskMs (if rm = 0 then 64 else rm)
    resp := Vector.ofFn fun i => r.resp[i] ||| c.tmin i.val
    pinmode := Vector.ofFn fun i => if r.pinmode[i] = 0 && (c.tmin (6 + i.val)) != 0#5 then 1 else r.pinmode[i]
    role := if c.opt 10 then r.role else 0
    parts := burstCut vf (demote (min 4 ((c.at 13).toNat % 8)) vf r.parts) }

/-- RECOVERY_ORDER as its word. -/
def orderWord (l : List Nat) : Nat := ((List.range l.length).zip l).foldl (fun t p => t + p.2 * 16 ^ p.1) 0

/-- The clamp list: key of the field, record value, effective value, for each field that differs (R128). -/
def clampList (r e : Cfg) : List (Nat × Nat × Nat) :=
  let b (x : Bool) : Nat := if x then 1 else 0
  let all : List (Nat × Nat × Nat) :=
    [(24, r.pinIpus, e.pinIpus), (26, r.pinClusters, e.pinClusters), (28, r.pinDma, e.pinDma),
     (0x100000, r.profile.toNat, e.profile.toNat), (0x100004, r.auto.toNat, e.auto.toNat)] ++
    ((List.range 24).flatMap fun p =>
      let x := r.parts.toList.getD p {}
      let y := e.parts.toList.getD p {}
      [(0x300008 + 16 * p, x.cls, y.cls), (0x300009 + 16 * p, if y.cls = x.cls then x.burst else y.burst, y.burst)]) ++
    [(0x400000, r.vfCount, e.vfCount), (0x400001, b r.progLoadEn, b e.progLoadEn), (0x400002, b r.pmcUserEn, b e.pmcUserEn),
     (0x500000, r.contver.toNat, e.contver.toNat), (0x500002, r.pass.toNat, e.pass.toNat),
     (0x600000, orderWord r.order, orderWord e.order), (0x700000, r.remaskMs, e.remaskMs), (0x800004, r.role, e.role)] ++
    ((List.range 17).map fun i => (0x900000 + i, (r.resp.toList.getD i 0).toNat, (e.resp.toList.getD i 0).toNat)) ++
    ((List.range 8).map fun i => (0x900018 + i, r.pinmode.toList.getD i 0, e.pinmode.toList.getD i 0)) ++
    [(0x900020, r.andMask.toNat, e.andMask.toNat), (0xD00000, r.rwlMask.toNat, e.rwlMask.toNat)]
  all.filter fun x => x.2.1 ≠ x.2.2

/-- The record fields of the sealed defaults (R131). -/
def sealedCfg : Cfg :=
  { ({} : Cfg) with profile := 2#2, resp := Vector.replicate 17 7#5, present := 0#16 }

end Sys2Proof.Machine
end

