-- ==== Sys2Proof/Machine/Wshop.lean ====
section
/-! DEFINITION. The Watershed's frames (chapter 06): capacity, effective budgets, carried overdraw, the promise and the
job quotas. -/

namespace Sys2Proof.Machine

/-- The job clusters usable in the effective profile (R149), not counting those out of service (R182). -/
def usableClusters (s : State) : Nat :=
  let top := if s.pwr.profileEff == 2#2 then 31 else if s.pwr.profileEff == 1#2 then 62 else 63
  let n := ((List.range 64).filter fun c =>
    decide (1 ≤ c ∧ c ≤ top) && ((s.pln.clusters.toList.getD c {}).outCause = 0)).length
  if s.pln.pinClusters = 0 then n else min n s.pln.pinClusters

/-- The capacities of a frame (R146, R149). -/
def capacity (s : State) (usable : Nat) : N3 :=
  let len := s.wsh.len
  let mbs := if s.boot.eff.pinDma = 0 then 242000 else min 242000 s.boot.eff.pinDma
  { eng := usable * len, fab := 16 * len, dma := mbs * len / 50 }

/-- A host partition is enabled (R144): its function is within VF_COUNT. -/
def partOn (s : State) (p : Nat) : Bool := decide (p ≤ 8 + s.boot.eff.vfCount)

/-- The sum of the budgets of a class on a resource (R149). -/
def budSum (s : State) (cls r : Nat) : Nat :=
  (List.range 24).foldl (fun t p =>
    let q := part s p
    if partOn s p && q.cls = cls && !uncapped (q.bud.get r) then t + (q.bud.get r).toNat else t) 0

/-- P7's floor on a resource (R148). -/
def p7Floor (s : State) (r : Nat) : Nat := match r with | 0 => s.wsh.len / 100 | 1 => s.wsh.len / 50 | _ => 0

/-- C1 budgets of a resource are scaled (R149). -/
def isScaled (s : State) (cap : N3) (r : Nat) : Bool := decide (budSum s 0 r + budSum s 1 r > cap.get r)

/-- A partition's effective budget on a resource (R148, R149). -/
def effBudget (s : State) (cap : N3) (p r : Nat) : BitVec 32 :=
  let q := part s p
  if !partOn s p then 0#32
  else if q.cls = 1 && isScaled s cap r then
    let c0 := budSum s 0 r
    let c1 := budSum s 1 r
    let v := if c0 > cap.get r then 0 else (q.bud.get r).toNat * (cap.get r - c0) / c1
    p32 (if p = 7 then max v (min (p7Floor s r) (q.bud.get r).toNat) else v)
  else q.bud.get r

/-- What a partition carries over a boundary: its overdraw, no more than the new budget (R150). -/
def carry (u : Nat) (old new : BitVec 32) : Nat :=
  if uncapped old || uncapped new then 0 else min (u - old.toNat) new.toNat

/-- Build a count per resource. -/
def n3Of (f : Nat → Nat) : N3 := ⟨f 0, f 1, f 2⟩

/-- Build a budget per resource. -/
def r3Of (f : Nat → BitVec 32) : R3 := ⟨f 0, f 1, f 2⟩

/-- Build a flag per resource. -/
def b3Of (f : Nat → Bool) : B3 := ⟨f 0, f 1, f 2⟩

/-- The first failed device-wide condition of the promise (R156), 0 where all hold. -/
def promiseReason (s : State) : Nat :=
  let above (r : Nat) : Bool := decide (budSum s 0 r * 10 > s.wsh.cap.get r * 3)
  if above 0 then 1 else if above 1 then 2 else if above 2 then 3
  else if s.fus.prog.isSome then 4
  else if !s.wsh.started then 5
  else if s.pwr.rung != .run then 6
  else 0

/-- Evaluate the promise; a change is logged (R156). -/
def judgePromise (s : State) : State :=
  let r := promiseReason s
  let was := s.wsh.promise
  let s := s.modWsh fun w => { w with promise := r = 0, reason := r }
  if was && r ≠ 0 then ev 0x6013#16 r 0 0 s
  else if !was && r = 0 then ev 0x6014#16 s.wsh.no.toNat 0 0 s
  else s

/-- The promise clears at once when fuse programming begins (R156). -/
def promiseFuse (s : State) : State :=
  if s.wsh.promise then ev 0x6013#16 4 0 0 (s.modWsh fun w => { w with promise := false, reason := 4 }) else s

/-- Capacity and effective budgets of the frame that starts (R149), scaling logged on a change (0x6012). -/
def frameBudgets (s : State) : State :=
  let u := usableClusters s
  let cap := capacity s u
  let old := s.wsh
  let eff (p : Nat) : R3 := r3Of fun r => effBudget s cap p r
  let sc := b3Of fun r => isScaled s cap r
  let sums := n3Of fun r => budSum s 0 r + budSum s 1 r
  let changed (r : Nat) : Bool :=
    (sc.get r != old.scaled.get r) ||
      (sc.get r && (List.range 24).any fun p => (part s p).cls = 1 && (eff p).get r != (part s p).eff.get r)
  let s := s.modPln fun p => { p with usable := u }
  let s := s.modWsh fun w => { w with
    cap := cap, scaled := sc, dmaIn := 0, dmaOut := 0,
    parts := Vector.ofFn fun i =>
      let q := w.parts[i]
      let e := eff i.val
      let use := n3Of fun r => carry (q.use.get r) (q.eff.get r) (e.get r)
      { q with
        eff := e, use := use, sixteenths := 0, confCount := 0, nonconfLast := q.nonconfCur, nonconfCur := 0, inService := 0,
        exh := b3Of fun r => !uncapped (e.get r) && decide ((e.get r).toNat ≤ use.get r) } }
  (List.range 3).foldl (fun s r =>
    if changed r then ev 0x6012#16 (r + 1) (cap.get r) (sums.get r) s else s) s

/-- Raise P7's budgets to the floor (R148). -/
def raiseP7 (s : State) : State :=
  (List.range 2).foldl (fun s r =>
    let v := (part s 7).bud.get r
    if !uncapped v && decide (v.toNat < p7Floor s r) then
      ev 0x6017#16 (r + 1) v.toNat (p7Floor s r) (modPart 7 (fun q => { q with bud := q.bud.put r (p32 (p7Floor s r)) }) s)
    else s) s

/-- The quotas that the functions' partitions get (R159, R272): scaled down in proportion where they sum to more than
16,384, a C0 partition keeping its BURST and any other 1. -/
def setQuotas (want : Nat → Nat) (s : State) : State :=
  let on (f : Nat) : Bool := decide (f ≤ s.boot.eff.vfCount)
  let total := (List.range 16).foldl (fun t f => if on f then t + want f else t) 0
  let scaled (f : Nat) : Nat :=
    if total ≤ 16384 then want f
    else
      let q := part s (8 + f)
      max (want f * 16384 / total) (if q.cls = 0 then q.burst else 1)
  let n := ((List.range 16).filter fun f => on f && scaled f ≠ want f).length
  let s := s.modJob fun b => { b with
    want := Vector.ofFn fun f => want f.val, quotas := Vector.ofFn fun f => if on f.val then scaled f.val else 0 }
  if total ≤ 16384 then s else ev 0x6018#16 total n 0 s

/-- The partitions as the configuration sets them, and the first frame (R142, R160): event 0x6001. -/
def firstFrame (s : State) : State :=
  let e := s.boot.eff
  let s := s.modWsh fun w => ({
    started := true, len := e.frame, riskN := e.riskN, c0Max := 0#16,
    c0Hosts := ((List.range 16).filter fun f => decide (f ≤ e.vfCount) && ((e.parts.toList.getD (8 + f) {}).cls = 0)).length,
    dmaIn := 0, dmaOut := 0,
    parts := Vector.ofFn fun i =>
      let c := e.parts[i]
      { cls := if decide (i.val ≤ 8 + e.vfCount) then c.cls else 3, burst := c.burst, rate := c.rate,
        bud := ⟨c.eng, c.fab, c.dma⟩ } } : Wsh)
  let s := clusterPower s
  let s := raiseP7 s
  let s := frameBudgets s
  let s := ev 0x6001#16 s.wsh.len s.wsh.cap.eng s.wsh.c0Hosts s
  judgePromise s

end Sys2Proof.Machine
end

