-- ==== Sys2Proof/Machine/Resetop.lean ====
section
/-! DEFINITION. The resets of chapter 03: what a cold reset and a warm reset leave (R69, R70, R73), and which of them a
trigger takes (R72, R77). -/

namespace Sys2Proof.Machine

/-- A pulse that a loss of power cuts short leaves its word to the next start's reads: it may hold anything (R77). -/
def cutPulse (s : State) : State :=
  match s.fus.prog with
  | none => s
  | some p =>
    let (t, s) := drawFree 39 s
    let (l, s) := drawFree 39 s
    s.modFus fun f => { fuseSet p.word t l f with prog := none }

/-- The always-on domain after a cold reset: only its count of them moves (R70, RST_COUNT). -/
def aonCold (por : Bool) (a : Aon) : Aon := { a with coldCount := if por then 0#16 else bvSat a.coldCount 1 }

/-- A channel after a cold reset: its platform supply alone is as it was (R25, R70). -/
def chCold (c : Fin 16) (x : Channel) : Channel :=
  { (({} : Sdl).ch[c]) with vioMv := x.vioMv, bankHigh := x.bankHigh, isolated := x.isolated }

/-- A cold reset (R70): everything but the always-on domain, the fuses, the flashes and what is measured from outside
returns to its cold-reset value. The records it raises are staged, or buffered where the supply is lost (R429, R430); the
event of the reset itself is raised at step 1 of the start that follows, with every cause (R72). -/
def coldReset (causes : BitVec 6) (warmC : BitVec 4) (s : State) : State :=
  let power := causes.getLsbD 0 || causes.getLsbD 1
  let phase := s.glb.phase.toNat
  let s := if power then cutPulse s else s
  let s := endFreeze 2 s
  let s := s.modEvr fun e => { e with ph := if power then .battery else .staging }
  let s := zeroVault s
  { ({} : State) with
    pending := s.pending, out := s.out, nv := s.nv, aon := aonCold (causes.getLsbD 0) s.aon,
    fus := { array := s.fus.array }
    pwr := { vinPresent := s.pwr.vinPresent, vinMv := s.pwr.vinMv, iinMa := s.pwr.iinMa, vbatMv := s.pwr.vbatMv,
             choldV := s.pwr.choldV, pinMw := s.pwr.pinMw, chgMa := s.pwr.chgMa, batPresent := s.pwr.batPresent,
             tj := s.pwr.tj }
    pins := { domPg := s.pins.domPg, gpioIn := s.pins.gpioIn, devRstLow := s.pins.devRstLow, perstLow := s.pins.perstLow }
    tbs := { ref32 := s.tbs.ref32 }
    rst := { cold := causes, warm := warmC, ph := .coldHeld }
    boot := { otp := phase }
    sdl := { ch := Vector.ofFn fun c => chCold c s.sdl.ch[c] }
    tmp := { active := s.tmp.active, tripA := s.tmp.tripA, tripB := s.tmp.tripB, pinLevel := s.tmp.pinLevel,
             ended := s.tmp.ended, began := s.tmp.began }
    evr := { ph := if power then .battery else .staging, staged := if power then [] else s.evr.staged,
             missed := if power then 0#32 else s.evr.missed } }

/-- At the trigger of a cold reset that waits, the lines are asserted and the platform ports isolated (R70, R77). -/
def coldOutputs (s : State) : State :=
  let s := s.modPins fun p => { p with domRst := BitVec.allOnes 32 }
  let s := s.modPrs fun p => { p with dom := Vector.replicate 32 {} }
  s.modSdl fun d => { d with ch := d.ch.map fun x => { x with mode := .sealed, golden := false, discovered := false } }

/-- A reset waits for the pulse in progress (R77). -/
def waitReset (ph : ResetPh) (s : State) : State :=
  s.modRst fun r => { r with ph := ph, pendTick := s.tbs.tick.toNat, pendWord := (s.fus.prog.map (·.word)).getD r.pendWord }

/-- A cold trigger (R69, R72, R77): bit `i` of RST_CAUSE. -/
def trigCold (i : Nat) (s : State) : State :=
  let b : BitVec 6 := bit true i
  let power := decide (i ≤ 1)
  match s.rst.ph with
  | .coldHeld =>
    let s := s.modRst fun r => { r with cold := r.cold ||| b }
    if power then s.modEvr fun e => { e with ph := .battery, staged := [] } else s
  | .waitingCold =>
    if power then coldReset (s.rst.pendCold ||| b) s.rst.pendWarm s
    else s.modRst fun r => { r with pendCold := r.pendCold ||| b }
  | _ =>
    if !power && (s.aon.batteryOnly || !s.pwr.supplyValid) then s
    else if !power && s.fus.prog.isSome then
      coldOutputs (waitReset .waitingCold (s.modRst fun r => { r with pendCold := b }))
    else coldReset b s.rst.pendWarm s

/-- The functions' state after a warm reset of the host link: messages and their counts are kept (R73, R242). -/
def hlkWarm (h : Hlk) : Hlk :=
  { ({} : Hlk) with
    msgs := h.msgs, dropTotal := h.dropTotal, dropSince := h.dropSince, runFull := h.runFull, runQueue := h.runQueue,
    runFullSeen := h.runFullSeen, runQueueSeen := h.runQueueSeen, runFullAge := h.runFullAge, runQueueAge := h.runQueueAge,
    policy := h.policy, ideFails := h.ideFails }

/-- An object's entry after a warm reset (R73, R80): what the platform has open is kept, and what a domain that stays
RELEASED, QUARANTINED or RECOVERING rests on; the checks of every other object are made again. -/
def objWarm (s : State) (o : Fin 64) : Obj :=
  let x := s.ldg.objs[o]
  let inSt (f : DomSt → Bool) : Bool := allDoms.any fun d => requires s d o && f s.prs.dom[d].st
  if inSt (fun t => t == .quarantined || t == .recovering) then { x with rcvFailed := false, mvA := false, mvB := false, mvG := false }
  else { x with
    rcvFailed := false, chosen := x.chosen && inSt (· == .released), checkA := 0#4, checkB := 0#4, checkG := 0#4, okA := false,
    okB := false, doneA := false, doneB := false, mvA := false, mvB := false, mvG := false }

/-- A cluster after a warm reset: one taken out by retired pages or a supply difference stays out (R191). -/
def clusterWarm (x : Cluster) : Cluster :=
  { ({} : Cluster) with temp := x.temp, outCause := if x.outCause = 1 then 0 else x.outCause }

/-- A flash that the device itself was programming or erasing is polled after a warm start (R78): the recovery's target. -/
def abandonDevOp (s : State) : State :=
  match s.ldg.rcvObj with
  | some o =>
    if s.ldg.rcvStage = 1 then
      match s.ldg.objs[o].cfg with
      | some e => modCh e.ch (fun x => { x with devOp := some (0x12#8, false) }) s
      | none => s
    else s
  | none => s

/-- A block's waiting LIVE writes are discarded and logged (R136): those at offsets that `f` selects; cause 1 is a block
reset, 2 a warm reset. -/
def dropLive (f : Nat → Bool) (cause : Nat) (s : State) : State :=
  let gone := s.boot.live.filter fun w => f w.1
  let s := s.modBoot fun b => { b with live := b.live.filter fun w => !f w.1 }
  gone.foldl (fun s w => ev 0x5018#16 w.1 w.2.toNat cause s) s

/-- The warm reset is asserted (R73): the warm island, the always-on domain, the retention memory, the recorder's ring and
the rails are untouched; everything else takes its warm-reset value. -/
def warmReset (cause : BitVec 4) (s : State) : State :=
  let s := endFreeze 2 s
  let s := s.modEvr fun e => { e with ph := .staging }
  let s := abandonDevOp s
  let s := zeroVault s
  let s := dropLive (fun _ => true) 2 s
  { s with
    glb := { s.glb with ready := false, startFail := false, warmStart := true, phase := 1#4, failCode := 0#4,
                        unservedLogged := false }
    pwr := { s.pwr with rung := .run, rungTarget := 0#3, rungResult := 0#2, wakePend := none }
    pins := { s.pins with txIdle := true, clkreqLow := true, wakeLow := false, gpio := Vector.replicate 16 .hiz }
    rst := { s.rst with warm := s.rst.warm ||| cause, warmCount := bvSat s.rst.warmCount 1,
                        consec := bvSat s.rst.consec 1, refused := 0#11, ph := .warmHeld, pendCold := 0#6, pendWarm := cause,
                        emuHits := 0 }
    boot := { s.boot with selftest := 0#11, valid := 1#8, patches := 0, matchTable := [], cluster0 := false,
                          stepTime := Vector.replicate 12 0#24, updAddr := 0#64, updBusy := false, updResult := 0#4,
                          updSub := 0#4, updTarget := false, rejOffset := 0#26, rejCause := 0#3 }
    fus := { s.fus with busy := false, err := 0#4, addr := 0#11, data := 0#32, result := 0#5, pkg := 0#64, prog := none }
    wsh := {}
    pln := { clusters := s.pln.clusters.map clusterWarm }
    job := {}
    hlk := hlkWarm s.hlk
    sdl := { s.sdl with busy := false, result := 0#4 }
    prs := { s.prs with result := 0#4 }
    ldg := { objs := Vector.ofFn fun o => objWarm s o, fail := s.ldg.fail, agentBoot := s.ldg.agentBoot }
    kvt := {}
    ent := {}
    att := { bootseed := s.att.bootseed }
    tmp := { s.tmp with result := 0#4, selftest := none }
    wdg := { s.wdg with running := s.wdg.hw, isOpen := true, paused := false, checked := 0#16, armed := 0#16, dup := 0#16,
                        plat := s.wdg.plat.map fun p => { p with paused := true } }
    chp := {}
    evr := { s.evr with cursor := 0#24, cursorSpill := false, cursorAuto := false, win := none, winReady := true,
                        winPresent := false, cmdResult := 0#4, calSet := 0#64, gap := s.evr.gap,
                        frameBase := s.evr.frameBase + s.wsh.no.toNat + 1 }
    pmc := {} }

/-- A warm reset is taken, or the fourth in a row without device ready escalates (R72). -/
def takeWarm (cause : BitVec 4) (s : State) : State :=
  if decide (s.rst.consec.toNat + 1 ≥ 4) then
    let s := ev 0x3013#16 (s.rst.consec.toNat + 1) 0 0 s
    coldReset 0#6 (s.rst.pendWarm ||| cause) s
  else warmReset cause s

/-- A cold start is in progress, or the block is in the start-failure state, which only a cold reset leaves (R72, R87). -/
def inColdStart (s : State) : Bool := s.rst.heldStart || s.rst.transHold || s.glb.startFail

/-- A warm trigger (R69, R72, R77): bit `i` of the warm causes (WDOG, SOFT, TB_LOSS, LOCKUP). A cold reset or a cold start
absorbs it; a watchdog expiry in a start that waits before step 11 returns it to step 2, which the next start command
runs. -/
def trigWarm (i : Nat) (s : State) : State :=
  let b : BitVec 4 := bit true i
  if s.aon.batteryOnly || (!s.pwr.supplyValid && s.rst.ph != .coldHeld) then s
  else if s.rst.ph = .coldHeld || s.rst.ph = .waitingCold || inColdStart s then
    let s := ev 0x3011#16 (b.toNat * 256) s.glb.phase.toNat 0 (s.modRst fun r => { r with warm := r.warm ||| b })
    if i = 0 && s.rst.transHold then
      (s.modRst fun r => { r with transHold := false, heldStart := false, ph := .coldHeld }).modPwr
        fun p => { p with supplyValid := false }
    else s
  else if s.rst.ph = .waitingWarm then s.modRst fun r => { r with pendWarm := r.pendWarm ||| b }
  else if s.rst.ph = .warmHeld then
    s.modRst fun r => { r with warm := r.warm ||| b, pendWarm := r.pendWarm ||| b }
  else if s.fus.prog.isSome then waitReset .waitingWarm (s.modRst fun r => { r with pendWarm := b })
  else takeWarm b s

/-- A reset that waited is asserted once the pulse has ended (R77). -/
def delayedReset (s : State) : State :=
  let word := s.rst.pendWord
  let us := usOf (s.tbs.tick.toNat - s.rst.pendTick)
  match s.rst.ph with
  | .waitingCold =>
    let s := ev 0x3003#16 word us 0 s
    coldReset s.rst.pendCold s.rst.pendWarm s
  | .waitingWarm =>
    let c := s.rst.pendWarm
    takeWarm c (ev 0x3003#16 word us 0 (s.modRst fun r => { r with pendWarm := 0#4, ph := .none }))
  | _ => s

end Sys2Proof.Machine
end

