-- ==== Sys2Proof/Machine/Power.lean ====
section
/-! DEFINITION. The meanings of the commands of chapter 02 about the supply, VFLASH_OUT, the backup cell, the forces and the
profiles. -/

namespace Sys2Proof.Machine

/-- The PWR register at an offset of its window (R9, R11). -/
def pwrOff (o : Nat) : Nat := 0x100000 + o

/-- PWR_AUX.CHOLD_V, in 20 mV (chapter 02). -/
def choldOf (mv : BitVec 16) : BitVec 12 := BitVec.ofNat 12 (mv.toNat / 20)

/-- CHOLD_MAIN as found: its register and HOLD_RDY, set at or above 38 V (R40). -/
def senseChold (mv : BitVec 16) (s : State) : State :=
  s.modPwr fun p => { p with choldV := choldOf mv, holdRdy := decide (38000 ≤ mv.toNat) }

/-- The device runs from VIN: supply valid and not on hold-up. -/
def onVin (s : State) : Bool := s.pwr.supplyValid && s.pwr.vinPresent && !s.pwr.onHoldup

/-- Log a force (R67, R68): its cause and the junction. -/
def logForce (cause : Nat) (s : State) : State := ev 0x1020#16 cause s.pwr.tj.toNat 0 s

/-- VIN_LOSS (R37, R38, R41, R42): hold-up and its force; 0x1010, and 0x1013 where HOLD_RDY is clear. VIN now reads some
value below 5.2 V: a free value. A VIN force stays as it was. -/
def doVinLoss (choldMv : BitVec 16) (s : State) : State :=
  if !s.pwr.vinPresent || s.pwr.onHoldup then s
  else
    let (v, s) := drawFree 16 s
    let s := s.modPwr fun p => { p with vinPresent := false, vinMv := BitVec.ofNat 16 (v.toNat % 5200), iinMa := 0#16 }
    if !s.pwr.supplyValid then s
    else
      let s := senseChold choldMv s
      let now := s.tbs.tick.toNat
      let s := s.modPwr fun p => { p with onHoldup := true, forceHoldup := true, lossTick := now, chgMa := 0 }
      let s := ev 0x1010#16 choldMv.toNat 0 0 s
      let s := if s.pwr.holdRdy then s else ev 0x1013#16 choldMv.toNat 0 0 s
      forceNow (logForce 3 s)

/-- VIN_LOSS. -/
def execVinLoss (choldMv : BitVec 16) (s : State) : Host.Outcome State Fault Refusal := .next (doVinLoss choldMv s)

/-- The VIN force sets below 11 V (R38). -/
def vinForce (vinMv : BitVec 16) (s : State) : State :=
  if decide (vinMv.toNat < 11000) && !s.pwr.forceVin then
    forceNow (logForce 2 (s.modPwr fun p => { p with forceVin := true }))
  else s

/-- A force ends (R67, R68). -/
def dropForce (cause : Nat) (f : Pwr → Pwr) (s : State) : State := forceEnds (ev 0x1021#16 cause 0 0 (s.modPwr f))

/-- VIN_RETURN (R38, R41): the dropout's duration is logged, the VIN force is judged, then the hold-up force is removed. -/
def doVinReturn (vinMv choldMv : BitVec 16) (s : State) : State :=
  if !s.pwr.onHoldup || decide (vinMv.toNat < 5400) then s
  else
    let us := usOf (s.tbs.tick.toNat - s.pwr.lossTick)
    let s := ev 0x1011#16 us choldMv.toNat 0 (senseChold choldMv s)
    let s := s.modPwr fun p => { p with vinPresent := true, vinMv := vinMv, onHoldup := false }
    dropForce 3 (fun p => { p with forceHoldup := false }) (vinForce vinMv s)

/-- VIN_RETURN. -/
def execVinReturn (vinMv choldMv : BitVec 16) (s : State) : Host.Outcome State Fault Refusal :=
  .next (doVinReturn vinMv choldMv s)

/-- VIN_FORCE_SET (R38), judged only while VIN is present. -/
def doVinForceSet (vinMv : BitVec 16) (s : State) : State :=
  if onVin s then vinForce vinMv (s.modPwr fun p => { p with vinMv := vinMv }) else s

/-- VIN_FORCE_SET. -/
def execVinForceSet (vinMv : BitVec 16) (s : State) : Host.Outcome State Fault Refusal := .next (doVinForceSet vinMv s)

/-- VIN_FORCE_CLEAR (R38): VIN has been above 12.0 V for 100 ms. -/
def doVinForceClear (vinMv : BitVec 16) (s : State) : State :=
  if onVin s && s.pwr.forceVin && decide (12000 < vinMv.toNat) then
    dropForce 2 (fun p => { p with forceVin := false, vinMv := vinMv }) s
  else s

/-- VIN_FORCE_CLEAR. -/
def execVinForceClear (vinMv : BitVec 16) (s : State) : Host.Outcome State Fault Refusal := .next (doVinForceClear vinMv s)

/-- VIN_SURGE (R36): VIN has been above 50 V. -/
def doVinSurge (peakMv durUs : BitVec 32) (s : State) : State :=
  if s.pwr.supplyValid && decide (50000 < peakMv.toNat) then raise 0x1014#16 peakMv durUs 0#32 s else s

/-- VIN_SURGE. -/
def execVinSurge (peakMv durUs : BitVec 32) (s : State) : Host.Outcome State Fault Refusal :=
  .next (doVinSurge peakMv durUs s)

/-- HOLD_UP_EXHAUSTED (R42): the event goes to the battery buffer, and the brown-out is a cold reset. -/
def doHoldUpExhausted (s : State) : State :=
  if !s.pwr.onHoldup then s
  else
    let us := usOf (s.tbs.tick.toNat - s.pwr.lossTick)
    trigCold 1 (ev 0x1012#16 us 0 0 (s.modEvr fun e => { e with ph := .battery }))

/-- HOLD_UP_EXHAUSTED. -/
def execHoldUpExhausted (s : State) : Host.Outcome State Fault Refusal := .next (doHoldUpExhausted s)

/-- HOLD_RDY: CHOLD_MAIN crosses 38 V (R40). -/
def doHoldRdy (choldMv : BitVec 16) (s : State) : State := if s.pwr.supplyValid then senseChold choldMv s else s

/-- HOLD_RDY. -/
def execHoldRdy (choldMv : BitVec 16) (s : State) : Host.Outcome State Fault Refusal := .next (doHoldRdy choldMv s)

/-- VFLASH_TRIP (R44): the first trip of a cycle is retried; one before the retry has succeeded leaves the rail off. -/
def doVflashTrip (ma : BitVec 16) (s : State) : State :=
  if !s.pwr.vflashOn then s
  else
    let again := s.pwr.vfRetry == .retrying
    let s := s.modPwr fun p => { p with
      trips := bvSat p.trips 1, vfRetry := if again then .faulted else .tripped, vflashFault := again || p.vflashFault }
    settle (vflashDown (ev (if again then 0x1032#16 else 0x1030#16) ma.toNat 0 0 s))

/-- VFLASH_TRIP. -/
def execVflashTrip (ma : BitVec 16) (s : State) : Host.Outcome State Fault Refusal := .next (doVflashTrip ma s)

/-- VFLASH_RETRY (R44). -/
def doVflashRetry (s : State) : State :=
  if s.pwr.vfRetry == .tripped && s.pwr.vfEn && !lowRung s then
    settle (vflashUp (s.modPwr fun p => { p with vfRetry := .retrying }))
  else s

/-- VFLASH_RETRY. -/
def execVflashRetry (s : State) : Host.Outcome State Fault Refusal := .next (doVflashRetry s)

/-- VFLASH_RETRY_SUCCESS (R44): the next trip begins a new cycle. -/
def doVflashRetrySuccess (s : State) : State :=
  if s.pwr.vfRetry == .retrying && s.pwr.vflashOn then
    ev 0x1031#16 0 0 0 (s.modPwr fun p => { p with vfRetry := .fresh })
  else s

/-- VFLASH_RETRY_SUCCESS. -/
def execVflashRetrySuccess (s : State) : Host.Outcome State Fault Refusal := .next (doVflashRetrySuccess s)

/-- PWR_VFLASH.FAULT_CLR (R44): the count and the fault clear, and an enabled rail comes back. -/
def faultClr (s : State) : State :=
  let was := s.pwr.vflashFault
  let s := s.modPwr fun p => { p with
    trips := 0#2, vflashFault := false, vfRetry := if p.vfRetry == .faulted then .fresh else p.vfRetry }
  if was && s.pwr.vfEn && !s.pwr.vflashOn && !lowRung s then settle (vflashUp s) else s

/-- VFLASH_FAULT_CLR. -/
def doVflashFaultClr (a : Agent) (s : State) : State := access a (pwrOff 0x18) faultClr s

/-- VFLASH_FAULT_CLR. -/
def execVflashFaultClr (a : Agent) (s : State) : Host.Outcome State Fault Refusal := .next (doVflashFaultClr a s)

/-- PWR_VFLASH.EN (R45): the rail is switched, or a write of 0 is refused while a channel is outside SEALED. -/
def vflashEn (en : Bool) (s : State) : State :=
  let m := unsealedMask s
  if en then
    if s.pwr.vfEn || lowRung s then s.modPwr fun p => { p with vfEn := true }
    else settle (vflashUp s)
  else if m ≠ 0#16 then ev 0x1033#16 m.toNat 0 0 s
  else
    let was := s.pwr.vflashOn
    let s := s.modPwr fun p => { p with vfEn := false, vfRetry := if p.vflashFault then p.vfRetry else .fresh }
    if was then settle (vflashDown s) else s

/-- VFLASH_EN_WRITE. -/
def doVflashEnWrite (a : Agent) (en : Bool) (s : State) : State := access a (pwrOff 0x18) (vflashEn en) s

/-- VFLASH_EN_WRITE. -/
def execVflashEnWrite (a : Agent) (en : Bool) (s : State) : Host.Outcome State Fault Refusal := .next (doVflashEnWrite a en s)

/-- BATTERY_ONLY_ENTRY (R46, R47): the always-on domain runs from a cell that counts as present (R48); a rail still in
regulation has left it, which is a brown-out (R69). Retention memory is lost. -/
def doBatteryOnlyEntry (vbatMv : BitVec 12) (s : State) : State :=
  if s.aon.batteryOnly || onVin s || decide (vbatMv.toNat < 2200) then s
  else
    let s := if s.pwr.supplyValid then trigCold 1 (s.modEvr fun e => { e with ph := .battery }) else s
    let secs := s.aon.calSecs.toNat
    let s := s.modAon fun a => { a with batteryOnly := true, batSince := secs }
    let s := s.modPwr fun p => { p with
      vinPresent := false, supplyValid := false, vbatMv := vbatMv, batPresent := true, retValid := false }
    ev 0x1060#16 vbatMv.toNat 0 0 (s.modEvr fun e => { e with ph := .battery })

/-- BATTERY_ONLY_ENTRY. -/
def execBatteryOnlyEntry (vbatMv : BitVec 12) (s : State) : Host.Outcome State Fault Refusal :=
  .next (doBatteryOnlyEntry vbatMv s)

/-- VBAT_CHECK (R48, R49): BAT_LOW follows the check while a cell is present, and each fall is logged once. -/
def doVbatCheck (vbatMv : BitVec 12) (s : State) : State :=
  if !s.pwr.supplyValid then s
  else
    let bat := decide (2200 ≤ vbatMv.toNat)
    let low := bat && decide (vbatMv.toNat < 2700)
    let log := low && !s.pwr.batLowLogged
    let s := s.modPwr fun p => { p with
      vbatMv := vbatMv, batPresent := bat, batLow := low,
      batLowLogged := low || (p.batLowLogged && decide (vbatMv.toNat < 2700)) }
    if log then ev 0x1062#16 vbatMv.toNat 0 0 s else s

/-- VBAT_CHECK. -/
def execVbatCheck (vbatMv : BitVec 12) (s : State) : Host.Outcome State Fault Refusal := .next (doVbatCheck vbatMv s)

/-- The cap of the effective profile in mW (R63). -/
def capMw (s : State) : Nat := match s.pwr.profileEff.toNat with | 0 => 48000 | 1 => 40000 | _ => 20000

/-- The charge current in mA (R450): what 5.0 A of input leaves over, at most 400 mA, none on hold-up. -/
def chargeMa (loadMw : Nat) (s : State) : Nat :=
  if s.pwr.onHoldup then 0
  else min 400 (94 * (5 * s.pwr.vinMv.toNat - loadMw) * 10 / (max 1 (s.pwr.choldV.toNat * 20)))

/-- The supplies of the powered clusters are held below the setting (R66): their level is a free value from 550 mV. -/
def lowerVcore (s : State) : State :=
  let (v, s) := drawFree 10 s
  let top := (vcoreOf s).toNat - 550
  s.modPln fun p => { p with clusters := p.clusters.map fun x =>
    if x.st = 0 then x else { x with vcore := BitVec.ofNat 10 (550 + v.toNat % top) } }

/-- POWER_MEASUREMENT (R66, R450): `pinMw` is the input power, `loadMw` the same without recharge, which alone is compared
with the cap; `restored` says that the cluster supplies are back at the profile's setting. -/
def doPowerMeasurement (pinMw loadMw : BitVec 24) (vinMv choldMv : BitVec 16) (restored : Bool) (s : State) : State :=
  if !s.pwr.supplyValid then s
  else
    let s := senseChold choldMv s
    let s := s.modPwr fun p => { p with
      pinMw := pinMw, vinMv := vinMv,
      iinMa := BitVec.ofNat 16 (if vinMv = 0#16 then 0 else min 5000 (pinMw.toNat * 1000 / vinMv.toNat)) }
    let s := s.modPwr fun p => { p with chgMa := chargeMa loadMw.toNat s }
    let s :=
      if s.pwr.capThrottle && restored then
        clusterPower (s.modPwr fun p => { p with capThrottle := false, capCount := 0, capPeak := 0#24 })
      else s
    if s.pwr.capThrottle then
      let s := s.modPwr fun p => { p with
        capCount := p.capCount + 1, capPeak := if p.capPeak.toNat < loadMw.toNat then loadMw else p.capPeak }
      if s.pwr.capCount = 101 then ev 0x1023#16 (capMw s) s.pwr.capPeak.toNat 0 s else s
    else if decide (capMw s < loadMw.toNat) then
      lowerVcore (s.modPwr fun p => { p with capThrottle := true, capCount := 1, capPeak := loadMw })
    else s

/-- POWER_MEASUREMENT. -/
def execPowerMeasurement (pinMw loadMw : BitVec 24) (vinMv choldMv : BitVec 16) (restored : Bool) (s : State) :
    Host.Outcome State Fault Refusal := .next (doPowerMeasurement pinMw loadMw vinMv choldMv restored s)

/-- THERMAL_FORCE (R67): the junction at or above TJ_HIGH. -/
def doThermalForce (tj : Int) (s : State) : State :=
  if s.pwr.supplyValid && decide ((s.pwr.tjHigh.toNat : Int) ≤ tj) then
    let s := s.modPwr fun p => { p with tj := tj }
    if s.pwr.forceTherm then s
    else forceNow (logForce 1 (s.modPwr fun p => { p with forceTherm := true }))
  else s

/-- THERMAL_FORCE. -/
def execThermalForce (tj : Int) (s : State) : Host.Outcome State Fault Refusal := .next (doThermalForce tj s)

/-- THERMAL_FORCE_RELEASE (R67): the junction has been below TJ_HIGH − HYST for 100 ms. -/
def doThermalForceRelease (tj : Int) (s : State) : State :=
  if s.pwr.forceTherm && decide (tj < (s.pwr.tjHigh.toNat : Int) - s.pwr.hyst.toNat) then
    dropForce 1 (fun p => { p with forceTherm := false, tj := tj }) s
  else s

/-- THERMAL_FORCE_RELEASE. -/
def execThermalForceRelease (tj : Int) (s : State) : Host.Outcome State Fault Refusal := .next (doThermalForceRelease tj s)

/-- PROFILE as R128 clamps it: ENDURANCE where the ceiling does not permit the record value. -/
def profClamp (s : State) (sel : BitVec 2) : BitVec 2 :=
  if sel.toNat < 2 && (ceilW s 0).getLsbD sel.toNat then sel else 2#2

/-- A write of PWR_PROFILE.SEL (R64, R133, R135): 3 is ignored; another waits for the frame boundary. -/
def selWrite (sel : BitVec 2) (s : State) : State :=
  if sel = 3#2 then ev 0x1024#16 3 0 0 s
  else
    let e := profClamp s sel
    let s := noteClamp (pwrOff 4) (sel.setWidth 32) (e.setWidth 32) (s.modPwr fun p => { p with sel := sel })
    pendLive (pwrOff 4) (e.setWidth 32) s

/-- A waiting write of SEL is applied (R64, R133): events 0x1022 and 0x5017. -/
def applySel (s : State) : State :=
  match assocGet s.boot.live (pwrOff 4) with
  | none => s
  | some v =>
    let old := s.pwr.selApplied
    let new := v.setWidth 2
    let s := s.modPwr fun p => { p with sel := new, selApplied := new }
    appliedLive (pwrOff 4) v (ev 0x1022#16 old.toNat new.toNat 0 s)

/-- The effective profile becomes what SEL and the forces give (R68). -/
def applyProfile (s : State) : State :=
  let e := effProfile s
  if s.pwr.profileEff = e then s else s.modPwr fun p => { p with profileEff := e }

/-- PROFILE_SEL_WRITE (R64, R134). -/
def doProfileSelWrite (a : Agent) (sel : BitVec 2) (s : State) : State :=
  access a (pwrOff 4) (cfgWrite .live 0x10 (pwrOff 4) (sel.setWidth 32) (selWrite sel)) s

/-- PROFILE_SEL_WRITE. -/
def execProfileSelWrite (a : Agent) (sel : BitVec 2) (s : State) : Host.Outcome State Fault Refusal :=
  .next (doProfileSelWrite a sel s)

end Sys2Proof.Machine
end

