-- ==== Sys2Proof/Machine/Tamperop.lean ====
section
/-! DEFINITION. A tamper alarm and its responses, and the release of a latched source (chapter 15, R381 to R393). -/

namespace Sys2Proof.Machine

/-- The response bits (R402): LOG, NOTIFY, HOLD, RESET, ERASE. -/
def rLog : BitVec 5 := 1#5
/-- NOTIFY. -/
def rNotify : BitVec 5 := 2#5
/-- HOLD. -/
def rHold : BitVec 5 := 4#5
/-- RESET. -/
def rReset : BitVec 5 := 8#5
/-- ERASE. -/
def rErase : BitVec 5 := 16#5

/-- A set has a response. -/
def hasR (set r : BitVec 5) : Bool := set &&& r != 0#5

/-- The start sets (R388): TMP_MIN, and ERASE of source 14 under CELL_ERASE, join them once the CEIL shadow has loaded. -/
def startSets (s : State) : Vector (BitVec 5) 17 :=
  if regPass s 9 then
    Vector.ofFn fun i =>
      startResp[i] ||| tmpMin s i.val ||| (if i.val = 14 && (ceilW s 3).getLsbD 0 then rErase else 0#5)
  else startResp

/-- The set that an alarm applies on main power: RESET acts as HOLD during a start (R388). -/
def mainSet (s : State) (src : Fin 17) : BitVec 5 :=
  let r := s.tmp.resp[src]
  if s.tmp.starting && hasR r rReset then (r &&& ~~~rReset) ||| rHold else r

/-- The domains that HOLD names (R388). -/
def mainHold (s : State) (src : Fin 17) : BitVec 32 :=
  if s.tmp.starting then BitVec.allOnes 32 else s.tmp.holdset[src]

/-- The alarm latches its source, and a HOLD its domains (R389). -/
def latch (src : Fin 17) (doms : BitVec 32) (s : State) : State :=
  s.modAon fun a => { a with
    latched := bvPut a.latched src.val true, domMask := a.domMask.set src (a.domMask[src] ||| doms),
    pendHold := a.pendHold ||| doms }

/-- The condition of a level source is present from now; that of an event source ends at once (R385). -/
def beginCond (src : Fin 17) (s : State) : State :=
  let rest := s.tmp.ended.filter fun e => e.1 ≠ src.val
  if src.val ≤ 14 then
    s.modTmp fun t => { t with
      active := bvPut t.active src.val true, ended := rest, began := assocPut t.began src.val (calMs s) }
  else s.modTmp fun t => { t with ended := assocPut rest src.val s.aon.calSecs.toNat }

/-- ERASE on main power (R354, R386): the vault and the KEK are zeroised, and a recovery ends. A new KEK is drawn at once
where the entropy source runs, else it is owed. -/
def eraseMain (s : State) : State :=
  let s := zeroVault s
  let s := s.modAon fun a => { a with kek := 0#256, kekValid := false }
  let s := s.modTmp fun t => { t with erases := bvSat t.erases 1 }
  let s := if s.ldg.rcvBusy then eraseEnds s else s
  if s.ent.st == .running && decide (rungNo s.pwr.rung < 4) then drawKek 3 s
  else s.modKvt fun k => { k with wipePend := true }

/-- ERASE on the cell (R390): the KEK is zeroised. -/
def eraseCell (s : State) : State := s.modAon fun a => { a with kek := 0#256, kekValid := false }

/-- A tamper alarm (R386 to R390): `det` has bit 0 for detector A and bit 1 for B. The responses run in the order ERASE,
HOLD, RESET, NOTIFY, LOG; the alarm's own event carries the set applied and the set deferred. -/
def alarm (src : Fin 17) (det : Nat) (cause : BitVec 32) (s : State) : State :=
  let s := beginCond src s
  if s.aon.batteryOnly then
    let set := s.aon.onCellResp[src]
    let applied := set &&& (rErase ||| rHold ||| rLog)
    let deferred := set &&& (rNotify ||| rReset)
    let s := if hasR applied rErase then eraseCell s else s
    let s := latch src (if hasR applied rHold then s.aon.onCellHold[src] else 0#32) s
    raise 0xE010#16 (p32 (src.val * 256 + det)) (p32 (applied.toNat * 256 + deferred.toNat)) cause s
  else
    let set := mainSet s src
    let doms := if hasR set rHold then mainHold s src else 0#32
    let s := if hasR set rErase then eraseMain s else s
    let s := latch src doms s
    let s := s.modPwr fun p => { p with
      tamperSince := true, tamperWake := p.tamperWake || hasR set (rNotify ||| rHold ||| rReset) }
    let s := allDoms.foldl (fun s d => if doms.getLsbD d.val then hold d 1 s else s) s
    let s := if hasR set rReset then trigCold 5 s else s
    let s := if hasR set rLog then s.modTmp fun t => { t with alarms := bvSat t.alarms 1, last := some src } else s
    settle (raise 0xE010#16 (p32 (src.val * 256 + det)) (p32 (set.toNat * 256)) cause s)

/-- A detector is marked failed; a source that loses both alarms with cause 3 (R393). -/
def failDet (src : Fin 6) (b : Bool) (s : State) : State :=
  let was := s.tmp.failA.getLsbD src.val && s.tmp.failB.getLsbD src.val
  let s := s.modTmp fun t =>
    if b then { t with failB := bvPut t.failB src.val true } else { t with failA := bvPut t.failA src.val true }
  if !was && s.tmp.failA.getLsbD src.val && s.tmp.failB.getLsbD src.val then alarm ⟨src.val, by omega⟩ 0 3#32 s else s

/-- The detectors of a physical source that count: not failed, not under test (R383, R393); bit 0 A, bit 1 B. -/
def detsLive (s : State) (src : Nat) : Nat :=
  (if s.tmp.failA.getLsbD src then 0 else 1) + (if s.tmp.failB.getLsbD src then 0 else 2)

/-- Do these trips alarm (R383)? By OR, or, for a source of the AND mask with both detectors in use, by AND. -/
def tripsAlarm (s : State) (src trips : Nat) : Bool :=
  let live := trips &&& detsLive s src
  if s.tmp.andMask.getLsbD src && detsLive s src = 3 then live = 3 else live ≠ 0

/-- The level driven on TMP_OUT[n] (R384): low, high, or the LFSR's last stage (DESIGN CHOICE, log entry 47); a dynamic
pair without a seed runs as a static loop. On the cell the modes last applied stand (R390). -/
def tmpOut (s : State) (n : Fin 8) : Bool :=
  let m := if s.aon.batteryOnly then s.aon.onCellPin else s.tmp.pinMode
  match m.toNat / 4 ^ n.val % 4 with
  | 0 => false
  | 2 => if s.aon.seeded then s.aon.lfsr[n].getLsbD 30 else true
  | _ => true

/-- A source is watched now (R382, R384, R390): on the cell the loops and the cell alone, source 2 to L3, source 4 to L4, a
disabled pair never. -/
def watched (s : State) (src : Nat) : Bool :=
  let mode := s.tmp.pinMode.toNat / 4 ^ (src - 6) % 4
  let cellMode := s.aon.onCellPin.toNat / 4 ^ (src - 6) % 4
  if s.aon.batteryOnly then decide (6 ≤ src ∧ src ≤ 14) && (src = 14 || cellMode ≠ 0)
  else if src = 2 then decide (rungNo s.pwr.rung ≤ 3)
  else if src = 4 then decide (rungNo s.pwr.rung ≤ 4)
  else if 6 ≤ src ∧ src ≤ 13 then mode ≠ 0
  else true

/-- A latched source is released (R389): its domains leave the pending hold mask, and lose their TAMPER cause, unless
another latched source has them. -/
def releaseLatch (src : Fin 17) (cause : Nat) (s : State) : State :=
  let mine := s.aon.domMask[src]
  let a : Aon := { s.aon with latched := bvPut s.aon.latched src.val false, domMask := s.aon.domMask.set src 0#32 }
  let others := (List.finRange 17).foldl (fun m i => if a.latched.getLsbD i.val then m ||| a.domMask[i] else m) 0#32
  let freed := mine &&& ~~~others
  let s := s.modAon fun _ => { a with pendHold := a.pendHold &&& ~~~freed }
  let s := s.modTmp fun t => { t with ended := assocDel t.ended src.val }
  let s := ev 0xE012#16 src.val freed.toNat cause s
  settle (allDoms.foldl (fun s d => if freed.getLsbD d.val then unhold d 1 s else s) s)

/-- Fuse integrity, source 15, alarms on each failure of R95 or R96 (R385). -/
def fuseAlarms (n : Nat) (s : State) : State := iterN (alarm 15 0 1#32) n s

end Sys2Proof.Machine
end

