-- ==== Sys2Proof/Machine/Cfgop.lean ====
section
/-! DEFINITION. The configuration (chapter 05): choosing a copy at step 9, the sealed defaults, the retained image, and the
application of the effective fields to every block. -/

namespace Sys2Proof.Machine

/-- Drive the GPIO pins by their uses (R28, R407, R408): 1 and 2 by CHP_GPIO.OUT, a Chain Port select by CHP_SEL, SLV_RDY low
in a slave session (R417), AGENT_STRAP in a recovery boot (R310), the rest not driven. -/
def driveGpio (s : State) : State :=
  s.modPins fun p => { p with gpio := Vector.ofFn fun n =>
    let u := (s.chp.gpioUse[n]).toNat
    let strap := s.boot.eff.agentStrap
    if s.chp.mode = .slaveSession && s.chp.slvRdy == some n then .low
    else if s.ldg.agentBoot && strap.getLsbD 7 && decide (strap.toNat % 16 = n.val) then
      (if strap.getLsbD 4 then .high else .low)
    else if u = 1 ∨ u = 2 then (if s.chp.gpioOut.getLsbD n.val then .high else .low)
    else if u = 3 then (if s.chp.sel.getLsbD n.val then .low else .high)
    else .hiz }

/-- The power block takes the fields of section 0x0010 (R64, R129). -/
def applyPwr (e : Cfg) (s : State) : State :=
  let a := e.auto
  let tj := (e.therm.setWidth 8).toNat
  let hy := ((e.therm >>> 8).setWidth 8).toNat
  s.modPwr fun p => { p with
    sel := e.profile, selApplied := e.profile, profileEff := if anyForce s then 2#2 else e.profile,
    idleEn := a.getLsbD 0, dozeEn := a.getLsbD 1, retainOnPg := a.getLsbD 2, fastEn := a.getLsbD 3,
    idleDwell := BitVec.ofNat 8 (a.toNat / 256), dozeDwell := BitVec.ofNat 16 (a.toNat / 65536),
    tjHigh := BitVec.ofNat 8 (min 120 (max 90 tj)), hyst := BitVec.ofNat 8 (min 20 (max 5 hy)),
    wakeEn := (e.wakeEn.setWidth 5) ||| 8#5, wakeGpio := e.wakeGpio, keepDeep := e.keepDeep }

/-- The tamper monitors take section 0x0090 (R388, R390, R394): event 0xE001. -/
def applyTmp (e : Cfg) (s : State) : State :=
  let mode := (List.range 8).foldl (fun m n => m + (e.pinmode.toList.getD n 1) * 4 ^ n) 0
  let s := s.modTmp fun t => { t with
    starting := false, resp := e.resp, holdset := e.holdset, pinMode := BitVec.ofNat 16 mode, andMask := e.andMask,
    holdAuto := e.holdAutoS }
  let s := s.modAon fun a => { a with
    onCellResp := e.resp, onCellHold := e.holdset, onCellPin := BitVec.ofNat 16 mode }
  let mask := (List.range 17).foldl (fun m n => if watched s n then m + 2 ^ n else m) 0
  ev 0xE001#16 mask e.andMask.toNat 0 s

/-- The watchdogs take section 0x00A0 (R129). The platform periods keep a runtime value through a warm reset (R136). -/
def applyWdg (warm : Bool) (e : Cfg) (s : State) : State :=
  s.modWdg fun w => { w with
    tasks := e.taskEn, strict := e.strict,
    plat := if warm then w.plat else Vector.ofFn fun d => { w.plat[d] with period := e.platMs[d] } }

/-- The Chain Port takes section 0x00B0 and the pin uses (R129, R408, R421). -/
def applyChp (e : Cfg) (s : State) : State :=
  let out := (List.range 16).foldl (fun m n => if (e.gpioUse.toList.getD n 0) = 2#8 then m + 2 ^ n else m) 0
  driveGpio (s.modChp fun c => { c with
    khz := e.khz, winOpcode := e.winOpcode, winAddr := e.winAddr, winTurn := e.winTurn, winSel := e.winSel,
    gpioUse := e.gpioUse, gpioOut := BitVec.ofNat 16 out, slvSel := e.slvSel, slvRdy := e.slvRdy })

/-- The Saddle takes its sections (R129, R303). CONTVER keeps a runtime value through a warm reset (R136). -/
def applySdl (warm : Bool) (e : Cfg) (s : State) : State :=
  s.modSdl fun d => { d with
    present := e.present, pass := e.pass, contver := if warm then d.contver else e.contver,
    ch := Vector.ofFn fun c => { d.ch[c] with cfg := e.chans[c] } }

/-- The image objects and the release plans (R310, R311, R314); a plan whose DOM_PG input is not good begins held by PG
(R308). -/
def applyLdg (e : Cfg) (s : State) : State :=
  let s := s.modLdg fun l => { l with
    objs := Vector.ofFn fun o => { l.objs[o] with cfg := e.objs.find? fun x => x.obj = o } }
  let low (x : Plan) : Bool := x.pgReq && !s.pins.domPg.getLsbD x.dom.val
  s.modPrs fun p => { p with dom := Vector.ofFn fun d =>
    let plan := e.plans.find? fun x => x.dom = d
    { p.dom[d] with plan := plan, hold := if (plan.map low).getD false then bvPut p.dom[d].hold 4 true else p.dom[d].hold } }

/-- Apply the effective configuration to every block (R82 step 9, R75 step 5). In the states of R111 no domain has a
plan, so every one stays held. -/
def applyCfg (warm : Bool) (e : Cfg) (s : State) : State :=
  let e := if lcClosed s then { e with plans := [] } else e
  let s := s.modBoot fun b => { b with eff := e, rwl := e.rwlMask.setWidth 16, freeze := e.freeze }
  let s := if warm then s else applyPwr e s
  let s := applyChp e (applyWdg warm e (applySdl warm e (applyLdg e s)))
  let s := s.modKvt fun k => { k with remask := BitVec.ofNat 7 e.remaskMs }
  let s := s.modAtt fun a => { a with role := e.role }
  let s := s.modEvr fun v => { v with notifySev := e.notifySev }
  let s := s.modPmc fun p => { p with userEn := e.pmcUserEn }
  let s := s.modPln fun p => { p with pinIpus := e.pinIpus, pinClusters := e.pinClusters }
  let s := firstFrame s
  let s := setQuotas (fun f => e.quotas.toList.getD f 0) s
  let s := ev 0x7001#16 s.pln.usable s.pwr.profileEff.toNat 0 s
  applyTmp e s

/-- The result of the fetch of a copy: its reason, 0 if it is valid, and its bytes and fields. -/
def fetchCopy (n : Nat) (fault : Bool) (b : Bytes) (s : State) : Nat × Option (Bytes × Cfg) × State :=
  match judgeCopy fault (serialNo s) b with
  | .ok c => (0, some c, s)
  | .error (r, off) => (r, none, ev 0x5013#16 n r off s)

/-- SEQ of a copy (R121). -/
def copySeq (b : Bytes) : Nat := leAt b 8 4

/-- The sealed defaults apply (R131). -/
def applySealed (aReason bReason : Nat) (ceilFailed : Bool) (s : State) : State :=
  let e := clampCfg (ceilOf s) sealedCfg
  let e := { e with profile := 2#2, rwlMask := 0#32, platMs := Vector.replicate 32 0#20 }
  let meas := BitVec.ofNat 384 (leNat (sha3_384 sealedImage))
  let s := s.modGlb fun g => { g with sealedDefaults := true }
  let s := s.modBoot fun b => { b with
    src := 0#2, aReason := BitVec.ofNat 4 aReason, bReason := BitVec.ofNat 4 bReason, clamps := 0#8, seq := 0#32,
    len := 72#16, blMin := 1#16, meas := meas, imgCopy := sealedImage, imgMeas := meas, imgClamps := [], imgSecded := true }
  let s := ev 0x5015#16 aReason bReason (if ceilFailed then 1 else 0) s
  applyCfg false e s

/-- A valid copy is clamped, logged and applied (R126, R128); `pf0Only` keeps the host link to PF0 (R139). -/
def applyCopy (n : Nat) (c : Bytes × Cfg) (pf0Only : Bool) (s : State) : State :=
  let e := clampCfg (ceilOf s) c.2
  let cl := clampList c.2 e
  let meas := BitVec.ofNat 384 (leNat (sha3_384 c.1))
  let s := s.modGlb fun g => { g with sealedDefaults := false }
  let s := s.modBoot fun b => { b with
    src := BitVec.ofNat 2 n, clamps := BitVec.ofNat 8 (min 255 cl.length), seq := p32 (copySeq c.1),
    len := BitVec.ofNat 16 c.1.length, blMin := BitVec.ofNat 16 (leAt c.1 6 2), meas := meas, imgCopy := c.1,
    imgMeas := meas, imgClamps := cl, imgSecded := true }
  let s := cl.foldl (fun s x => ev 0x5011#16 x.1 x.2.1 x.2.2 s) s
  let s := ev 0x5016#16 n (copySeq c.1) cl.length s
  applyCfg false (if pf0Only then { e with vfCount := 0 } else e) s

/-- Step 9 of the cold start (R120, R124, R125, R131): copy A first, then B; an update marker still present is logged and
cleared (R140). -/
def loadConfig (i : StartIn) (s : State) : State :=
  let (ra, ca, s) := fetchCopy 1 i.faultA s.nv.cfgA s
  let (rb, cb, s) := fetchCopy 2 i.faultB s.nv.cfgB s
  let s := match s.aon.marker with
    | some (b, step) =>
      ev 0x5024#16 (if b then 2 else 1) step 0 (s.modAon fun a => { a with marker := none })
    | none => s
  let s := s.modBoot fun b => { b with aReason := BitVec.ofNat 4 ra, bReason := BitVec.ofNat 4 rb }
  let ceilBad := !regPass s 9
  match ca, cb with
  | none, none => applySealed ra rb ceilBad s
  | some a, none => if ceilBad then applySealed ra rb true s else applyCopy 1 a false s
  | none, some b => if ceilBad then applySealed ra rb true s else applyCopy 2 b false s
  | some a, some b =>
    let s := if copySeq a.1 = copySeq b.1 then ev 0x5014#16 (copySeq a.1) 0 0 s else s
    if ceilBad then applySealed ra rb true s
    else if copySeq b.1 > copySeq a.1 then applyCopy 2 b false s
    else applyCopy 1 a false s

/-- The failed check of the retained image (R132): 0 where all pass, else 1, 2 or 3. -/
def retainedCheck (s : State) : Nat :=
  if !s.boot.imgSecded then 1
  else if leNat (sha3_384 s.boot.imgCopy) ≠ s.boot.imgMeas.toNat then 2
  else if s.boot.src = 0 then 0
  else match judgeCopy false (serialNo s) s.boot.imgCopy with
    | .error _ => 3
    | .ok c => if regPass s 9 && clampList c.2 (clampCfg (ceilOf s) c.2) == s.boot.imgClamps then 0 else 3

/-- The retained image is applied at a warm start (R75 step 5, R132, R136). -/
def applyRetained (s : State) : State := applyCfg true s.boot.eff s

end Sys2Proof.Machine
end

