-- ==== Sys2Proof/Machine/Rcvop.lean ====
section
/-! DEFINITION. Recovery packages, the golden copies and the recovery boot of the host agent (R328 to R334). -/

namespace Sys2Proof.Machine

/-- The check codes that leave a manifest verified: none, the root's, and those of the two floors (R297, R318). -/
def manVerified (code : Nat) : Bool := code = 0 || code = 6 || code = 7 || code = 8

/-- Page programs of the recovery's target, from a slot offset (R332 step 3). -/
def putBody (o : Fin 64) (off : Nat) (b : Bytes) (s : State) : State :=
  match s.ldg.objs[o].cfg with
  | some e => emit (.flashCmd e.ch false 0x12#8 (e.base + BitVec.ofNat 32 off) b) s
  | none => s

/-- The facts a check of a copy leaves: its code, its manifest, and whether that manifest verified. -/
def keepCheck (o : Fin 64) (w : SlotSel) (code : Nat) (m : Option ManInfo) (s : State) : State :=
  let c := BitVec.ofNat 4 code
  let v := manVerified code
  modObj o (fun x => match w with
    | .a => { x with checkA := c, okA := code = 0, doneA := true, manA := m, mvA := v }
    | .b => { x with checkB := c, okB := code = 0, doneB := true, manB := m, mvB := v }
    | .golden => { x with checkG := c, manG := m, mvG := v }) s

/-- The golden copy of an object lies on a flash that answered (R282, R333). -/
def goldenThere (s : State) (o : Fin 64) : Bool :=
  flashFound s 15 true && ((s.ldg.objs[o].cfg.map (·.goldOff)).getD 0xFFFFFFFF#32) != 0xFFFFFFFF#32

/-- Check a golden copy in full (R318, R332): its code, its manifest and the state after, a failure logged. -/
def checkGolden (o : Fin 64) (f : SlotFacts) (s : State) : Nat × Option ManInfo × State :=
  let (code, m) := if goldenThere s o then slotCode ⟨false, false, true⟩ o false f s else (11, none)
  let s := keepCheck o .golden code m s
  (code, m, if code = 0 then s else ev 0xB023#16 (o.val * 2) code 1 s)

/-- Check a delivered package's manifest (R332): checks 1, 5, 2, 3, 4, 7 and 8. -/
def checkPkg (o : Fin 64) (man : Bytes) (s : State) : Nat × Option ManInfo :=
  let (code, m) := slotCode ⟨false, false, false⟩ o false ⟨man, [], false⟩ s
  match m with
  | some i => if code = 0 && decide (i.secver.toNat < ledFloor s o.val) then (8, m) else (code, m)
  | none => (code, m)

/-- A write of a slot that the device itself makes ends its standing check (R319) and reaches the flash outward. -/
def putImage (o : Fin 64) (man : Bytes) (s : State) : State :=
  match s.ldg.objs[o].cfg with
  | some e => unstand o false (emit (.flashCmd e.ch false 0x12#8 (e.base + e.len - 8192#32) man) s)
  | none => s

/-- Recovery steps 1 and 2 (R332): RETIRED for a target that was in use, WRITTEN, the erase. The attempt's failure cause, 0
none. -/
def beginWrite (o : Fin 64) (origin : Nat) (s : State) : Nat × State :=
  let l := latestSt s o.val false
  let (ok, s) := if l = 2 || l = 3 then ledRestate o false 4 (some origin) s else (true, s)
  if !ok then (5, s)
  else
    let (ok, s) := ledAppend o false 1 origin 0#32 0#16 0#256 s
    if !ok then (5, s)
    else
      let s := eraseSlot o false s
      if !((s.ldg.objs[o].cfg.map fun e => flashFound s e.ch false).getD false) then (4, s) else (0, s)

/-- The programmed package awaits its readback (R332 step 4). -/
def awaitReadback (origin : Nat) (s : State) : State := s.modLdg fun l => { l with rcvStage := 1, rcvOrigin := origin }

/-- Recovery steps 1 to 3 (R332) of a package that is delivered whole. The attempt's failure cause, 0 none. -/
def writePkg (o : Fin 64) (origin : Nat) (p : PkgIn) (s : State) : Nat × State :=
  let r := beginWrite o origin s
  if r.1 ≠ 0 then r
  else if p.flashOk then (0, awaitReadback origin (putImage o p.man r.2))
  else (4, r.2)

/-- The target of an attempt that failed on its way is no eligible slot (R319, R332). -/
def notRestored (o : Fin 64) (s : State) : State := modObj o (fun x => { x with okA := false, doneA := true }) s

/-- A checked package is written, or its attempt fails (R332). -/
def takePkg (o : Fin 64) (origin : Nat) (p : PkgIn) (s : State) : State :=
  let r := writePkg o origin p s
  if r.1 = 0 then r.2 else nextAttempt (failAttempt r.1 (notRestored o r.2))

/-- Recovery steps 4 and 5 (R332): the readback's check, then VERIFIED, or the target erased and retired. The readback stands
as slot A's check of this start (DEDUCED, R319). -/
def readback (o : Fin 64) (f : SlotFacts) (s : State) : State :=
  let origin := s.ldg.rcvOrigin
  let src := s.ldg.rcvSrc
  let (code, m) := slotCode ⟨false, true, true⟩ o false f s
  let s := s.modLdg fun l => { l with rcvStage := 0, rcvTail := [] }
  let i := m.getD {}
  if code ≠ 0 then
    let s := ev 0xB023#16 (o.val * 2) code 0 s
    let s := (ledRestate o false 4 (some origin) (eraseSlot o false s)).2
    nextAttempt (failAttempt (if code = 11 then 4 else 2) (keepCheck o .a code none s))
  else
    let (ok, s) := ledAppend o false 2 origin i.version i.secver (digestOf i) s
    if !ok then nextAttempt (failAttempt 5 (notRestored o s))
    else
      let s := keepCheck o .a 0 m s
      let s := if src = 3 then toolEnd 1 s else s
      let s := ev 0xB043#16 o.val src i.version.toNat s
      let s := s.modLdg fun l => { l with rcvObj := none, rcvSrc := 0, rcvOrder := [] }
      nextAttempt (chooseSlot o s)

/-- A source 2 session is open (R333, R336). -/
def agentSession (s : State) : Bool := s.ldg.agentBoot || (s.ldg.rcvSrc = 2 && decide (s.ldg.rcvStage ≤ 1))

/-- The attempt fails now (R331, R334); a target already erased for it is no eligible slot. -/
def failNow (cause : Nat) (s : State) : State :=
  let s := match s.ldg.rcvObj with
    | some o => if s.ldg.rcvStage = 5 then notRestored o s else s
    | none => s
  nextAttempt (failAttempt cause s)

/-- The tail of a package that arrives in parts has come (R379, R419): its manifest is checked, and the target is erased. -/
def tailArrived (o : Fin 64) (origin : Nat) (tail : Bytes) (s : State) : State :=
  let r := beginWrite o origin s
  if (checkPkg o (tail.take 5592) s).1 ≠ 0 then nextAttempt (failAttempt 2 s)
  else if r.1 = 0 then r.2.modLdg fun l => { l with rcvStage := 5, rcvTail := tail, rcvOrigin := origin }
  else nextAttempt (failAttempt r.1 (notRestored o r.2))

/-- Every byte of such a package has come: the tail is programmed after the body, and the readback follows (R379, R419). -/
def bodyArrived (o : Fin 64) (s : State) : State :=
  let len := ((s.ldg.objs[o].cfg.map (·.len)).getD 0#32).toNat
  awaitReadback s.ldg.rcvOrigin (unstand o false (putBody o (len - 8192) s.ldg.rcvTail s))

/-- A recovery boot ends (R333): DOM_RST# asserted, the golden view off, AGENT_STRAP restored, and the plan runs again. -/
def endBoot (cause : Nat) (s : State) : State :=
  match s.boot.eff.agentDom with
  | some d =>
    if !s.ldg.agentBoot then s
    else
      let was := s.prs.dom[d].st == .released && s.prs.dom[d].golden
      let s := if was then leaveReleased d .held s else s
      let s := modCh 15 (fun x => { x with golden := false }) s
      let s := driveStrap false (s.modLdg fun l => { l with agentBoot := false })
      let s := ev 0xB045#16 d.val cause 0 s
      if was then cascadeFrom d s else s
  | none => s

/-- The source 2 session ends: a recovery boot with it, and the attempt that waited (R333). -/
def endSession (cause attempt : Nat) (s : State) : State :=
  let waits := s.ldg.rcvSrc = 2 && s.ldg.rcvStage = 0
  let s := endBoot cause s
  if waits then nextAttempt (failAttempt attempt s) else settle s

/-- The agent's golden copy has passed (R333): the recovery boot, or source 2 is skipped. Before device ready it waits. -/
def agentBoot (s : State) : State :=
  match s.boot.eff.agentDom, s.ldg.rcvObj with
  | some d, some o =>
    if !s.glb.ready then s.modLdg fun l => { l with rcvStage := 3 }
    else if !agentBootOk s d then nextAttempt (failAttempt 1 s)
    else
      let s := modCh 15 (fun x => { x with golden := true }) s
      let s := driveStrap true (s.modLdg fun l => { l with agentBoot := true, rcvStage := 0 })
      let s := ev 0xB044#16 d.val 0 0 (releaseLine d true s)
      settle (openSession 2 o s)
  | _, _ => s

/-- A recovery boot that waited for device ready goes on (R316, R333). -/
def agentReady (s : State) : State := if s.ldg.rcvSrc = 2 && s.ldg.rcvStage = 3 then agentBoot s else s

/-- The golden copy of AGENT_OBJ has been checked for a recovery boot (R333). -/
def agentGolden (code : Nat) (s : State) : State :=
  if code = 0 then agentBoot s else nextAttempt (failAttempt (if code = 11 then 4 else 2) s)

/-- LDG_CMD (R336): the key and BUSY, then the operation, which answers RESULT and CHECK; a refusal is logged. -/
def ldgCmd (a : Agent) (key : BitVec 16) (op : Nat) (k : State → Nat × Nat × State) (s : State) : State :=
  access a 0xC0000C (fun s =>
    let r := if key ≠ 0xD47E#16 then (1, 0, s) else if s.ldg.busy then (6, 0, s) else k s
    let s := r.2.2.modLdg fun l => { l with result := BitVec.ofNat 4 r.1, check := BitVec.ofNat 4 r.2.1 }
    if r.1 = 0 then s else ev 0xB031#16 op r.1 r.2.1 s) s

/-- Some object has failed the recovery order (R334). -/
def anyFailed (s : State) : Bool := allObjs.any fun o => s.ldg.objs[o].rcvFailed

/-- The recovery order runs again (R334). A quarantined domain that no object of its own keeps there verifies again
(DEDUCED). -/
def runAgain (s : State) : State :=
  let s := allObjs.foldl (fun s o => modObj o (fun x => { x with rcvFailed := false }) s) s
  let s := s.modLdg fun l => { l with retryWait := false }
  settle (allDoms.foldl (fun s d =>
    if s.prs.dom[d].st == .quarantined && (reqObjs s d).all (fun o => !objFailed s o) then startVerify d s else s) s)

end Sys2Proof.Machine
end

