-- ==== Sys2Proof/Machine/Startop.lean ====
section
/-! DEFINITION. The start sequences (chapter 03): the twelve steps of a cold start (R82), the seven of a warm start (R75),
and a start's failure (R87). -/

namespace Sys2Proof.Machine

/-- A step of a start completes: its time, event 0x5001, and the next step in progress. -/
def stepDone (n : Nat) (i : StartIn) (s : State) : State :=
  let t := i.stepUs.getD (n - 1) 0#24
  let s := s.modBoot fun b => { b with stepTime := if h : n - 1 < 12 then b.stepTime.set (n - 1) t else b.stepTime }
  ev 0x5001#16 n t.toNat 0 (s.modGlb fun g => { g with phase := BitVec.ofNat 4 (n + 1) })

/-- The recorder runs: the battery buffer is merged, then the staged records are written (R429, R430). -/
def recorderRuns (s : State) : State := flushStaged (mergeBattery (s.modEvr fun e => { e with ph := .running }))

/-- The start-failure state (R87). -/
def enterStartFail (code : Nat) (s : State) : State :=
  let s := s.modGlb fun g => { g with startFail := true, failCode := BitVec.ofNat 4 code }
  let s := s.modRst fun r => { r with ph := .none, inStart := false }
  let s := ev 0x5004#16 code 0 0 s
  let s := if s.evr.ph = .running then s else recorderRuns s
  let s := s.modPwr fun p => { p with vflashOn := false }
  sealAll s

/-- A start fails (R87): one automatic cold reset, and at the next failure the start-failure state. -/
def failStart (code : Nat) (s : State) : State :=
  if s.aon.startRetry then enterStartFail code s
  else
    let s := ev 0x5008#16 code 0 0 (s.modAon fun a => { a with startRetry := true })
    coldReset s.rst.cold s.rst.warm s

/-- The shadow-valid flags of the regions that passed (R84, BOOT_FUSELOAD.VALID). -/
def validFlags (s : State) : BitVec 8 :=
  let p (r : Nat) : Bool := regPass s r
  bit (p 0) 0 ||| bit (p 1) 1 ||| bit (p 2) 2 ||| bit (p 8) 3 ||| bit (p 9) 4 ||| bit (p 7) 5 ||| bit (p 10 && p 6) 6 |||
    bit (p 11) 7

/-- The life-cycle state is BLANK or MANUFACTURE, as LIFE decodes (R94). -/
def earlyLife (s : State) : Bool := ((lifeDecode (regWords s.fus 2)).map fun p => decide (p.1 ≤ 1)).getD false

/-- Each region that fails integrity alarms tamper source 15 (R95, R385). -/
def loadAlarm (r : Nat) (s : State) : State := if regPass s r then s else alarm 15 0 1#32 s

/-- Load the shadows of some regions in order (R84, R95). -/
def loadShadows (rs : List Nat) (s : State) : State :=
  let s := rs.foldl (fun s r => loadAlarm r (loadRegion (earlyLife s) r s)) s
  let v := validFlags s
  s.modBoot fun b => { b with valid := v }

/-- The regions of step 4, in order of their numbers. -/
def step4Regions : List Nat := [1, 2, 6, 7, 8, 9, 10, 11]

/-- The device watchdog takes its fuses and starts in hardware start (R101, R397). -/
def startWdg (s : State) : State :=
  let (hw, k, n) := optWdg s
  let now := s.tbs.tick.toNat
  let s := s.modWdg fun w => { w with
    hw := hw, k := k, n := n, running := hw, startTick := now, isOpen := n = 0, checked := 0#16, dup := 0#16 }
  if hw then ev 0xE101#16 1 k n s else s

/-- The patch entries enter the match tables and cluster 0 starts (R85); whether PATCH passed. -/
def applyPatches (s : State) : Bool × State :=
  match (if regPass s 11 then patchEntries (regWords s.fus 11) else none) with
  | none => (false, s)
  | some es =>
    let s := s.modBoot fun b => { b with matchTable := es, patches := es.length, cluster0 := true }
    let s := modCluster 0 (fun x => { x with st := 5, vcore := vcoreOf s }) s
    (true, ev 0x5007#16 es.length 0 0 s)

/-- Decode the life-cycle state (R110): whether LIFE passed. -/
def decodeLife (s : State) : Bool × State :=
  match (if regPass s 2 then lifeDecode (regWords s.fus 2) else none) with
  | none => (false, s)
  | some (lc, _) => (true, s.modGlb fun g => { g with lc := BitVec.ofNat 3 lc })

/-- Load the decoded state's root secret (R97): whether it may be used. A read-lock that bars it fails it. -/
def loadRoot (s : State) : Bool × State :=
  match rootRegion s.glb.lc.toNat with
  | none => (true, s)
  | some r =>
    if s.fus.lockR.getLsbD r then (false, s)
    else
      let s := loadAlarm r (loadRegion false r s)
      (regPass s r, s)

/-- FAIL_CODE of a failed self-test (R86). -/
def testCode (b : Nat) : Nat := if b = 0 then 2 else if b = 1 then 3 else if b ≤ 8 then 4 else if b = 9 then 5 else 6

/-- The self-tests (R86): their results, and the FAIL_CODE of the first that failed, 0 where all passed. The entropy source
runs once its start-up tests pass (R356). -/
def selfTests (i : StartIn) (s : State) : Nat × State :=
  let s := s.modBoot fun b => { b with selftest := i.selftest }
  let bad := (List.range 11).filter fun k => !i.selftest.getLsbD k
  let s := bad.foldl (fun s k => ev 0x5003#16 k 0 0 s) s
  let s := if i.selftest.getLsbD 9 then s.modEnt fun e => { e with st := .running, reqs := 0 } else s
  ((bad.head?.map testCode).getD 0, s)

/-- The loops' LFSRs take their seeds (R384). -/
def seedLoops (s : State) : State :=
  if s.ent.st != .running then s
  else
    let (b, s) := drawRandom 32 s
    s.modAon fun a => { a with
      seeded := true, lfsr := Vector.ofFn fun n => BitVec.ofNat 31 (leAt b (4 * n.val) 4) }

/-- The supply, the cell and the junction as they are at supply valid (R38, R49, R50, R67). -/
def senseStart (i : StartIn) (s : State) : State :=
  let bat := i.batPresent && decide (i.vbatMv.toNat ≥ 2200)
  let low := bat && decide (i.vbatMv.toNat < 2700)
  let s := s.modPwr fun p => { p with
    vinPresent := true, supplyValid := true, vinMv := i.vinMv, vbatMv := i.vbatMv, batPresent := bat, batLow := low,
    batLowLogged := low, tj := i.tj, forceTherm := decide (i.tj ≥ 115), forceVin := decide (i.vinMv.toNat < 11000) }
  let secs := s.aon.calSecs.toNat - s.aon.batSince
  let was := s.aon.batteryOnly
  let s := s.modAon fun a => { a with batteryOnly := false }
  let s := if was then ev 0x1061#16 secs 0 0 s else s
  let s := ev 0x1001#16 i.vinMv.toNat 0 0 s
  let s := if low then ev 0x1062#16 i.vbatMv.toNat 0 0 s else if bat then s else ev 0x1063#16 0 0 0 s
  let tj := i.tj.toNat
  let s := if s.pwr.forceTherm then ev 0x1020#16 1 tj 0 s else s
  let s := if s.pwr.forceVin then ev 0x1020#16 2 tj 0 s else s
  forceNow s

/-- The conditions present at a start alarm at it (R385), and the loss of the always-on domain's state (R392). -/
def startAlarms (s : State) : State :=
  let present := s.tmp.active
  let lost := s.aon.lost && s.pwr.batPresent
  let s := if lost then alarm 14 0 2#32 s else s
  let s := s.modAon fun a => { a with lost := false }
  (List.finRange 15).foldl (fun s k =>
    if present.getLsbD k.val && !(lost && k.val = 14) then
      alarm ⟨k.val, by omega⟩ ((if s.tmp.tripA.getLsbD k.val then 1 else 0) + (if s.tmp.tripB.getLsbD k.val then 2 else 0)) 1#32 s
    else s) s

/-- Step 1 ends (R82): the event of the reset, with every cause (R72). -/
def step1Done (i : StartIn) (s : State) : State :=
  let s := s.modRst fun r => { r with heldStart := false, ph := .none, inStart := true, pendWarm := 0#4 }
  let s := ev 0x3001#16 (s.rst.cold.toNat + s.rst.warm.toNat * 256) s.boot.otp 0 s
  stepDone 1 i s

/-- Steps 2 to 4: TRIM, the timebase, the other shadows, the watchdog. The FAIL_CODE, 0 for none. -/
def steps2to4 (i : StartIn) (s : State) : Nat × State :=
  let s := s.modBoot fun b => { b with valid := 0#8 }
  let s := loadShadows [0] s
  if !regPass s 0 then (8, s)
  else
    let s := stepDone 2 i s
    let s := s.modTbs fun t => { t with xtal := true, onRc := false }
    let s := stepDone 3 i (ev 0x2001#16 i.xtalUs.toNat 0 0 s)
    let s := loadShadows step4Regions s
    if !regPass s 1 then (8, s)
    else
      let sets := startSets s
      let s := s.modTmp fun t => { t with resp := sets }
      (0, stepDone 4 i (startWdg s))

/-- Steps 5 to 8: the patches, the life-cycle state and its root, the recorder, the self-tests. -/
def steps5to8 (i : StartIn) (s : State) : Nat × State :=
  let (ok, s) := applyPatches s
  if !ok then (1, s)
  else
    let s := stepDone 5 i s
    let (ok, s) := decodeLife s
    if !ok then (7, s)
    else
      let (ok, s) := loadRoot s
      if !ok then (8, s)
      else
        let s := stepDone 6 i s
        let s := recorderRuns s
        let hs := s.aon.pendHold
        let s := allDoms.foldl (fun s d => if hs.getLsbD d.val then hold d 1 s else s) s
        let s := stepDone 7 i s
        let (code, s) := selfTests i s
        if code ≠ 0 then (code, s) else (0, stepDone 8 i (seedLoops s))

/-- An object without a slot B counts its check as made (R318, R319). -/
def noSlotB (s : State) : State :=
  allObjs.foldl (fun s o =>
    if s.ldg.objs[o].cfg.isSome && !hasSlotB s o then modObj o (fun x => { x with checkB := 11#4, okB := false, doneB := true }) s
    else s) s

/-- Step 10 (R82, R300): the flashes' rail, and every present channel in VERIFYING. Not in the states of R111, nor under
the sealed defaults. -/
def step10 (s : State) : State :=
  if lcClosed s || s.glb.sealedDefaults then s
  else
    let s := noSlotB (vflashUp s)
    if chPresent s 15 then s else ledEmpty 2 s

/-- The identity, unless the state of R111 derives none (R82 step 11, R111, R350). -/
def deriveStart (s : State) : State := if lcClosed s then s else derive (startKek s)

/-- Device ready (R82 step 11, R75 step 6): event 0x5002. -/
def deviceReady (warm : Bool) (us : Nat) (s : State) : State :=
  let s := s.modGlb fun g => { g with ready := true }
  let s := s.modAon fun a => { a with startRetry := false }
  let s := s.modPmc fun p => { p with on := true }
  let s := s.modRst fun r => { r with consec := 0#3, inStart := false, coldStartDone := true }
  ev 0x5002#16 us (if warm then 1 else 0) 0 s

/-- Release begins: HELLO to the parent, the plans (R82 step 12, R75 step 7, R371). -/
def releaseBegins (s : State) : State :=
  agentReady (settle (sendHello (s.modGlb fun g => { g with phase := 15#4 })))

/-- Steps 10 to 12, after the configuration is applied. -/
def steps10to12 (i : StartIn) (s : State) : State :=
  let s := stepDone 10 i (step10 s)
  let s := deriveStart s
  let (b, s) := drawRandom 32 s
  let s := s.modAtt fun a => { a with bootseed := BitVec.ofNat 256 (leNat b) }
  let s := deviceReady false (i.stepUs.getD 10 0#24).toNat (stepDone 11 i s)
  let t := i.stepUs.getD 11 0#24
  releaseBegins (s.modBoot fun b => { b with stepTime := b.stepTime.set 11 t })

/-- Steps 9 to 12. -/
def steps9to12 (i : StartIn) (s : State) : State :=
  steps10to12 i (stepDone 9 i (loadConfig i s))

/-- Steps 2 to 12; a transition in progress waits after step 8 (R114). -/
def coldSteps (i : StartIn) (s : State) : State :=
  let (c, s) := steps2to4 i s
  if c ≠ 0 then failStart c s
  else
    let (c, s) := steps5to8 i s
    if c ≠ 0 then failStart c s
    else if s.glb.lc = 7 then s.modRst fun r => { r with transHold := true }
    else steps9to12 i s

/-- What supply valid finds, before step 1 ends (R35, R37, R385). -/
def supplyFound (i : StartIn) (s : State) : State :=
  (startAlarms (senseStart i (s.modEvr fun e => { e with ph := .staging }))).modPins fun p =>
    { p with devRstLow := i.devRstLow }

/-- The cold start from supply valid (R37, R82): it waits at step 1 while DEV_RST# is low (R35). -/
def coldStart (i : StartIn) (s : State) : State :=
  let s := supplyFound i s
  let now := s.tbs.tick.toNat
  if i.devRstLow then s.modRst fun r => { r with heldStart := true, ph := .none, devRstTick := now }
  else coldSteps i (step1Done i s)

/-- The start goes on once DEV_RST# is released (R35). -/
def resumeHeld (i : StartIn) (s : State) : State :=
  let s := ev 0x3010#16 i.holdMs.toNat 0 0 s
  coldSteps i (step1Done i s)

/-- The first region that failed at a warm reload after passing before (R76). -/
def lostRegion (before : BitVec 12) (s : State) (rs : List Nat) : Option Nat :=
  rs.find? fun r => before.getLsbD r && !regPass s r

/-- Step 7 of the warm start (R73, R75, R80, R327): the ledger is read again, channels in VERIFYING begin again, a rung's
holds end, and the plans resume. -/
def warmRelease (s : State) : State :=
  if lcClosed s || s.glb.sealedDefaults then releaseBegins s
  else
    let low := (allDoms.any fun d => s.prs.dom[d].hold.getLsbD 5) || s.pins.deepPd ||
      (!s.pwr.vflashOn && s.pwr.vfEn && s.pwr.vfRetry != .tripped && s.pwr.vfRetry != .faulted)
    let s := s.modPins fun p => { p with deepPd := false }
    let s := if low then allDoms.foldl (fun s d => unhold d 5 s) (if s.pwr.vflashOn then s else vflashUp s) else s
    let s := (List.finRange 16).foldl (fun s c =>
      if s.sdl.ch[c].mode = .verifying || (low && s.sdl.ch[c].mode = .sealed) then chVerify c s else s) s
    let s := noSlotB s
    let s := if !chPresent s 15 then ledEmpty 2 s else if flashFound s 15 false then sweep (readLedger s) else s
    let s := allDoms.foldl (fun s d => if s.prs.dom[d].st = .verifying then startVerify d s else s) s
    releaseBegins s

/-- Steps 5 to 7 of the warm start. -/
def warmSteps5to7 (i : StartIn) (s : State) : State :=
  match retainedCheck s with
  | 0 =>
    let s := stepDone 5 i (applyRetained s)
    let s := deriveStart s
    let hits := s.rst.emuHits
    let consec := s.rst.consec.toNat
    let causes := s.rst.pendWarm.toNat
    let s := deviceReady true (i.stepUs.getD 5 0#24).toNat (stepDone 6 i s)
    let s := ev 0x3002#16 (s.rst.cold.toNat + causes * 256) consec hits s
    let s := s.modRst fun r => { r with pendWarm := 0#4, emuHits := 0 }
    let now := s.tbs.tick.toNat
    let s := s.modWdg fun w => { w with plat := w.plat.map fun p => { p with paused := false, startTick := now } }
    let t := i.stepUs.getD 6 0#24
    warmRelease (s.modBoot fun b => { b with stepTime := b.stepTime.set 6 t })
  | n => coldReset 0#6 s.rst.warm (ev 0x3014#16 n 0 0 s)

/-- The recorder runs again, and the shadows are loaded again (R75 step 1, R76, R429). -/
def warmLoad (s : State) : State :=
  let s := s.modRst fun r => { r with ph := .none }
  let s := if s.aon.buffer.isEmpty then flushStaged (s.modEvr fun e => { e with ph := .running }) else recorderRuns s
  startWdg (loadShadows step4Regions (s.modEvr fun e => { e with ph := .running }))

/-- Steps 1 to 4 of the warm start (R75), `before` being the regions that passed until now: whether they completed. A region
lost, a transition in progress or a root that may not be used escalates (R76, R115). -/
def warmSteps1to4 (before : BitVec 12) (i : StartIn) (s : State) : Bool × State :=
  match lostRegion before s step4Regions with
  | some r => (false, coldReset 0#6 s.rst.warm (ev 0x3012#16 r 0 0 s))
  | none =>
    match (lifeDecode (regWords s.fus 2)) with
    | some (7, t) => (false, coldReset 0#6 s.rst.warm (ev 0x4033#16 t 0 0 s))
    | _ =>
      let s := stepDone 1 i s
      let (ok, s) := applyPatches s
      if !ok then (false, failStart 1 s)
      else
        let s := stepDone 2 i s
        let (ok, s) := decodeLife s
        if !ok then (false, failStart 7 s)
        else
          let (ok, s) := loadRoot s
          if !ok then (false, coldReset 0#6 s.rst.warm (ev 0x3012#16 ((rootRegion s.glb.lc.toNat).getD 0) 0 0 s))
          else
            let (c, s) := selfTests i (stepDone 3 i s)
            if c ≠ 0 then
              (false, if s.aon.startRetry then enterStartFail c (coldReset 0#6 s.rst.warm s) else failStart c s)
            else (true, stepDone 4 i s)

/-- The warm start (R75). -/
def warmStart (i : StartIn) (s : State) : State :=
  let r := warmSteps1to4 s.fus.pass i (warmLoad s)
  if r.1 then warmSteps5to7 i r.2 else r.2

end Sys2Proof.Machine
end

