-- ==== Sys2Proof/Machine/Resets.lean ====
section
/-! DEFINITION. The meanings of the commands that reset the whole device (chapter 03, R69 to R78). -/

namespace Sys2Proof.Machine

/-- POWER_ON_RESET (R69): the always-on domain starts from nothing, and the cold reset has that cause alone. -/
def doPowerOnReset (s : State) : State := (coldReset 1#6 0#4 s).modAon fun _ => {}

/-- POWER_ON_RESET. -/
def execPowerOnReset (s : State) : Host.Outcome State Fault Refusal := .next (doPowerOnReset s)

/-- BROWN_OUT (R69, R35): an internal rail leaves regulation without hold-up; event 0x1002 goes to the battery buffer.
On the cell alone there is no rail to lose. -/
def doBrownOut (vinMv choldMv : BitVec 16) (s : State) : State :=
  if s.aon.batteryOnly then s
  else
    let s := s.modPwr fun p => { p with vinMv := vinMv, choldV := choldOf choldMv }
    trigCold 1 (ev 0x1002#16 vinMv.toNat choldMv.toNat 0 (s.modEvr fun e => { e with ph := .battery }))

/-- BROWN_OUT. -/
def execBrownOut (vinMv choldMv : BitVec 16) (s : State) : Host.Outcome State Fault Refusal := .next (doBrownOut vinMv choldMv s)

/-- DEV_RST_LOW (R35, R69): the pin falls. -/
def doDevRstLow (s : State) : State :=
  if s.pins.devRstLow then s else trigCold 2 (s.modPins fun p => { p with devRstLow := true })

/-- DEV_RST_LOW. -/
def execDevRstLow (s : State) : Host.Outcome State Fault Refusal := .next (doDevRstLow s)

/-- DEBUG_RESET (R30, R69): the test access port responds in MANUFACTURE and RETURN alone. -/
def doDebugReset (s : State) : State :=
  if (s.glb.lc = 1 || s.glb.lc = 3) && !s.fus.lcDone then trigCold 3 s else s

/-- DEBUG_RESET. -/
def execDebugReset (s : State) : Host.Outcome State Fault Refusal := .next (doDebugReset s)

/-- DOUBLE_BIT_ERROR (R69): in fuse shadows, vault metadata, Watershed tables or Saddle tables. -/
def doDoubleBitError (_w : CritMem) (s : State) : State := trigCold 4 s

/-- DOUBLE_BIT_ERROR. -/
def execDoubleBitError (w : CritMem) (s : State) : Host.Outcome State Fault Refusal := .next (doDoubleBitError w s)

/-- A write of GLB_SWRST.KEY (R69). -/
def swrst (key : BitVec 16) (s : State) : State :=
  if key = 0x7A5C#16 then trigWarm 1 s else ev 0x3030#16 key.toNat 0 0 s

/-- GLB_SWRST. -/
def doGlbSwrst (a : Agent) (key : BitVec 16) (s : State) : State := access a 0xC (swrst key) s

/-- GLB_SWRST. -/
def execGlbSwrst (a : Agent) (key : BitVec 16) (s : State) : Host.Outcome State Fault Refusal := .next (doGlbSwrst a key s)

/-- MANAGEMENT_LOCKUP (R69): cluster 0 runs, and has trapped or missed two heartbeats. -/
def doManagementLockup (cause : BitVec 32) (s : State) : State :=
  if clusterOn s 0 then trigWarm 3 (raise 0x3031#16 cause 0#32 0#32 s) else s

/-- MANAGEMENT_LOCKUP. -/
def execManagementLockup (cause : BitVec 32) (s : State) : Host.Outcome State Fault Refusal := .next (doManagementLockup cause s)

/-- DELAYED_RESET (R77): the pulse that a reset waited for has ended. -/
def doDelayedReset (s : State) : State := if s.fus.prog.isNone then delayedReset s else s

/-- DELAYED_RESET. -/
def execDelayedReset (s : State) : Host.Outcome State Fault Refusal := .next (doDelayedReset s)

/-- FLASH_BUSY_POLL_TIMEOUT (R78): the flash of an abandoned program or erase is given up. -/
def doFlashBusyPollTimeout (c : Fin 16) (s : State) : State :=
  match s.sdl.ch[c].devOp with
  | some (op, cs1) =>
    if s.glb.ready then
      ev 0xA041#16 (c.val * 2 + (if cs1 then 1 else 0)) op.toNat 0 (modCh c (fun x => { x with devOp := none }) s)
    else s
  | none => s

/-- FLASH_BUSY_POLL_TIMEOUT. -/
def execFlashBusyPollTimeout (c : Fin 16) (s : State) : Host.Outcome State Fault Refusal := .next (doFlashBusyPollTimeout c s)

end Sys2Proof.Machine
end

