-- ==== Sys2Proof/Machine/Fieldop.lean ====
section
/-! DEFINITION. The registers that hold configuration fields: what a runtime write of each does (R133 to R136 and the
owning chapters), and when a waiting LIVE write is applied. -/

namespace Sys2Proof.Machine

/-- A field of `n` bits at bit `o` of a value written. -/
def fld (v : BitVec 32) (o n : Nat) : Nat := v.toNat / 2 ^ o % 2 ^ n

/-- PWR_AUTO (R465, R135): a zero dwell makes the whole write ignored. -/
def autoWrite (v : BitVec 32) (s : State) : State :=
  if fld v 8 8 = 0 || fld v 16 16 = 0 then rejectWrite 0x10000C v 4 s
  else
    let w := v &&& 0xFFFFFF0F#32
    let e := autoClamp (ceilOf s) w
    let s := if w = e then s else raise 0x5012#16 (p32 0x10000C) v e s
    s.modPwr fun p => { p with
      idleEn := e.getLsbD 0, dozeEn := e.getLsbD 1, retainOnPg := e.getLsbD 2, fastEn := e.getLsbD 3,
      idleDwell := BitVec.ofNat 8 (fld e 8 8), dozeDwell := BitVec.ofNat 16 (fld e 16 16) }

/-- PWR_THERM: clamped to its range (chapter 02). -/
def thermWrite (v : BitVec 32) (s : State) : State :=
  s.modPwr fun p => { p with
    tjHigh := BitVec.ofNat 8 (min 120 (max 90 (fld v 0 8))), hyst := BitVec.ofNat 8 (min 20 (max 5 (fld v 8 8))) }

/-- PWR_WAKE_EN: the tamper cause is always enabled (R57). -/
def wakeEnWrite (v : BitVec 32) (s : State) : State :=
  s.modPwr fun p => { p with wakeEn := (v.setWidth 5) ||| 8#5 }

/-- A budget register's partition and resource, by its offset in the window (R162). -/
def budReg (o : Nat) : Option (Nat × Nat) :=
  if 0x100 ≤ o ∧ o < 0x400 ∧ 4 ≤ o % 32 ∧ o % 32 < 16 ∧ o % 4 = 0 then some ((o - 0x100) / 32, o % 32 / 4 - 1) else none

/-- A budget (R148): a C0 or C1 partition is never uncapped. -/
def budWrite (p off : Nat) (v : BitVec 32) (s : State) : State :=
  if uncapped v && decide ((part s p).cls ≤ 1) then rejectWrite off v 1 s else pendLive off v s

/-- The Watershed's waiting writes are applied, at a frame boundary (R143, R160). -/
def applyWshLive (s : State) : State :=
  (s.boot.live.filter fun w => w.1 / 0x100000 = 6).foldl (fun s w =>
    let o := w.1 % 0x100000
    let s := match budReg o with
      | some (p, r) => modPart p (fun q => { q with bud := q.bud.put r w.2 }) s
      | none => s.modWsh fun x => { x with riskN := fld w.2 0 4 }
    appliedLive w.1 w.2 s) s

/-- A quota written (R272); the effect of a value outside 1 to 16,384 is not stated: a free value. -/
def quotaWrite (off : Nat) (v : BitVec 32) (s : State) : State :=
  let n := fld v 0 15
  if 1 ≤ n ∧ n ≤ 16384 then pendLive off (p32 n) s
  else
    let (x, s) := drawFree 15 s
    pendLive off (x.setWidth 32) s

/-- A waiting quota is applied, at the partition's next admission decision (R272, R159). -/
def applyQuota (n : Nat) (s : State) : State :=
  let off := 0x800100 + 4 * n
  match assocGet s.boot.live off with
  | none => s
  | some v =>
    let old := s.job.quotas.toList.getD n 0
    let s := setQuotas (fun f => if f = n then v.toNat else s.job.want.toList.getD f 0) s
    ev 0x8025#16 (8 + n) old (s.job.quotas.toList.getD n 0) (appliedLive off v s)

/-- KVT_REMASK (R133, R135, R355): no pass is in progress between commands, so it is applied at once. The effect of 0 is
not stated: a free value. -/
def remaskWrite (v : BitVec 32) (s : State) : State :=
  let m := fld v 0 7
  let rm := fld (ceilW s 12) 0 7
  let top := min 64 (if rm = 0 then 64 else rm)
  let (x, s) := if m = 0 then drawFree 7 s else (BitVec.ofNat 7 (min m top), s)
  let s := if m = 0 then s else noteClamp 0xD0000C (p32 m) (x.setWidth 32) s
  appliedLive 0xD0000C (x.setWidth 32) (s.modKvt fun k => { k with remask := x })

/-- The Chain Port is at an idle point (R411). -/
def chpIdle (s : State) : Bool := s.chp.mode != .masterFrame && !s.boot.updBusy

/-- The Chain Port's waiting writes are applied (R411, R133). -/
def applyChpLive (s : State) : State :=
  if !chpIdle s then s
  else
    (s.boot.live.filter fun w => w.1 / 0x100000 = 34).foldl (fun s w =>
      let s :=
        if w.1 % 0x100000 = 0x14 then s.modChp fun c => { c with khz := fld w.2 0 15 }
        else s.modChp fun c => { c with
          winOpcode := BitVec.ofNat 8 (fld w.2 0 8), winAddr := fld w.2 8 3, winTurn := fld w.2 12 4 }
      appliedLive w.1 w.2 s) s

/-- A setting of the Chain Port out of its range is ignored (R421). -/
def chpIgnored (off : Nat) (v : BitVec 32) (s : State) : State := raise 0xF012#16 (p32 (off % 0x100000)) v 0#32 s

/-- CHP_CLKCFG (R129, R421). -/
def khzWrite (v : BitVec 32) (s : State) : State :=
  let k := fld v 0 15
  if 100 ≤ k ∧ k ≤ 25000 then applyChpLive (pendLive 0x2200014 (p32 k) s) else chpIgnored 0x2200014 v s

/-- CHP_WIN (R129, R421): OPCODE, ADDR and TURN are LIVE, SEL is RW; a field out of its range makes the write ignored. -/
def winWrite (v : BitVec 32) (s : State) : State :=
  let a := fld v 8 3
  let p := fld v 16 4
  if decide (1 ≤ a ∧ a ≤ 4) && (s.chp.gpioUse.toList.getD p 0) = 3#8 then
    let s := cfgWrite .live 0xB0 0x2200018 v (fun s => applyChpLive (pendLive 0x2200018 (v &&& 0xF7FF#32) s)) s
    cfgWrite .rw 0xB0 0x2200018 v (fun s => s.modChp fun c => { c with winSel := BitVec.toFin (v.extractLsb' 16 4) }) s
  else if s.glb.sealedDefaults then rejectWrite 0x2200018 v 3 s
  else chpIgnored 0x2200018 v s

/-- SDL_CONTVER (R305): each channel whose bit changes takes it at its own idle point. -/
def contver (v : BitVec 32) (s : State) : State :=
  let w : BitVec 16 := v.setWidth 16
  let e := if ceilOpt s 0 then w else 0#16
  let s := noteClamp 0xA00010 (w.setWidth 32) (e.setWidth 32) s
  s.modSdl fun d => { d with
    contver := e
    ch := Vector.ofFn fun c =>
      let x := d.ch[c]
      if d.contver.getLsbD c.val != e.getLsbD c.val then { x with cvPend := some (e.getLsbD c.val) } else x }

/-- WDG_PLAT_PERIOD (R400): applied at the next kick or arming. -/
def platPeriod (d : Fin 32) (v : BitVec 32) (s : State) : State :=
  let ms := fld v 0 20
  if ms > 600000 then ev 0xE122#16 d.val ms 0 s
  else modPlat d (fun p => { p with period := BitVec.ofNat 20 ms }) s

/-- EVR_NOTIFY (R134): it applies from the next event raised. -/
def notifyWrite (v : BitVec 32) (s : State) : State :=
  let n := fld v 0 4
  if n > 8 then rejectWrite 0x2300038 v 4 s
  else appliedLive 0x2300038 (p32 n) (s.modEvr fun e => { e with notifySev := n })

/-- PMC_CTRL.USER_EN (R443, R135). -/
def userEnWrite (v : BitVec 32) (s : State) : State :=
  let w := v.getLsbD 0
  let e := w && ceilOpt s 3
  let s := if w = e then s else raise 0x5012#16 (p32 0x2400000) v 0#32 s
  s.modPmc fun p => { p with userEn := e }

/-- The section of a register that shows static fields alone (R129), by its BAR0 offset. -/
def staticReg (off : Nat) : Option Nat :=
  let w := off / 0x100000
  let o := off % 0x100000
  if w = 5 ∧ o = 0x250 then some 0xD0
  else if w = 6 ∧ (o = 4 ∨ (0x100 ≤ o ∧ o < 0x400 ∧ o % 32 = 0)) then some 0x30
  else if w = 7 ∧ o = 4 then some 0
  else if w = 10 ∧ o = 4 then some 0x20
  else if w = 32 ∧ (o = 0x20 ∨ o = 0x28 ∨ (0x100 ≤ o ∧ o < 0x144) ∨ (0x200 ≤ o ∧ o < 0x244)) then some 0x90
  else if w = 33 ∧ (o = 0xC ∨ o = 0x14) then some 0xA0
  else if w = 34 ∧ o = 0x24 then some 0xB0
  else none

/-- A runtime write of the configuration fields of a register (R133 to R136); a register that holds none is not changed
here. -/
def fieldWrite (off : Nat) (v : BitVec 32) (s : State) : State :=
  let o := off % 0x100000
  if off = 0x100004 then cfgWrite .live 0x10 off v (selWrite (v.setWidth 2)) s
  else if off = 0x10000C then cfgWrite .rwl 0x10 off v (autoWrite v) s
  else if off = 0x100010 then cfgWrite .rw 0x10 off v (wakeEnWrite v) s
  else if off = 0x100018 then cfgWrite .rw 0x10 off v (fun s => s.modPwr fun p => { p with keepDeep := v.getLsbD 1 }) s
  else if off = 0x10001C then cfgWrite .rwl 0x10 off v (thermWrite v) s
  else if off = 0x600018 then cfgWrite .live 0x30 off v (pendLive off (p32 (fld v 0 4))) s
  else if off = 0xA00010 then cfgWrite .rwl 0x50 off v (contver v) s
  else if off = 0xD0000C then cfgWrite .live 0x70 off v (remaskWrite v) s
  else if off = 0x2200014 then cfgWrite .live 0xB0 off v (khzWrite v) s
  else if off = 0x2200018 then winWrite v s
  else if off = 0x2300038 then cfgWrite .live 0xC0 off v (notifyWrite v) s
  else if off = 0x2400000 then cfgWrite .rwl 0x40 off v (userEnWrite v) s
  else if off / 0x100000 = 8 ∧ 0x100 ≤ o ∧ o < 0x140 ∧ o % 4 = 0 then cfgWrite .live 0x40 off v (quotaWrite off v) s
  else if h : off / 0x100000 = 33 ∧ 0x100 ≤ o ∧ o < 0x180 ∧ o % 4 = 0 then
    cfgWrite .rwl 0xA0 off v (platPeriod ⟨(o - 0x100) / 4, by omega⟩ v) s
  else match staticReg off with
    | some sec => cfgWrite .fixed sec off v id s
    | none =>
      if off / 0x100000 = 6 then
        match budReg o with
        | some (p, _) => cfgWrite .live 0x30 off v (budWrite p off v) s
        | none => s
      else s

/-- A write by a virtual function in its BAR0 to its partition's WSH registers (R162, R233), or among the JOB registers
outside its own function block (chapter 10), is ignored. -/
def vfIgnored (off : Nat) : Bool :=
  decide (0x90000 ≤ off ∧ off < 0x9002C) || decide (0xA2000 ≤ off ∧ off < 0xC0000)

/-- A virtual function's write of such a register. -/
def vfWrite (n : Fin 16) (off : Nat) (v : BitVec 32) (s : State) : State :=
  accessBar n 0 off (fun s => if vfIgnored off then rejectWrite off v 1 s else s) s

/-- A waiting LIVE write whose block is at its idle point is applied (R133). The Watershed's and the profile's idle point
is the frame boundary, which applies theirs. -/
def applyLive (off : Nat) (s : State) : State :=
  if off / 0x100000 = 8 ∧ 0x800100 ≤ off ∧ off < 0x800140 then applyQuota ((off - 0x800100) / 4) s
  else if off / 0x100000 = 34 then applyChpLive s
  else s

end Sys2Proof.Machine
end

