-- ==== Sys2Proof/Machine/Watershed.lean ====
section
/-! DEFINITION. The meanings of the Watershed's commands (chapter 06): the frame's boundary and midpoint, exhaustion, and
requests of class C0. -/

namespace Sys2Proof.Machine

/-- Every partition, by number. -/
def allParts : List Nat := List.range 24

/-- The frame's non-conforming C0 requests are logged, once per partition (R154). -/
def logNonconf (s : State) : State :=
  allParts.foldl (fun s p => if (part s p).nonconfCur ≠ 0 then ev 0x6015#16 p (part s p).nonconfCur 0 s else s) s

/-- The sixteenths of the standby cluster are summed and rounded up (R147). -/
def chargeSixteenths (s : State) : State :=
  allParts.foldl (fun s p =>
    modPart p (fun q => { q with sixteenths := 0 }) (charge p 0 (((part s p).sixteenths + 15) / 16) s)) s

/-- The reads that each channel forwarded unchecked in the frame are logged (R299). -/
def logUnchecked (s : State) : State :=
  (List.finRange 16).foldl (fun s c =>
    let n := s.sdl.ch[c].uncheckedFrame
    if n = 0 then s else ev 0xA051#16 c.val n 0 (modCh c (fun x => { x with uncheckedFrame := 0 }) s)) s

/-- Clusters that C0 took and does not use any more go back to their preempted jobs (R157, R181). -/
def endTakes (s : State) : State :=
  (List.finRange 64).foldl (fun s c =>
    let s := if s.pln.clusters[c].st ≠ 3 then modCluster c (fun x => { x with take := none }) s else s
    settleCluster c s) s

/-- A frame ends and the next begins (R142, R143, R147 to R150, R154, R156): what was written is applied, a profile change
takes effect, capacity and effective budgets are computed and the promise is judged. -/
def newFrame (s : State) : State :=
  let s := logUnchecked (logNonconf (chargeSixteenths s))
  let s := applySel (applyWshLive s)
  let s := pmcAdd 465 1 (frameLossRun (frameDropRuns s))
  let s := s.modWsh fun w => { w with no := w.no + 1, tick := 0 }
  let s := loseIdle (clusterPower (applyProfile (raiseP7 s)))
  flushRecords (endTakes (judgePromise (frameBudgets s)))

/-- FRAME_BOUNDARY. -/
def doFrameBoundary (s : State) : State :=
  if s.wsh.started && s.pwr.rung != .rest && s.pwr.rung != .retain then endIdle (newFrame s) else s

/-- FRAME_BOUNDARY. -/
def execFrameBoundary (s : State) : Host.Outcome State Fault Refusal := .next (doFrameBoundary s)

/-- The projection of one partition's use of one resource (R153). -/
def project (p r : Nat) (s : State) : State :=
  let q := part s p
  let proj := 2 * q.use.get r
  if !uncapped (q.eff.get r) && decide (proj > (q.eff.get r).toNat) then
    let n := q.runs.get r + 1
    let s := modPart p (fun q => { q with runs := q.runs.put r n, clean := q.clean.put r 0 }) s
    if n ≥ s.wsh.riskN && !q.risk.get r then
      ev 0x6010#16 p (r + 1) proj (modPart p (fun q => { q with risk := q.risk.put r true }) s)
    else s
  else
    let n := q.clean.get r + 1
    let s := modPart p (fun q => { q with clean := q.clean.put r n, runs := q.runs.put r 0 }) s
    if n ≥ s.wsh.riskN && q.risk.get r then
      ev 0x6011#16 p (r + 1) 0 (modPart p (fun q => { q with risk := q.risk.put r false }) s)
    else s

/-- FRAME_MIDPOINT: a RISK_N of 0 disables the check (R153). -/
def doFrameMidpoint (s : State) : State :=
  if !s.wsh.started || s.wsh.riskN = 0 then s
  else allParts.foldl (fun s p => (List.range 3).foldl (fun s r => project p r s) s) s

/-- FRAME_MIDPOINT. -/
def execFrameMidpoint (s : State) : Host.Outcome State Fault Refusal := .next (doFrameMidpoint s)

/-- PARTITION_EXHAUSTED: the partition's use of a resource has come to `use`, at or beyond its effective budget (R150). -/
def doPartitionExhausted (p : Fin 24) (r : Fin 3) (use : Nat) (s : State) : State :=
  let q := part s p.val
  if s.wsh.started && !uncapped (q.eff.get r.val) && decide ((q.eff.get r.val).toNat ≤ use) &&
      decide (q.use.get r.val ≤ use) then
    let s := charge p.val r.val (use - q.use.get r.val) s
    modPart p.val (fun q => { q with exh := q.exh.put r.val true }) s
  else s

/-- PARTITION_EXHAUSTED. -/
def execPartitionExhausted (p : Fin 24) (r : Fin 3) (use : Nat) (s : State) : Host.Outcome State Fault Refusal :=
  .next (doPartitionExhausted p r use s)

/-- The job clusters granted now, the standby cluster apart (R187). -/
def activeClusters (s : State) : Nat :=
  ((List.range 64).filter fun c => ((cluster s c).st = 2 || (cluster s c).st = 3) &&
    !(c = 63 && s.pwr.profileEff == 1#2)).length

/-- The dispatcher can grant another idle cluster (R187). -/
def canGrant (s : State) : Bool := s.pln.pinClusters = 0 || decide (activeClusters s < s.pln.pinClusters)

/-- A C0 partition finds an engine without preemption: in the standby cluster, an idle cluster, or a cluster it has or is
to have (R63, R155, R157). -/
def c0HasRoom (s : State) (p : Nat) : Bool :=
  let room (c : Nat) : Bool := decide ((s.pln.engines.filter fun e => e.1 / 16 = c).length < 16)
  (List.range 64).any fun c =>
    let x := cluster s c
    let standby := c = 63 && s.pwr.profileEff == 1#2
    clusterOn s c && x.outCause = 0 && c ≠ 0 &&
      (x.take = some p || (x.part = p && room c) ||
        (standby && (x.st = 1 || (x.st = 2 && (part s x.part).cls = 0 && room c))) ||
        (!standby && x.st = 1 && canGrant s))

/-- C0 preemption: the arbiter takes a cluster from the lowest class in service, C2 before C1; which cluster of that class
the spec leaves open (R157). -/
def c0Preempt (p : Nat) (s : State) : State :=
  if c0HasRoom s p then s
  else
    let of (cls : Nat) : List (Fin 64) := (List.finRange 64).filter fun c =>
      s.pln.clusters[c].st = 2 && s.pln.clusters[c].take.isNone && (part s s.pln.clusters[c].part).cls = cls
    let cs := if (of 2).isEmpty then of 1 else of 2
    let (v, s) := drawFree 6 s
    match cs[v.toNat % cs.length]? with
    | some c => modCluster c (fun x => { x with take := some p }) s
    | none => s

/-- A C0 request arrives (R154, R155, R158). How many of the partition's conforming requests are still in service is known
only up to the number of those served so far: a free value. -/
def c0Arrive (p : Fin 24) (r : C0Req) (s : State) : State :=
  let q := part s p.val
  let (v, s) := drawFree 8 s
  let busy := v.toNat % (q.inService + 1)
  let free := !q.exh.eng && !(r.needsFab && q.exh.fab) && !(r.needsDma && q.exh.dma)
  if decide (q.confCount + q.nonconfCur < q.rate) && decide (busy < q.burst) && free then
    let s := modPart p.val (fun q => { q with confCount := q.confCount + 1, inService := busy + 1 }) s
    let s := pmcAdd (264 + p.val) 1 s
    let s := s.modWsh fun w => { w with c0Max := if w.c0Max.toNat < r.startTicks.toNat then r.startTicks else w.c0Max }
    let s :=
      if s.wsh.promise && decide (r.boundTicks.toNat < r.startTicks.toNat) then
        ev 0x6021#16 p.val r.startTicks.toNat r.boundTicks.toNat (s.modWsh fun w => { w with c0Late := bvSat w.c0Late 1 })
      else s
    c0Preempt p.val s
  else pmcAdd (264 + p.val) 1 (modPart p.val (fun q => { q with nonconfCur := q.nonconfCur + 1 }) s)

/-- C0_REQUEST: of a C0 partition, after the first frame; the work takes the device out of L1 or L2 (R54). -/
def doC0Request (p : Fin 24) (r : C0Req) (s : State) : State :=
  if s.wsh.started && (part s p.val).cls = 0 && !lowRung s then c0Arrive p r (leaveIdle s) else s

/-- C0_REQUEST. -/
def execC0Request (p : Fin 24) (r : C0Req) (s : State) : Host.Outcome State Fault Refusal := .next (doC0Request p r s)

/-- WSH_C0_MAX_CLR (R158, R162). -/
def doWshC0MaxClr (a : Agent) (s : State) : State :=
  access a 0x60001C (fun s => s.modWsh fun w => { w with c0Max := 0#16 }) s

/-- WSH_C0_MAX_CLR. -/
def execWshC0MaxClr (a : Agent) (s : State) : Host.Outcome State Fault Refusal := .next (doWshC0MaxClr a s)

end Sys2Proof.Machine
end

