-- ==== Sys2Proof/Machine/Array.lean ====
section
/-! DEFINITION. The meanings of the engine array's commands (chapter 07): slice points and the pin, the dispatch of jobs and
the joining of engines, and clusters in and out of service. -/

namespace Sys2Proof.Machine

/-- No engine works for a job any more. -/
def noEngines (s : State) (id : Nat) : Bool := !(s.pln.engines.any fun e => e.2.job = id)

/-- An engine of a job that is stopping leaves at its slice point; the last ends the job (R263, R264, R265). -/
def stopEngine (e : Nat) (j : Job) (s : State) : State :=
  let s := (dropEngine e s).modPln fun p => { p with ctx := p.ctx.filter fun c => c.2.eng.job ≠ j.id }
  if noEngines s j.id then finishJob j.id j.status.toNat j.result s else settleCluster (clOf e) s

/-- An engine leaves a cluster that no longer serves; with the last of its job, the job has lost its cluster (R186,
R262). -/
def loseEngine (e : Nat) (j : Job) (s : State) : State :=
  let s := dropEngine e s
  if noEngines s j.id then loseJob j.id s else settleCluster (clOf e) s

/-- The engine is preempted here: C0 takes its cluster, or its partition is exhausted; a C0 job never is (R150, R157,
R181). -/
def mustPreempt (s : State) (e : Nat) (j : Job) : Bool :=
  !isC0 s (jobPart j) &&
    (((cluster s (e / 16)).take.map fun p => p != jobPart j).getD false || engExhausted s (jobPart j))

/-- Another partition of the same or a higher class has a job that waits and may be granted engines. -/
def othersWait (s : State) (j : Job) : Bool :=
  s.job.jobs.any fun k => k.ph == .waiting && k.fn ≠ j.fn && !engExhausted s (jobPart k) &&
    decide ((part s (jobPart k)).cls ≤ (part s (jobPart j)).cls)

/-- Re-arbitration in LATENCY, at the first slice point after 2 µs of the grant: where another partition waits, the cluster
takes no further work of its partition; else the grant is renewed (R152). -/
def rearbitrate (e : Nat) (j : Job) (s : State) : State :=
  let now := s.tbs.tick.toNat
  if s.pwr.profileEff == 1#2 && !isC0 s (jobPart j) && decide ((cluster s (e / 16)).grantTick + 50 ≤ now) then
    if othersWait s j then modCluster (clOf e) (fun x => { x with close := true }) s
    else modCluster (clOf e) (fun x => { x with grantTick := now, close := false }) s
  else s

/-- An engine goes on from a slice point with a new issue count (R198). -/
def goOn (e : Nat) (x : Engine) (s : State) : State :=
  pmcAdd 473 1 (putEng e { x with st := .running, issued := 0, sliceTick := s.tbs.tick.toNat } s)

/-- The pin holds the engine at the slice point: it came sooner than 256 / PIN_IPUS µs after the last (R187). -/
def pinHolds (s : State) (x : Engine) : Bool :=
  s.pln.pinIpus ≠ 0 && decide ((s.tbs.tick.toNat - x.sliceTick) * s.pln.pinIpus < 6400)

/-- SLICE_POINT: by count, or for as long as an instruction blocks (R181, R198). -/
def doSlicePoint (e : Fin 1024) (s : State) : State :=
  match eng? s e.val with
  | none => s
  | some x =>
    if x.st == .running && x.blk.isNone then s
    else match job? s x.job with
      | none => s
      | some j =>
        if j.ph == .stopping then stopEngine e.val j s
        else if clusterLost s (clOf e.val) then loseEngine e.val j s
        else if mustPreempt s e.val j then settleCluster (clOf e.val) (preempt e.val x s)
        else
          let s := rearbitrate e.val j s
          if x.st == .atSlice then
            if pinHolds s x then putEng e.val { x with st := .pinWait } s else goOn e.val x s
          else s

/-- PIN_WAIT_END (R187). -/
def doPinWaitEnd (e : Fin 1024) (s : State) : State :=
  match eng? s e.val with
  | some x => if x.st == .pinWait then goOn e.val x s else s
  | none => s

/-- The 64 bytes of a descriptor (R253). -/
def descBytes (d : Desc) : Bytes :=
  [d.op, d.flags] ++ leBytes 2 d.progId.toNat ++ leBytes 2 d.keySlot.toNat ++ leBytes 2 d.dstSlot.toNat ++
    leBytes 8 d.src.toNat ++ leBytes 4 d.srcLen.toNat ++ leBytes 4 d.dstLen.toNat ++ leBytes 8 d.dst.toNat ++
    leBytes 8 d.aux.toNat ++ leBytes 4 d.auxLen.toNat ++ leBytes 4 d.arg0.toNat ++ leBytes 4 d.arg1.toNat ++
    leBytes 4 d.arg2.toNat ++ leBytes 4 d.tag.toNat ++ leBytes 4 d.zero.toNat

/-- An engine is free for a job: no job on it, and no saved context unless the job is of class C0 (R165, R181). -/
def laneFree (s : State) (e : Nat) (c0 : Bool) : Bool :=
  (eng? s e).isNone && (c0 || (assocGet s.pln.ctx e).isNone)

/-- A cluster in service takes work of a partition now: it is granted to it, is idle and may be granted, or is taken for it
(R147, R152, R157, R182, R187, R191). Cluster 63 in LATENCY serves C0 alone (R63). -/
def mayUse (s : State) (c : Fin 64) (p : Nat) : Bool :=
  let x := s.pln.clusters[c]
  let standby := c = 63 && s.pwr.profileEff == 1#2
  let mine := x.take.isNone || x.take = some p
  c ≠ 0 && s.pwr.rung == .run && clusterOn s c.val && x.outCause = 0 && !x.offline && !engExhausted s p &&
    (!standby || isC0 s p) &&
    ((x.part = p && !x.close && mine) || (x.st = 1 && mine && (standby || x.take = some p || canGrant s)) || x.take = some p ||
      (standby && x.st = 2))

/-- The slot's DEST names the cluster's group, for a job with a KEY_SLOT (R255). -/
def keyGroupOk (s : State) (c : Fin 64) (j : Job) : Bool :=
  decide (255 < j.d.keySlot.toNat) || (attrDest (slotAt s j.d.keySlot.toNat).attr).getLsbD (c.val / 8)

/-- An operation that needs the random bit generator (R267). -/
def needsEntropy (j : Job) : Bool := j.d.op = 0x04#8 || j.d.op = 0x05#8 || j.d.op = 0x0A#8

/-- Put a job's first or next engine to work (R166). -/
def startEngine (e : Nat) (j : Job) (eid : Nat) (s : State) : State :=
  let (w, _, _, _, entry) := progShape s j
  putEng e { job := j.id, pc := BitVec.ofNat 15 entry, eid := BitVec.ofNat 4 eid, ew := BitVec.ofNat 5 w,
             sliceTick := s.tbs.tick.toNat, inDone := (engInput j eid w).isEmpty } s

/-- Write a customer program into the cluster's writable store, where it is not there yet (R173). -/
def loadProgram (c : Fin 64) (j : Job) (s : State) : State :=
  if progId j < 0x400 || j.prog ∈ s.pln.clusters[c].resident then s
  else pmcAdd (504 + c.val / 8) 1 (modCluster c (fun x => { x with resident := j.prog :: x.resident }) s)

/-- The job starts on the cluster (R165, R169, R213, R256). -/
def startJob (id : Nat) (c : Fin 64) (lane : Fin 16) (io : JobIo) (j : Job) (s : State) : State :=
  let p := jobPart j
  let (w, op, gp, _, _) := progShape s j
  let free := freePages s c (isC0 s p)
  let s := loadProgram c j s
  let x := s.pln.clusters[c]
  let s := modCluster c (fun x => { x with
    st := if x.take = some p then 3 else 2, part := p, grantTick := if x.part = p then x.grantTick else s.tbs.tick.toNat }) s
  let s := if x.part = p then s else modCluster c (fun x => { x with close := false }) s
  let s := chargeDma p false (io.src.length + io.aux.length + 16 * io.srcSgl.length) s
  let j := { j with
    ph := .running, cluster := some c, pages := free.take op, gpages := (free.drop op).take gp, width := w, joined := 1,
    halted := 0, src := io.src, aux := io.aux, dstSgl := io.dstSgl }
  let s := modJob id (fun _ => j) s
  let ws := packWords (descBytes j.d) ++ [BitVec.ofNat 24 w]
  let s := ((List.range ws.length).zip ws).foldl (fun s q => memPut j (BitVec.ofNat 24 q.1) q.2 false s) s
  startEngine (c.val * 16 + lane.val) j 0 s

/-- The job may be placed there now, its input is that of its descriptor, and pages enough are free (R169, R255, R262). -/
def canDispatch (s : State) (c : Fin 64) (lane : Fin 16) (io : JobIo) (j : Job) : Bool :=
  let p := jobPart j
  let (_, op, gp, _, _) := progShape s j
  j.ph == .waiting && s.wsh.started && mayUse s c p && laneFree s (c.val * 16 + lane.val) (isC0 s p) &&
    keyGroupOk s c j && decide (op + gp ≤ (freePages s c (isC0 s p)).length) &&
    io.src.length = j.d.srcLen.toNat && io.aux.length = j.d.auxLen.toNat &&
    (!exhausted s p 2 || (io.src.isEmpty && io.aux.isEmpty)) &&
    (j.losses ≠ 0 || !(s.job.jobs.any fun k => k.ph == .waiting && k.fn = j.fn && k.losses ≠ 0))

/-- JOB_DISPATCH (R255): the job is placed on an engine of a cluster. A fault of the source's list, or a random bit
generator without output, ends it without running (R254, R267). -/
def doJobDispatch (id : Nat) (c : Fin 64) (lane : Fin 16) (io : JobIo) (s : State) : State :=
  match job? s id with
  | none => s
  | some j =>
    if !canDispatch s c lane io j then s
    else if needsEntropy j && !entropyOn s then finishJob id 0x22 0#32 s
    else if j.d.flags.getLsbD 0 && !(j.d.src.toNat % 16 = 0 && (sglWalk io.srcSgl j.d.srcLen.toNat 0).2) then
      finishJob id 0x14 1#32 s
    else startJob id c lane io j s

/-- ENGINE_JOIN: a free engine joins, up to the width, until one has halted (R165, R206). -/
def doEngineJoin (id : Nat) (lane : Fin 16) (s : State) : State :=
  match job? s id with
  | none => s
  | some j => match j.cluster with
    | none => s
    | some c =>
      let e := c.val * 16 + lane.val
      if j.ph == .running && j.halted = 0 && decide (j.joined < j.width) && mayUse s c (jobPart j) &&
          laneFree s e (isC0 s (jobPart j)) then
        startEngine e j j.joined (modJob id (fun j => { j with joined := j.joined + 1 }) s)
      else s

/-- PROGRAM_STORE_WRITE: ignored and logged; PF0 alone reaches the windows (R173, R174). -/
def doProgramStoreWrite (a : Agent) (off : BitVec 26) (s : State) : State :=
  accessPf0 a off.toNat (fun s => if 0x1000000 ≤ off.toNat ∧ off.toNat < 0x2000000 then ev 0x7040#16 off.toNat 0 0 s else s) s

/-- Two clusters are neighbours in the 8 × 8 grid (R163). -/
def neighbours (a b : Fin 64) : Bool :=
  (a.val / 8 = b.val / 8 && (a.val % 8 + 1 = b.val % 8 || b.val % 8 + 1 = a.val % 8)) ||
    (a.val % 8 = b.val % 8 && (a.val / 8 + 1 = b.val / 8 || b.val / 8 + 1 = a.val / 8))

/-- A cluster is taken out of service (R182). -/
def takeOut (c : Fin 64) (cause : Nat) (s : State) : State :=
  if s.pln.clusters[c].outCause ≠ 0 then s
  else
    let s := ev 0x7022#16 c.val cause 0 (modCluster c (fun x => { x with outCause := cause }) s)
    loseIdle (settleCluster c s)

/-- SUPPLY_DIFFERENCE_FAULT (R182): the one that deviates is taken out, the second where `second` is set; cluster 0 is a
management lock-up instead, with a cause the spec does not code. -/
def doSupplyDifferenceFault (c n : Fin 64) (mv : BitVec 10) (second : Bool) (s : State) : State :=
  if neighbours c n && decide (mv.toNat > 150) && s.pln.clusters[c].st ≠ 0 && s.pln.clusters[n].st ≠ 0 then
    let s := s.modPln fun p => { p with gradDv := if p.gradDv.toNat < mv.toNat then mv else p.gradDv }
    let s := ev 0x7030#16 c.val n.val mv.toNat s
    let bad := if second then n else c
    if bad = 0 then
      let (v, s) := drawFree 32 s
      doManagementLockup v s
    else takeOut bad 3 s
  else s

/-- TEMPERATURE_DIFFERENCE (R183): above 30 K the hottest cluster's supply is lowered by up to 60 mV, by how much the spec
leaves open; a difference back within 30 K ends the episode. -/
def doTemperatureDifference (hot cool : Fin 64) (dt : BitVec 8) (s : State) : State :=
  let s := s.modPln fun p => { p with gradDt := if p.gradDt.toNat < dt.toNat then dt else p.gradDt }
  if dt.toNat ≤ 30 then s.modPln fun p => { p with dtEpisode := false }
  else
    let (v, s) := drawFree 6 s
    let s := modCluster hot (fun x => { x with vcore := x.vcore - BitVec.ofNat 10 (min x.vcore.toNat (v.toNat % 61)) }) s
    if s.pln.dtEpisode then s
    else ev 0x7031#16 hot.val cool.val dt.toNat (s.modPln fun p => { p with dtEpisode := true })

/-- PLN_GRAD_CLR (R190). -/
def doPlnGradClr (a : Agent) (s : State) : State :=
  access a 0x700008 (fun s => s.modPln fun p => { p with gradDv := 0#10, gradDt := 0#8 }) s

/-- Some job cluster other than `c` would be usable (R191). -/
def othersUsable (s : State) (c : Fin 64) : Bool :=
  (List.range 64).any fun k => decide (1 ≤ k) && k ≠ c.val && clusterOn s k && !(k = 63 && s.pwr.profileEff == 1#2) &&
    (cluster s k).outCause = 0 && !(cluster s k).offline

/-- PLN_CL_CTRL[c].OFFLINE written (R191). -/
def offline (c : Fin 64) (v : Bool) (s : State) : State :=
  if c = 0 then s
  else if v then
    if othersUsable s c then modCluster c (fun x => { x with offline := true }) s else ev 0x7024#16 c.val 0 0 s
  else
    let s := modCluster c (fun x => { x with offline := false }) s
    if s.pln.clusters[c].outCause = 1 then
      ev 0x7023#16 c.val 0 0 (modCluster c (fun x => { x with outCause := 0, st := if x.st = 4 then 1 else x.st }) s)
    else s

/-- OFFLINE_WRITE (R190, R191). -/
def doOfflineWrite (a : Agent) (c : Fin 64) (v : Bool) (s : State) : State := access a (0x700300 + 4 * c.val) (offline c v) s

/-- CLUSTER_OFFLINE: at its idle point (R191). -/
def doClusterOffline (c : Fin 64) (s : State) : State :=
  let x := s.pln.clusters[c]
  if x.offline && x.outCause = 0 && !clusterHeld s c.val then
    ev 0x7022#16 c.val 1 0 (modCluster c (fun x => { x with outCause := 1, st := if x.st = 1 then 4 else x.st }) s)
  else s

/-- SLICE_POINT. -/
def execSlicePoint (e : Fin 1024) (s : State) : Host.Outcome State Fault Refusal := .next (doSlicePoint e s)

/-- PIN_WAIT_END. -/
def execPinWaitEnd (e : Fin 1024) (s : State) : Host.Outcome State Fault Refusal := .next (doPinWaitEnd e s)

/-- JOB_DISPATCH. -/
def execJobDispatch (id : Nat) (c : Fin 64) (lane : Fin 16) (io : JobIo)
    (s : State) : Host.Outcome State Fault Refusal :=
  .next (doJobDispatch id c lane io s)

/-- ENGINE_JOIN. -/
def execEngineJoin (id : Nat) (lane : Fin 16) (s : State) : Host.Outcome State Fault Refusal :=
  .next (doEngineJoin id lane s)

/-- PROGRAM_STORE_WRITE. -/
def execProgramStoreWrite (a : Agent) (off : BitVec 26) (s : State) : Host.Outcome State Fault Refusal :=
  .next (doProgramStoreWrite a off s)

/-- SUPPLY_DIFFERENCE_FAULT. -/
def execSupplyDifferenceFault (c n : Fin 64) (mv : BitVec 10) (second : Bool)
    (s : State) : Host.Outcome State Fault Refusal :=
  .next (doSupplyDifferenceFault c n mv second s)

/-- TEMPERATURE_DIFFERENCE. -/
def execTemperatureDifference (hot cool : Fin 64) (dt : BitVec 8) (s : State) : Host.Outcome State Fault Refusal :=
  .next (doTemperatureDifference hot cool dt s)

/-- PLN_GRAD_CLR. -/
def execPlnGradClr (a : Agent) (s : State) : Host.Outcome State Fault Refusal := .next (doPlnGradClr a s)

/-- OFFLINE_WRITE. -/
def execOfflineWrite (a : Agent) (c : Fin 64) (v : Bool) (s : State) : Host.Outcome State Fault Refusal :=
  .next (doOfflineWrite a c v s)

/-- CLUSTER_OFFLINE. -/
def execClusterOffline (c : Fin 64) (s : State) : Host.Outcome State Fault Refusal := .next (doClusterOffline c s)

end Sys2Proof.Machine
end

