-- ==== Sys2Proof/Machine/Attop.lean ====
section
/-! DEFINITION. Reading evidence tokens, taking frames from the inbox, and the aggregation rounds (R361 to R379). -/

namespace Sys2Proof.Machine

/-- The head of a CBOR item: major type, argument and the bytes after it (R363). -/
def cborRead : Bytes → Option (Nat × Nat × Bytes)
  | [] => none
  | b :: t =>
    let m := b.toNat / 32
    let a := b.toNat % 32
    let arg (n : Nat) : Option (Nat × Nat × Bytes) := if t.length < n then none else some (m, beNat (t.take n), t.drop n)
    if a < 24 then some (m, a, t)
    else match a with
      | 24 => arg 1 | 25 => arg 2 | 26 => arg 4 | 27 => arg 8 | _ => none

/-- The bytes after `n` items. -/
def cborSkip : Nat → Nat → Bytes → Option Bytes
  | _, 0, b => some b
  | 0, _, _ => none
  | fuel + 1, n + 1, b =>
    match cborRead b with
    | none => none
    | some (m, a, t) =>
      match m with
      | 2 | 3 => if t.length < a then none else cborSkip fuel n (t.drop a)
      | 4 => cborSkip fuel (n + a) t
      | 5 => cborSkip fuel (n + 2 * a) t
      | 6 => cborSkip fuel (n + 1) t
      | _ => cborSkip fuel n t

/-- The first item of some bytes, and the rest. -/
def cborItem (b : Bytes) : Option (Bytes × Bytes) :=
  (cborSkip (b.length + 1) 1 b).map fun t => (b.take (b.length - t.length), t)

/-- The content of a byte string. -/
def cborBstr (b : Bytes) : Option Bytes :=
  match cborRead b with
  | some (2, n, t) => if t.length < n then none else some (t.take n)
  | _ => none

/-- An unsigned integer. -/
def cborNat (b : Bytes) : Option Nat := match cborRead b with | some (0, n, _) => some n | _ => none

/-- Element `i` of an array. -/
def cborNth (b : Bytes) (i : Nat) : Option Bytes :=
  match cborRead b with
  | some (4, n, t) => if n ≤ i then none else ((cborSkip (t.length + 1) i t).bind cborItem).map (·.1)
  | _ => none

/-- The value under an integer key among `n` pairs. -/
def cborPairs (key : Int) : Nat → Bytes → Option Bytes
  | 0, _ => none
  | n + 1, b => match cborItem b with
    | none => none
    | some (k, t) => match cborItem t with
      | none => none
      | some (v, r) => if k == cborInt key then some v else cborPairs key n r

/-- The value under an integer key of a map. -/
def cborGet (b : Bytes) (key : Int) : Option Bytes :=
  match cborRead b with
  | some (5, n, t) => cborPairs key n t
  | _ => none

/-- A COSE_Sign1 structure whose signature verifies under a key and context: its payload (R363). -/
def coseOpen (alg : Nat) (pk ctx b : Bytes) : Option Bytes :=
  match cborRead b with
  | some (6, 18, t) =>
    match (cborNth t 0).bind cborBstr, (cborNth t 2).bind cborBstr, (cborNth t 3).bind cborBstr with
    | some hdr, some payload, some sig =>
      if Config.sigVerify alg pk ctx (cborArr [cborText "Signature1", cborBytes hdr, cborBytes [], cborBytes payload]) sig then
        some payload
      else none
    | _, _, _ => none
  | _ => none

/-- The payload of a hybrid token that verifies under a key block: the outer signature, then the inner (R216, R363). -/
def hybridOpen (kb ctx b : Bytes) : Option Bytes :=
  (coseOpen 1 (slice kb 1952 97) [] b).bind fun inner => coseOpen 0 (kb.take 1952) ctx inner

/-- The hash of the two public keys of a key block, as the identity and alias hashes are (R344, R361). -/
def keysHash (kb : Bytes) : Bytes := sha3_384 (kb.take 2049)

/-- The public keys of two slots in the key-block layout of R216. -/
def keyBlock (s : State) (ml ec : Nat) : Bytes :=
  Config.pubOf 3 (slotKey (slotAt s ml)) ++ Config.pubOf 6 (slotKey (slotAt s ec)) ++ List.replicate 7 0#8

/-- The optional claims, all of them (R364). -/
def allClaims : BitVec 32 := 0x1F#32

/-- A token of the device itself, its making logged (R364, R365). -/
def ownToken (nonce : Bytes) (sel : BitVec 32) (agg : Option Bytes) (s : State) : Bytes × State :=
  let (t, s) := evidenceToken nonce 16 sel agg s
  (t, ev 0xD002#16 16 sel.toNat t.length s)

/-- The TYPE, SRC, EPOCH, SEQ and payload of a frame (R369). -/
def frameType (f : Bytes) : Nat := leAt f 5 1
/-- SRC. -/
def frameSrc (f : Bytes) : BitVec 16 := BitVec.ofNat 16 (leAt f 8 2)
/-- EPOCH. -/
def frameEpoch (f : Bytes) : BitVec 32 := BitVec.ofNat 32 (leAt f 12 4)
/-- SEQ. -/
def frameSeq (f : Bytes) : Nat := leAt f 16 8
/-- The payload. -/
def framePay (f : Bytes) : Bytes := slice f 32 (f.length - 64)
/-- The MAC. -/
def frameTag (f : Bytes) : Bytes := f.drop (f.length - 32)

/-- The type is authenticated on a current link: 5 to 9. JOIN_KEY brings its own link (R370). -/
def linkType (t : Nat) : Bool := decide (5 ≤ t ∧ t ≤ 9)

/-- The payload of a type, as R370 gives it, and its padding with zeros: `n` bytes of it are said, or at least that. -/
def payOk (t : Nat) (p : Bytes) : Bool :=
  let fixed (n : Nat) : Bool := p.length = (n + 7) / 8 * 8 && (p.drop n).all (· == 0#8)
  match t with
  | 1 => fixed 0
  | 2 => fixed 32
  | 3 => decide (1568 + 2 * 2056 ≤ p.length)
  | 4 => fixed 1616
  | 5 => fixed 72 && (slice p 5 3).all (· == 0#8)
  | 6 => decide (8 + 2056 ≤ p.length) && (slice p 4 4).all (· == 0#8)
  | 7 => fixed 8 && (slice p 1 1).all (· == 0#8)
  | 8 => decide (leAt p 4 4 ≤ 8192) && fixed (8 + leAt p 4 4)
  | 9 | 15 => fixed 1
  | _ => false

/-- A frame obeys R369 and R370 and is for this member. -/
def frameOk (s : State) (f : Bytes) : Bool :=
  let t := frameType f
  let zero (a n : Nat) : Bool := (slice f a n).all (· == 0#8)
  decide (64 ≤ f.length ∧ f.length ≤ 16384) && f.length % 8 = 0 && leAt f 24 4 = f.length && leAt f 0 4 = 0x4946534B &&
    leAt f 4 1 = 1 && (decide (1 ≤ t ∧ t ≤ 9) || t = 15) && zero 6 2 && zero 28 4 && payOk t (framePay f) &&
    BitVec.ofNat 16 (leAt f 10 2) == s.boot.eff.member &&
    (decide (4 ≤ t ∧ t ≤ 9) || (zero 12 12 && (frameTag f).all (· == 0#8)))

/-- A frame is discarded (R372): counted, event 0xD020. -/
def frameDrop (f : Bytes) (cause : Nat) (s : State) : State :=
  ev 0xD020#16 (frameSrc f).toNat (frameType f) cause (s.modAtt fun a => { a with rejected := bvSat a.rejected 1 })

/-- A frame is accepted; it waits for its own step. -/
def frameTake (f : Bytes) (s : State) : State :=
  s.modAtt fun a => { a with accepted := bvSat a.accepted 1, rxq := a.rxq ++ [f] }

/-- NAK REJOIN, at most once a second for each SRC (R372). -/
def nakRejoin (src : BitVec 16) (s : State) : State :=
  let now := s.tbs.tick.toNat
  if s.att.nakTick.any fun e => e.1 == src && decide (now < e.2 + 25000000) then s
  else
    sendPlain 15 src [1#8] (s.modAtt fun a => { a with
      nakTick := (src, now) :: a.nakTick.filter fun e => e.1 != src && decide (now < e.2 + 25000000) })

/-- The link that an authenticated frame names: the uplink for what a parent sends, a child's for what a child sends
(R370, R372). -/
def frameLink (s : State) (f : Bytes) : Option Link :=
  let t := frameType f
  let l := if t = 6 || t = 7 then s.att.children.find? fun l => l.mem == frameSrc f else s.att.up
  l.bind fun l => if l.mem == frameSrc f && l.epoch == frameEpoch f then some l else none

/-- The frame's SEQ becomes the last accepted on its direction (R372). -/
def seqTaken (f : Bytes) (s : State) : State :=
  let q := BitVec.ofNat 64 (frameSeq f)
  if frameType f = 6 || frameType f = 7 then
    s.modAtt fun a => { a with children := a.children.map fun l => if l.mem == frameSrc f then { l with rxSeq := q } else l }
  else s.modAtt fun a => { a with up := a.up.map fun l => { l with rxSeq := q } }

/-- A frame submitted from an inbox slot is checked (R369, R372, R374). -/
def frameArrives (f : Bytes) (s : State) : State :=
  if s.att.role = 0 then frameDrop f 5 s
  else if !frameOk s f then frameDrop f 1 s
  else if !linkType (frameType f) then (if frameType f = 4 then s.modAtt fun a => { a with rxq := a.rxq ++ [f] } else frameTake f s)
  else match frameLink s f with
    | none =>
      let s := frameDrop f 4 s
      if s.att.role = 2 && (frameType f = 6 || frameType f = 7) then nakRejoin (frameSrc f) s else s
    | some l =>
      if !(frameMac l.lk (f.take (f.length - 32)) == frameTag f) then frameDrop f 2 s
      else if decide (frameSeq f ≤ l.rxSeq.toNat) then frameDrop f 3 s
      else frameTake f (seqTaken f s)

/-- The oldest accepted frame, where it is of a type, is acted on (R371 to R379). -/
def onFrame (typ : Nat) (k : Bytes → State → State) (s : State) : State :=
  match s.att.rxq with
  | f :: t => if frameType f = typ then k f (s.modAtt fun a => { a with rxq := t }) else s
  | [] => s

/-- The frames of a peer recovery go out while nothing waits for the ring (R373, R379). -/
def servePump : Nat → State → State
  | 0, s => s
  | n + 1, s =>
    match s.att.serve with
    | [] => s
    | (m, t, p) :: rest =>
      if s.att.waiting.isEmpty && s.att.peerWait.isEmpty && !(s.att.txEn && txFull s) then
        servePump n (sendDown t m p (s.modAtt fun a => { a with serve := rest }))
      else s

/-- What waits for the transmit ring goes out while it takes it. -/
def txGoOn (s : State) : State := let s := txDrain 16 s; servePump (s.att.serve.length + 1) s

/-- A round starts (R375): a leaf for every joined child, and EVID_REQ to each. -/
def startRound (r : Round) (s : State) : State :=
  let no := s.att.roundNo + 1
  let r := { r with no := no, leaves := s.att.children.map fun l => { mem := l.mem } }
  let s := ev 0xD030#16 no.toNat r.leaves.length 0 (s.modAtt fun a => { a with round := some r, roundNo := no })
  let n := r.nonce
  let pay := leBytes 4 no.toNat ++ [BitVec.ofNat 8 n.length, 0#8, 0#8, 0#8] ++ n ++ List.replicate (64 - n.length) 0#8
  r.leaves.foldl (fun s l => sendDown 5 l.mem pay s) s

/-- A round is asked for; one that finds another running waits (R375). -/
def askRound (r : Round) (s : State) : State :=
  if s.att.round.isSome then s.modAtt fun a => { a with rounds := a.rounds ++ [r] } else startRound r s

/-- The leaf that a child's EVID gives (R375, R376). -/
def judgeEvid (r : Round) (l : Link) (kb token : Bytes) (s : State) : Leaf :=
  let digest := BitVec.ofNat 384 (leNat (sha3_384 token))
  let leaf (st cov : Nat) : Leaf := { mem := l.mem, status := st, digest := digest, covered := cov }
  if !(leNat (keysHash kb) = l.aliasH.toNat) then leaf 1 0
  else match hybridOpen kb (ascii "KS-2416 evidence") token with
    | none => leaf 1 0
    | some c =>
      if !((cborGet c 10).bind cborBstr == some r.nonce) then leaf 2 0
      else if !(((cborGet c (-70012)).bind (cborNth · 1)).bind cborBstr == some (ownerDigest s)) then leaf 4 0
      else if ((cborGet c (-70003)).bind (cborNth · 2)) != some (cborBool false) then leaf 5 0
      else leaf 0 ((((cborGet c (-70020)).bind (cborNth · 2)).bind cborNat).getD 1)

/-- The aggregate's own claim (R376). The root over no leaves is not stated: a free value. -/
def aggClaim (r : Round) (s : State) : Bytes × State :=
  let n (f : Nat → Bool) : Nat := (r.leaves.filter fun l => f l.status).length
  let h (l : Leaf) : Bytes :=
    sha3_384 (0#8 :: (leBytes 2 l.mem.toNat ++ [BitVec.ofNat 8 l.status] ++ leBytes 48 l.digest.toNat))
  let (v, s) := if r.leaves.isEmpty then drawFree 384 s else (0#384, s)
  let root := if r.leaves.isEmpty then leBytes 48 v.toNat
    else merkleRoot (fun a b => sha3_384 (1#8 :: (a ++ b))) (r.leaves.length + 1) (r.leaves.map h)
  let covered : Nat := r.leaves.foldl (fun t l => if l.status = 0 then t + l.covered else t) 1
  (cborArr [cborBytes root, cborInt r.leaves.length, cborInt covered, cborInt (n (· = 0)),
    cborInt (n fun x => x = 1 || x = 2 || x = 4 || x = 5), cborInt (n (· = 3))], s)

/-- The output of an ATT_CMD round (R377). -/
def aggOut (r : Round) (token : Bytes) (s : State) : State :=
  let a := s.att.aggAddr
  let n := r.nonce
  let entries := r.leaves.flatMap fun l =>
    leBytes 2 l.mem.toNat ++ [BitVec.ofNat 8 l.status, 0#8] ++ leBytes 48 l.digest.toNat
  let head := [BitVec.ofNat 8 n.length] ++ List.replicate 7 0#8 ++ n ++ List.replicate (64 - n.length) 0#8
  let tok := leBytes 4 token.length ++ token
  let tab := leBytes 4 r.leaves.length ++ entries
  let s := hostWrite 0 a head s
  let s := hostWrite 0 (a + 0x1000#64) tok s
  let s := hostWrite 0 (a + 0x4000#64) tab s
  chargeDma 3 true (head.length + tok.length + tab.length) s

/-- The RESULT of ATT_CMD. -/
def attResult (n : Nat) (s : State) : State := s.modAtt fun a => { a with result := BitVec.ofNat 4 n }

/-- A round ends (R375, R376): the aggregate goes to the host or up the tree, and the next round starts. -/
def endRound (r : Round) (s : State) : State :=
  let missing := r.leaves.filter fun l => l.status = 3
  let s := missing.foldl (fun s l => ev 0xD032#16 l.mem.toNat 3 0 s) s
  let ok := (r.leaves.filter fun l => l.status = 0).length
  let s := if !entropyOn s then (if r.uplink then s else attResult 7 s)
    else
      let (c, s) := aggClaim r s
      let (t, s) := ownToken r.nonce allClaims (some c) s
      if r.uplink then sendUp 6 (leBytes 4 r.upNo.toNat ++ leBytes 4 0 ++ keyBlock s 2 3 ++ t) s
      else if hostOpen s then aggOut r t (attResult 0 s) else attResult 5 s
  let s := ev 0xD031#16 ok (r.leaves.length - ok - missing.length) missing.length s
  let s := s.modAtt fun a => { a with round := none, busy := a.rounds.any fun x => !x.uplink }
  match s.att.rounds with
  | x :: rest => startRound x (s.modAtt fun a => { a with rounds := rest })
  | [] => s

end Sys2Proof.Machine
end

