-- ==== Sys2Proof/Machine/Attest.lean ====
section
/-! DEFINITION. The meanings of ATT_CMD's operations (chapter 14, R361, R365, R371, R375, R380). -/

namespace Sys2Proof.Machine

/-- A refusal of ATT_CMD sets RESULT and logs event 0xD003 (R380). -/
def attRefuse (op res : Nat) (s : State) : State := ev 0xD003#16 op res 0 (attResult res s)

/-- A nonce outside 32 to 64 bytes is refused (R364); the spec gives no RESULT for it: a free value. -/
def attBadNonce (op : Nat) (s : State) : State :=
  let (v, s) := drawFree 4 s
  attRefuse op v.toNat s

/-- ATT_CMD (R380): the key, then the operation. -/
def attCmd (a : Agent) (key : BitVec 16) (op : Nat) (k : State → State) (s : State) : State :=
  access a 0xF00004 (fun s => if key ≠ 0x47A9#16 then attRefuse op 1 s else k s) s

/-- A nonce has the length of R364. -/
def nonceOk (n : Bytes) : Bool := decide (32 ≤ n.length ∧ n.length ≤ 64)

/-- AGGREGATE (R375, R377, R380). -/
def doAggregate (a : Agent) (key : BitVec 16) (nonce : Bytes) (dmaOk : Bool) (s : State) : State :=
  attCmd a key 1 (fun s =>
    if s.att.role ≠ 2 then attRefuse 1 2 s
    else if !s.att.endorsed then attRefuse 1 6 s
    else if !entropyOn s then attRefuse 1 7 s
    else if !dmaOk || !hostOpen s then attRefuse 1 5 s
    else if decide (s.att.aggCap.toNat < 0x4004 + 52 * s.att.children.length) then attRefuse 1 4 s
    else
      let s := chargeDma 3 false 72 s
      if !nonceOk nonce then attBadNonce 1 s
      else
        let s := attResult (if s.att.round.isSome then 3 else 0) s
        askRound { nonce := nonce } (s.modAtt fun x => { x with busy := true })) s

/-- REJOIN (R371, R380). -/
def doRejoin (a : Agent) (key : BitVec 16) (s : State) : State :=
  attCmd a key 2 (fun s =>
    if s.att.role = 0 || s.boot.eff.parent == s.boot.eff.member then attRefuse 2 2 s else sendHello (attResult 0 s)) s

/-- ENDORSE (R361, R380). -/
def doEndorse (a : Agent) (key : BitVec 16) (dmaOk : Bool) (s : State) : State :=
  attCmd a key 3 (fun s =>
    if !s.att.endorsed then attRefuse 3 6 s
    else if !dmaOk || !hostOpen s then attRefuse 3 5 s
    else
      let b := keyBlock s 0 1 ++ keyBlock s 2 3 ++ endorsement s
      if decide (s.att.aggCap.toNat < b.length) then attRefuse 3 4 s
      else chargeDma 3 true b.length (hostWrite 0 s.att.aggAddr b (attResult 0 s))) s

/-- ATT_CMD EVIDENCE (R365, R380): the token goes where an aggregate's goes in the buffer of R377 (DEDUCED). -/
def doAttEvidence (a : Agent) (key : BitVec 16) (nonce : Bytes) (dmaOk : Bool) (s : State) : State :=
  attCmd a key 4 (fun s =>
    if !s.att.endorsed then attRefuse 4 6 s
    else if !entropyOn s then attRefuse 4 7 s
    else if !dmaOk || !hostOpen s then attRefuse 4 5 s
    else
      let s := chargeDma 3 false 72 s
      if !nonceOk nonce then attBadNonce 4 s
      else
        let (t, s1) := evidenceToken nonce 16 allClaims none s
        let b := leBytes 4 t.length ++ t
        if decide (s.att.aggCap.toNat < 0x1000 + b.length) then attRefuse 4 4 s
        else
          let s := ev 0xD002#16 16 allClaims.toNat t.length (attResult 0 s1)
          chargeDma 3 true b.length (hostWrite 0 (s.att.aggAddr + 0x1000#64) b s)) s

/-- AGGREGATE. -/
def execAggregate (a : Agent) (key : BitVec 16) (nonce : Bytes) (dmaOk : Bool) (s : State) : Host.Outcome State Fault Refusal :=
  .next (doAggregate a key nonce dmaOk s)

/-- REJOIN. -/
def execRejoin (a : Agent) (key : BitVec 16) (s : State) : Host.Outcome State Fault Refusal := .next (doRejoin a key s)

/-- ENDORSE. -/
def execEndorse (a : Agent) (key : BitVec 16) (dmaOk : Bool) (s : State) : Host.Outcome State Fault Refusal :=
  .next (doEndorse a key dmaOk s)

/-- ATT_EVIDENCE. -/
def execAttEvidence (a : Agent) (key : BitVec 16) (nonce : Bytes) (dmaOk : Bool) (s : State) : Host.Outcome State Fault Refusal :=
  .next (doAttEvidence a key nonce dmaOk s)

end Sys2Proof.Machine
end

