-- ==== Sys2Proof/Machine/Leafop.lean ====
section
/-! DEFINITION. The verified views of the boot flashes: which slot holds an address of a flash, a leaf against its slot's
Merkle root, and the cache of verified leaves (R268, R297, R298, R312). -/

namespace Sys2Proof.Machine

/-- Where an address of a flash lies in an image object's copy. -/
structure CopyAt where
  /-- the object -/
  obj : Fin 64
  /-- slot A, slot B or the golden copy -/
  sel : SlotSel
  /-- the copy's first address -/
  start : Nat

/-- An address lies in a range. -/
def liesIn (a start len : Nat) : Bool := decide (start ≤ a ∧ a < start + len)

/-- The copy of one object that holds an address of a flash (R311). -/
def objAt (s : State) (o : Fin 64) (c : Fin 16) (cs1 : Bool) (a : Nat) : Option CopyAt :=
  match s.ldg.objs[o].cfg with
  | none => none
  | some e =>
    if e.ch = c && (!cs1 || s.sdl.ch[c].cfg.layout == 1#2) && liesIn a e.base.toNat e.len.toNat then
      some ⟨o, if cs1 then .b else .a, e.base.toNat⟩
    else if c = 15 && cs1 && e.goldOff != 0xFFFFFFFF#32 && liesIn a e.goldOff.toNat e.len.toNat then
      some ⟨o, .golden, e.goldOff.toNat⟩
    else none

/-- The copy that holds an address of a flash. -/
def copyAt (s : State) (c : Fin 16) (cs1 : Bool) (a : Nat) : Option CopyAt :=
  (List.finRange 64).findSome? fun o => objAt s o c cs1 a

/-- The manifest of a copy that is presented as verified: its slot VERIFIED or ACTIVE in the ledger, its manifest verified at
this start or at a later commit (R297). A golden copy has no ledger state of its own: its manifest alone decides
(DEDUCED). -/
def viewMan (s : State) (p : CopyAt) : Option ManInfo :=
  let x := s.ldg.objs[p.obj]
  let led (b : Bool) : Bool := latestSt s p.obj.val b = 2 || latestSt s p.obj.val b = 3
  match p.sel with
  | .a => if led false && x.mvA then x.manA else none
  | .b => if led true && x.mvB then x.manB else none
  | .golden => if x.mvG then x.manG else none

/-- The root that a leaf and its path give; `none` in the path is a node passed up (R268). -/
def pathRoot (h : Bytes → Bytes) : Nat → Bytes → List (Option Bytes) → Bytes
  | _, n, [] => n
  | i, n, none :: t => pathRoot h (i / 2) n t
  | i, n, some x :: t => pathRoot h (i / 2) (h (1#8 :: (if i % 2 = 0 then n ++ x else x ++ n))) t

/-- A leaf of an image matches the slot's root (R268, R297): leaf `i`, of its actual length. -/
def leafOk (m : ManInfo) (i : Nat) (l : LeafIn) : Bool :=
  let h : Bytes → Bytes := if m.sha384 then sha3_384 else sha3_256
  let root := leBytes (if m.sha384 then 48 else 32) m.root.toNat
  l.leaf.length = min 4096 (m.size.toNat - 4096 * i) && pathRoot h i (h (0#8 :: l.leaf)) l.path == root

/-- The number of a flash's leaf in a channel's cache: its chip select and its address. -/
def leafKey (cs1 : Bool) (a : Nat) : Nat := (if cs1 then 2 ^ 32 else 0) + a / 4096 * 4096

/-- The number of a tree node in a channel's cache: its chip select, object, level and place. -/
def nodeKey (cs1 : Bool) (o lv i : Nat) : Nat := ((if cs1 then 64 else 0) + o) * 2 ^ 40 + lv * 2 ^ 32 + i

/-- The nodes a checked leaf's path holds or gives, level by level (R268). -/
def pathNodes (h : Bytes → Bytes) (cs1 : Bool) (o : Nat) : Nat → Nat → Bytes → List (Option Bytes) → List (Nat × Bytes)
  | _, _, _, [] => []
  | lv, i, n, none :: t => (nodeKey cs1 o lv i, n) :: pathNodes h cs1 o (lv + 1) (i / 2) n t
  | lv, i, n, some x :: t =>
    (nodeKey cs1 o lv i, n) :: (nodeKey cs1 o lv (if i % 2 = 0 then i + 1 else i - 1), x) ::
      pathNodes h cs1 o (lv + 1) (i / 2) (h (1#8 :: (if i % 2 = 0 then n ++ x else x ++ n))) t

/-- Install at the most recently used place of a cache of `cap` entries (R298). -/
def lruPut (cap : Nat) (e : Nat × Bytes) (l : List (Nat × Bytes)) : List (Nat × Bytes) :=
  (e :: l.filter fun x => x.1 ≠ e.1).take cap

/-- A leaf of the channel's cache becomes its most recently used (R298). -/
def touchLeaf (c : Fin 16) (k : Nat) (s : State) : State :=
  modCh c (fun x => match assocGet x.cache k with
    | some b => { x with cache := lruPut 64 (k, b) x.cache }
    | none => x) s

/-- A verified leaf and its path's nodes join the channel's cache (R298). -/
def cacheLeaf (c : Fin 16) (cs1 : Bool) (o : Fin 64) (a i : Nat) (m : ManInfo) (l : LeafIn) (s : State) : State :=
  let h : Bytes → Bytes := if m.sha384 then sha3_384 else sha3_256
  modCh c (fun x => { x with
    cache := lruPut 64 (leafKey cs1 a, l.leaf) x.cache
    cvNodes := (pathNodes h cs1 o.val 0 i (h (0#8 :: l.leaf)) l.path).foldl (fun n e => lruPut 1024 e n) x.cvNodes }) s

/-- A leaf fails its check: event 0xA050 (R297, R299). -/
def leafFails (c : Fin 16) (o : Fin 64) (a : Nat) (s : State) : State := ev 0xA050#16 c.val o.val (a / 4096 * 4096) s

end Sys2Proof.Machine
end

