-- ==== Sys2Proof/Machine/Bar2.lean ====
section
/-! DEFINITION. The meanings of the commands of PF0 BAR2, the verified views of the boot flashes (R231, R297). -/

namespace Sys2Proof.Machine

/-- The channel, chip select 1 and flash address of a BAR2 offset (R231). -/
def bar2At (off : Nat) : Fin 16 × Bool × Nat :=
  (⟨off / 2 ^ 30 % 16, Nat.mod_lt _ (by decide)⟩, decide (off / 2 ^ 29 % 2 = 1), off % 2 ^ 29)

/-- The copy presented at a BAR2 offset as verified, with its manifest and the leaf's index. -/
def bar2View (s : State) (off : Nat) : Option (CopyAt × ManInfo × Nat) :=
  let (c, cs1, a) := bar2At off
  match copyAt s c cs1 a with
  | none => none
  | some p => match viewMan s p with
    | none => none
    | some m => if a - p.start < m.size.toNat then some (p, m, (a - p.start) / 4096) else none

/-- Why a BAR2 read cannot be served at all (R231): 0, or cause 1, 2 or 3. An address that no leaf of the image covers is
not presented as verified (DEDUCED, R297). -/
def bar2Cause (s : State) (off : Nat) : Nat :=
  let (c, cs1, a) := bar2At off
  let d := if cs1 then s.sdl.ch[c].dens1 else s.sdl.ch[c].dens0
  if !chPresent s c || d = 0 then 1
  else if decide (2 ^ d ≤ a) then 2
  else if (bar2View s off).isNone then 3
  else 0

/-- A BAR2 read completes with Completer Abort (R231). -/
def bar2Abort (off cause : Nat) (s : State) : State :=
  let s := s.modHlk fun h => { h with bar2 := h.bar2.filter (· ≠ off) }
  ev 0x9030#16 (off / 4) cause 0 (emit .completerAbort s)

/-- The verification reader can read the channel's flash now: in VERIFYING, or in FILTERING in the platform's idle time
(R279, R296). -/
def canReadFlash (s : State) (c : Fin 16) : Bool :=
  let x := s.sdl.ch[c]
  s.pwr.vflashOn && !x.pwrCycle && x.devOp.isNone && x.writeBusy.isNone &&
    ((x.mode == .verifying && x.discovered) || x.mode == .filtering)

/-- The leaf is read, checked and answered, its payload charged to P8 (R231, R297, R298). -/
def bar2Serve (off n : Nat) (l : LeafIn) (s : State) : State :=
  let (c, cs1, a) := bar2At off
  match bar2View s off with
  | none => bar2Abort off 3 s
  | some (p, m, i) =>
    let reply (b : Bytes) (s : State) : State :=
      let s := s.modHlk fun h => { h with bar2 := h.bar2.filter (· ≠ off) }
      chargeDma 8 true n (emit (.readReply (slice b (a % 4096) n)) s)
    match (if s.sdl.ch[c].cvOn then assocGet s.sdl.ch[c].cache (leafKey cs1 a) else none) with
    | some b => reply b (touchLeaf c (leafKey cs1 a) s)
    | none =>
      let s := modCh c (fun x => { x with starved := false }) (pmcAdd (320 + c.val) l.leaf.length s)
      if leafOk m i l then
        reply l.leaf (if s.sdl.ch[c].cvOn then cacheLeaf c cs1 p.obj a i m l s else s)
      else bar2Abort off 3 (leafFails c p.obj a s)

/-- BAR2_READ (R231, R297): a read that cannot be served yet waits. -/
def doBar2Read (off : BitVec 34) (n : Nat) (l : LeafIn) (s : State) : State :=
  accessBar 0 2 off.toNat (fun s =>
    let o := off.toNat
    match bar2Cause s o with
    | 0 =>
      if exhausted s 8 2 || !canReadFlash s (bar2At o).1 then
        s.modHlk fun h => { h with bar2 := if o ∈ h.bar2 then h.bar2 else h.bar2 ++ [o] }
      else bar2Serve o n l s
    | cause => bar2Abort o cause s) s

/-- BAR2_READ_TIMEOUT (R231): cause 4, of a read that could be served but was not. -/
def doBar2ReadTimeout (off : BitVec 34) (s : State) : State :=
  if off.toNat ∈ s.hlk.bar2 then bar2Abort off.toNat 4 s
  else accessBar 0 2 off.toNat (fun s => if bar2Cause s off.toNat = 0 then bar2Abort off.toNat 4 s else s) s

/-- BAR2_WRITE (R231). -/
def doBar2Write (off : BitVec 34) (s : State) : State :=
  accessBar 0 2 off.toNat (ev 0x9031#16 (off.toNat / 4) 0 0) s

/-- BAR2_READ. -/
def execBar2Read (off : BitVec 34) (n : Nat) (l : LeafIn) (s : State) : Host.Outcome State Fault Refusal :=
  .next (doBar2Read off n l s)

/-- BAR2_READ_TIMEOUT. -/
def execBar2ReadTimeout (off : BitVec 34) (s : State) : Host.Outcome State Fault Refusal :=
  .next (doBar2ReadTimeout off s)

/-- BAR2_WRITE. -/
def execBar2Write (off : BitVec 34) (s : State) : Host.Outcome State Fault Refusal := .next (doBar2Write off s)

end Sys2Proof.Machine
end

