-- ==== Sys2Proof/Machine/BlockReset.lean ====
section
/-! DEFINITION. Block resets (R81): the idle flags, and what each block returns to. -/

namespace Sys2Proof.Machine

/-- A block has no request outstanding, no credit held and no operation in progress: RST_IDLE (R81). Which state shows
that is read from what each block holds (DEDUCED, log entry 12). -/
def blockIdle (s : State) (b : Fin 11) : Bool :=
  match b with
  | 0 => s.fus.prog.isNone && !s.fus.busy
  | 1 => s.wsh.inFlight = 0 && s.job.jobs.all fun j => j.cluster.isNone
  | 2 => s.job.jobs.isEmpty
  | 3 => !s.sdl.busy && s.hlk.bar2.isEmpty && s.sdl.ch.all (fun x => x.cvQueue.isEmpty) &&
      allDoms.all (fun d => s.prs.dom[d].st != .verifying || s.prs.dom[d].ready)
  | 4 => !s.ldg.busy && !s.ldg.rcvBusy && s.ldg.objs.all fun x => x.redirPhase = 0
  | 5 => !s.kvt.busy && s.kvt.shadows.isEmpty && !s.kvt.imgPend && s.job.jobs.all fun j => j.keyVer.isEmpty
  | 6 => s.ent.st != .startup && s.ent.st != .recovering
  | 7 => !s.att.busy && s.att.rxq.isEmpty && s.att.round.isNone && s.att.rounds.isEmpty
  | 8 => !s.chp.cmdBusy && !s.boot.updBusy && s.chp.mode == .masterIdle
  | 9 => s.evr.winReady
  | _ => true

/-- One bit of a write of RST_BLOCK (R81): a busy block refuses, with a busy reason that the spec does not code; an idle
one is reset, and its waiting LIVE writes are discarded (R136). `win` is the block's window. A request during a device
reset is lost. -/
def blockReset (b : Fin 11) (win : Nat) (f : State → State) (s : State) : State :=
  if s.rst.ph != .none then s
  else if blockIdle s b then ev 0x3021#16 b.val 0 0 (f (dropLive (fun o => o / 0x100000 = win) 1 s))
  else evFree1 0x3020#16 b.val (s.modRst fun r => { r with refused := bvPut r.refused b.val true })

/-- RST_BLOCK's offset. -/
def rstBlockOff : Nat := 0x300008

/-- FUS: the controller alone; the shadows are loaded again, TRIM's excepted (R81, R84). -/
def resetFus (s : State) : State :=
  let s := s.modFus fun f => { f with
    busy := false, err := 0#4, addr := 0#11, data := 0#32, result := 0#5, pkg := 0#64 }
  (loadRoot (loadShadows step4Regions s)).2

/-- BLOCK_RESET_FUS. -/
def doBlockResetFus (a : Agent) (s : State) : State := access a rstBlockOff (blockReset 0 4 resetFus) s

/-- BLOCK_RESET_FUS. -/
def execBlockResetFus (a : Agent) (s : State) : Host.Outcome State Fault Refusal := .next (doBlockResetFus a s)

/-- WSH: the frame starts again, with every use at zero (R81). -/
def resetWsh (s : State) : State :=
  if s.wsh.started then
    firstFrame (s.modEvr fun e => { e with frameBase := e.frameBase + s.wsh.no.toNat + 1 })
  else s

/-- BLOCK_RESET_WSH. -/
def doBlockResetWsh (a : Agent) (s : State) : State := access a rstBlockOff (blockReset 1 6 resetWsh) s

/-- BLOCK_RESET_WSH. -/
def execBlockResetWsh (a : Agent) (s : State) : Host.Outcome State Fault Refusal := .next (doBlockResetWsh a s)

/-- JOB: the queues are disabled, the quotas are as configured, and every loaded program goes (R81, R220). -/
def resetJob (s : State) : State :=
  let s := s.modPln fun p => { p with progs := [], clusters := p.clusters.map fun c => { c with resident := [] } }
  let s := s.modJob fun b => { ({} : JobB) with nextId := b.nextId }
  if s.wsh.started then setQuotas (fun f => s.boot.eff.quotas.toList.getD f 0) s else s

/-- BLOCK_RESET_JOB. -/
def doBlockResetJob (a : Agent) (s : State) : State := access a rstBlockOff (blockReset 2 8 resetJob) s

/-- BLOCK_RESET_JOB. -/
def execBlockResetJob (a : Agent) (s : State) : Host.Outcome State Fault Refusal := .next (doBlockResetJob a s)

/-- SDL: the verification reader and the caches alone (R81). -/
def resetSdl (s : State) : State :=
  s.modSdl fun d => { d with
    result := 0#4, ch := d.ch.map fun x => { x with cache := [], cvNodes := [], cvQueue := [], starved := false } }

/-- BLOCK_RESET_SDL. -/
def doBlockResetSdl (a : Agent) (s : State) : State := access a rstBlockOff (blockReset 3 10 resetSdl) s

/-- BLOCK_RESET_SDL. -/
def execBlockResetSdl (a : Agent) (s : State) : Host.Outcome State Fault Refusal := .next (doBlockResetSdl a s)

/-- LDG: the view of the ledger is read from flash again (R81, R325, R336). -/
def resetLdg (s : State) : State :=
  let s := s.modLdg fun l => { l with result := 0#4, check := 0#4, rcvAddr := 0#64 }
  if ledRead s then readLedger s else s

/-- BLOCK_RESET_LDG. -/
def doBlockResetLdg (a : Agent) (s : State) : State := access a rstBlockOff (blockReset 4 12 resetLdg) s

/-- BLOCK_RESET_LDG. -/
def execBlockResetLdg (a : Agent) (s : State) : Host.Outcome State Fault Refusal := .next (doBlockResetLdg a s)

/-- KVT: the vault is zeroised and the identity layers are derived; RESTORE_DONE restores the persistent slots (R81,
R354). -/
def resetKvt (s : State) : State :=
  let s := zeroVault s
  let s := s.modKvt fun k => { ({} : Kvt) with
    remask := BitVec.ofNat 7 s.boot.eff.remaskMs, wipePend := k.wipePend, kekNew := k.kekNew }
  if lcClosed s || !s.glb.ready then s else derive s

/-- BLOCK_RESET_KVT. -/
def doBlockResetKvt (a : Agent) (s : State) : State := access a rstBlockOff (blockReset 5 13 resetKvt) s

/-- BLOCK_RESET_KVT. -/
def execBlockResetKvt (a : Agent) (s : State) : Host.Outcome State Fault Refusal := .next (doBlockResetKvt a s)

/-- ENT: the start-up tests run before output resumes (R81). -/
def resetEnt (s : State) : State := s.modEnt fun _ => {}

/-- BLOCK_RESET_ENT. -/
def doBlockResetEnt (a : Agent) (s : State) : State := access a rstBlockOff (blockReset 6 14 resetEnt) s

/-- BLOCK_RESET_ENT. -/
def execBlockResetEnt (a : Agent) (s : State) : Host.Outcome State Fault Refusal := .next (doBlockResetEnt a s)

/-- ATT: waiting requests are discarded (R81). The links, which end only with the vault (R371), stay. -/
def resetAtt (s : State) : State :=
  s.modAtt fun t => { ({} : Att) with
    role := t.role, joined := t.joined, endorsed := t.endorsed, up := t.up, children := t.children, epoch := t.epoch,
    helloTick := t.helloTick, nakTick := t.nakTick, roundNo := t.roundNo, bootseed := t.bootseed, endDraw := t.endDraw }

/-- BLOCK_RESET_ATT. -/
def doBlockResetAtt (a : Agent) (s : State) : State := access a rstBlockOff (blockReset 7 15 resetAtt) s

/-- BLOCK_RESET_ATT. -/
def execBlockResetAtt (a : Agent) (s : State) : Host.Outcome State Fault Refusal := .next (doBlockResetAtt a s)

/-- CHP: as configured, every select released (R81, R409). -/
def resetChp (s : State) : State :=
  let s := s.modChp fun _ => {}
  if s.wsh.started then applyChp s.boot.eff s else driveGpio s

/-- BLOCK_RESET_CHP. -/
def doBlockResetChp (a : Agent) (s : State) : State := access a rstBlockOff (blockReset 8 34 resetChp) s

/-- BLOCK_RESET_CHP. -/
def execBlockResetChp (a : Agent) (s : State) : Host.Outcome State Fault Refusal := .next (doBlockResetChp a s)

/-- BLOCK_RESET_EVR: the flush engine alone, which holds nothing while it is idle; the ring is kept (R81). -/
def doBlockResetEvr (a : Agent) (s : State) : State := access a rstBlockOff (blockReset 9 35 id) s

/-- BLOCK_RESET_EVR. -/
def execBlockResetEvr (a : Agent) (s : State) : Host.Outcome State Fault Refusal := .next (doBlockResetEvr a s)

/-- PMC: every counter is zeroed (R81). -/
def resetPmc (s : State) : State := s.modPmc fun p => { ({} : Pmc) with on := p.on, userEn := s.boot.eff.pmcUserEn }

/-- BLOCK_RESET_PMC. -/
def doBlockResetPmc (a : Agent) (s : State) : State := access a rstBlockOff (blockReset 10 36 resetPmc) s

/-- BLOCK_RESET_PMC. -/
def execBlockResetPmc (a : Agent) (s : State) : Host.Outcome State Fault Refusal := .next (doBlockResetPmc a s)

end Sys2Proof.Machine
end

