-- ==== Sys2Proof/Machine/Chpop.lean ====
section
/-! DEFINITION. The Chain Port's frames: the host's, the read window's, and what waits for the port (R407 to R416, R420). -/

namespace Sys2Proof.Machine

/-- Other work than a host frame or a session holds the port: a configuration update (R410, R416). -/
def portHeld (s : State) : Bool := s.boot.updBusy || s.chp.mode == .masterFrame

/-- The pins of GPIO_USE 3 (R407). -/
def selPins (s : State) : BitVec 16 :=
  (List.finRange 16).foldl (fun m n => if s.chp.gpioUse[n] = 3#8 then bvPut m n.val true else m) 0#16

/-- The selects are written (R407): bits of pins of another use are ignored. -/
def setSel (v : BitVec 16) (s : State) : State := driveGpio (s.modChp fun c => { c with sel := v &&& selPins s })

/-- Bytes of a buffer, from an offset. -/
def bufBytes (m : List (Nat × BitVec 8)) (o n : Nat) : Bytes := (List.range n).map fun i => cellGet 0#8 m (o + i)

/-- Put bytes into a buffer, from an offset. -/
def bufPut (m : List (Nat × BitVec 8)) (o : Nat) (b : Bytes) : List (Nat × BitVec 8) :=
  ((List.range b.length).zip b).foldl (fun m e => cellSet 0#8 m (o + e.1) e.2) m

/-- Bytes that hold a number of bits. -/
def bytesOf (bits : Nat) : Nat := (bits + 7) / 8

/-- The received bits in their bytes, most significant first; unused low bits of the last byte are zero (R410). -/
def rxBits (bits : Nat) (b : Bytes) : Bytes :=
  (List.range (bytesOf bits)).map fun i =>
    let x := b.getD i 0xFF#8
    let used := bits - 8 * i
    if 8 ≤ used then x else (x >>> (8 - used)) <<< (8 - used)

/-- A framing fault (R420): the frame is discarded, counted and logged with the port's mode. -/
def framingFault (mode cause edges : Nat) (s : State) : State :=
  ev 0xF010#16 mode cause edges (s.modChp fun c => { c with errors := bvSat c.errors 1 })

/-- A host frame begins (R410): its selects and out bits. -/
def beginFrame (s : State) : State :=
  let b := bufBytes s.chp.tx 0 (bytesOf s.chp.outN.toNat)
  emit (.chpOut s.chp.sel b) (s.modChp fun c => { c with
    mode := .masterFrame, runLen := c.len, runOut := c.outN, runTurn := c.turn })

/-- Clocks of a window frame (R415). -/
def winClocks (s : State) (n : Nat) : Nat := 8 + 8 * s.chp.winAddr + s.chp.winTurn + 8 * n

/-- A window read that gets no data completes with 0xFF in every byte (R416). -/
def winFill (off n cause : Nat) (s : State) : State := emit (.readReply (List.replicate n 0xFF#8)) (ev 0xF020#16 off cause 0 s)

/-- A window read runs its frame (R415, R416): opcode and address out, data in. Bits that nothing drives are held high. -/
def winFrame (off n edges : Nat) (data : Bytes) (s : State) : State :=
  let sel : BitVec 16 := BitVec.ofNat 16 (2 ^ s.chp.winSel.val)
  let s := emit (.chpOut sel (s.chp.winOpcode :: beBytes s.chp.winAddr off)) s
  if edges ≠ winClocks s n then winFill off n 4 (framingFault 1 3 edges s)
  else emit (.readReply (data.take n ++ List.replicate (n - data.length) 0xFF#8)) s

/-- A session that waited for the frame opens (R417). -/
def toolWaits (s : State) : State :=
  match s.ldg.rcvObj with
  | some o => if s.ldg.rcvSrc = 3 && s.ldg.rcvStage = 4 then toolOpen o s else s
  | none => s

/-- The port is free (R407, R410, R411, R416, R417): the selects and LIVE writes that waited are applied, then window reads
that waited run, then a session that waited opens, else a START that waited. -/
def portFree (s : State) : State :=
  if portHeld s then s
  else
    let s := match s.chp.selPend with
      | some v => setSel v (s.modChp fun c => { c with selPend := none })
      | none => s
    let s := applyChpLive s
    let l := s.chp.winPend
    let s := l.foldl (fun s e => winFrame e.1 e.2.1 e.2.2.1 e.2.2.2 s) (s.modChp fun c => { c with winPend := [] })
    let s := toolWaits s
    if s.chp.cmdBusy && s.chp.mode == .masterIdle then beginFrame s else s

end Sys2Proof.Machine
end

