-- ==== Sys2Proof/Machine/Chain.lean ====
section
/-! DEFINITION. The meanings of the Chain Port's commands (chapter 16, R405 to R422). -/

namespace Sys2Proof.Machine

/-- CHP_CMD START refused (R422). -/
def chpRefuse (res : Nat) (s : State) : State :=
  ev 0xF011#16 1 res 0 (s.modChp fun c => { c with result := BitVec.ofNat 4 res })

/-- A START whose key is right (R410); one that comes while a frame is queued or runs changes nothing (DEDUCED). -/
def startFrame (s : State) : State :=
  let c := s.chp
  if c.mode = .slaveSession then chpRefuse 4 s
  else if c.cmdBusy then s
  else if c.sel = 0#16 then chpRefuse 2 s
  else if decide (c.outN.toNat + c.turn.toNat > c.len.toNat) then chpRefuse 3 s
  else if decide (c.outN.toNat + c.turn.toNat < c.len.toNat) && decide (1 < popCount c.sel) then chpRefuse 6 s
  else
    let s := s.modChp fun c => { c with cmdBusy := true, result := 0#4, rxValid := false }
    if portHeld s then s else beginFrame s

/-- CHP_START (R410, R422). -/
def doChpStart (a : Agent) (key : BitVec 16) (s : State) : State :=
  access a 0x2200004 (fun s => if key ≠ 0x2C9E#16 then chpRefuse 1 s else startFrame s) s

/-- CHP_FRAME_END (R410 to R412, R420). -/
def doChpFrameEnd (edges : Nat) (inBytes : Bytes) (s : State) : State :=
  if s.chp.mode ≠ .masterFrame then s
  else
    let c := s.chp
    let s :=
      if edges ≠ c.runLen.toNat then framingFault 1 3 edges (s.modChp fun c => { c with result := 5#4 })
      else
        let b := rxBits (c.runLen.toNat - c.runOut.toNat - c.runTurn.toNat) inBytes
        s.modChp fun c => { c with result := 0#4, rx := bufPut c.rx 0 b, rxValid := true }
    portFree (s.modChp fun c => { c with mode := .masterIdle, cmdBusy := false })

/-- CHP_SEL_WRITE (R407): during a frame the write waits for its end. -/
def doChpSelWrite (a : Agent) (v : BitVec 16) (s : State) : State :=
  access a 0x220001C (fun s =>
    if s.chp.mode = .masterFrame then s.modChp fun c => { c with selPend := some v } else setSel v s) s

/-- CHP_GPIO_WRITE (R408): during a recovery boot the AGENT_STRAP pin keeps its level (R333). -/
def doChpGpioWrite (a : Agent) (v : BitVec 16) (s : State) : State :=
  access a 0x2200020 (fun s =>
    let strap := s.boot.eff.agentStrap
    let n := strap.toNat % 16
    let v := if s.ldg.agentBoot && strap.getLsbD 7 then bvPut v n (s.chp.gpioOut.getLsbD n) else v
    driveGpio (s.modChp fun c => { c with gpioOut := v })) s

/-- WINDOW_READ (R415, R416): while other work holds the port the read waits. -/
def doWindowRead (a : Agent) (off : BitVec 24) (n edges : Nat) (data : Bytes) (s : State) : State :=
  accessPf0 a (0x3000000 + off.toNat) (fun s =>
    let o := off.toNat
    if decide (256 ^ s.chp.winAddr ≤ o) then winFill o n 1 s
    else if s.chp.mode = .slaveSession then winFill o n 3 s
    else if portHeld s then s.modChp fun c => { c with winPend := c.winPend ++ [(o, n, edges, data)] }
    else winFrame o n edges data s) s

/-- WINDOW_WRITE (R415). -/
def doWindowWrite (a : Agent) (off : BitVec 24) (s : State) : State :=
  accessPf0 a (0x3000000 + off.toNat) (ev 0xF021#16 off.toNat 0 0) s

/-- Take the first window read that waits, of an offset and length. -/
def takeWin (off n : Nat) : List (Nat × Nat × Nat × Bytes) → Option (List (Nat × Nat × Nat × Bytes))
  | [] => none
  | e :: t => if e.1 = off ∧ e.2.1 = n then some t else (takeWin off n t).map (e :: ·)

/-- WINDOW_READ_TIMEOUT (R416). -/
def doWindowReadTimeout (off : BitVec 24) (n : Nat) (s : State) : State :=
  match takeWin off.toNat n s.chp.winPend with
  | some l => winFill off.toNat n 2 (s.modChp fun c => { c with winPend := l })
  | none => s

/-- The CRC of a slave frame (R418). -/
def slvCrcOk (f : Bytes) : Bool := (crc32c (f.take 1032)).toNat = leAt f 1032 4

/-- A slave frame is discarded (R419): its cause shows in STATUS. -/
def slvDrop (op cause off : Nat) (s : State) : State :=
  ev 0xF032#16 op cause off (s.modChp fun c => { c with slvCause := BitVec.ofNat 8 cause })

/-- A slave frame acted on. -/
def slvActed (s : State) : State := s.modChp fun c => { c with slvFrames := bvSat c.slvFrames 1 }

/-- The next place in a package: after the tail the body from 0 (R419). -/
def slvLen (s : State) : Nat :=
  match s.chp.slvObj with
  | some o => ((s.ldg.objs[o].cfg.map (·.len)).getD 0#32).toNat
  | none => 0

/-- A DATA frame's bytes are taken (R419, R332): the tail is held until it is whole, and then its manifest is checked before
anything is erased; the body is programmed in order. -/
def slvTake (o : Fin 64) (off : Nat) (b : Bytes) (s : State) : State :=
  if s.chp.slvState = 1#3 then
    let held := s.chp.slvHeld ++ b
    let s := s.modChp fun c => { c with slvHeld := held, slvTail := held.length, slvNext := c.slvNext + 1024 }
    if held.length < 8192 then s
    else tailArrived o 4 held (s.modChp fun c => { c with slvState := 3#3, slvNext := 0 })
  else putBody o off b (s.modChp fun c => { c with slvNext := c.slvNext + 1024 })

/-- A DATA frame can be taken now: the tail or the body is awaited. -/
def slvAwaits (s : State) : Bool := s.chp.slvState = 1#3 || s.chp.slvState = 3#3

/-- DATA (R418, R419). -/
def doSlvData (f : Bytes) (s : State) : State :=
  if f.length ≠ 1040 || leAt f 0 1 ≠ 0x10 || s.chp.slvSel.isNone then s
  else
    let off := leAt f 4 4
    let full := s.chp.slvState = 3#3 && decide (slvLen s ≤ s.chp.slvNext + 8192)
    if !slvCrcOk f then slvDrop 0x10 1 off s
    else match s.chp.slvObj with
      | none => slvDrop 0x10 4 off s
      | some o =>
        if s.chp.slvFree = 0 || !slvAwaits s then slvDrop 0x10 3 off s
        else if off ≠ s.chp.slvNext || full then slvDrop 0x10 2 off s
        else slvTake o off (slice f 8 1024) (slvActed s)

/-- END (R418, R419): before every byte has come it fails the attempt with cause 2. Its CRC and session are judged as a DATA
frame's (DEDUCED). -/
def doSlvEnd (f : Bytes) (s : State) : State :=
  if f.length ≠ 1040 || leAt f 0 1 ≠ 0x11 || s.chp.slvSel.isNone then s
  else if !slvCrcOk f then slvDrop 0x11 1 (leAt f 4 4) s
  else match s.chp.slvObj with
    | none => slvDrop 0x11 4 (leAt f 4 4) s
    | some o =>
      if !slvAwaits s then slvActed s
      else if s.chp.slvState = 3#3 && decide (s.chp.slvNext = slvLen s - 8192) then
        bodyArrived o ((slvActed s).modChp fun c => { c with slvState := 4#3, slvFree := 0 })
      else failNow 2 (slvActed s)

/-- Bytes 2 to 1,039 of a STATUS frame (R418); byte 1, the turnaround, is held high (DEDUCED). -/
def slvReply (s : State) : Bytes :=
  let c := s.chp
  let body := [c.slvState.setWidth 8, BitVec.ofNat 8 ((c.slvObj.map Fin.val).getD 0)] ++ leBytes 4 (slvLen s) ++
    leBytes 4 c.slvNext ++ [BitVec.ofNat 8 c.slvFree, c.slvCause] ++ List.replicate 1018 0#8
  body ++ leBytes 4 (crc32c ([0x20#8, 0xFF#8] ++ body)).toNat ++ List.replicate 4 0#8

/-- STATUS (R418). -/
def doSlvStatus (s : State) : State :=
  if s.chp.slvSel.isNone then s else slvActed (emit (.slaveReply (slvReply s)) s)

/-- SLAVE_FRAMING_FAULT (R420). -/
def doSlaveFramingFault (edges : Nat) (s : State) : State :=
  if edges = 8320 || s.chp.slvSel.isNone then s else framingFault 2 (if edges % 8 = 0 then 2 else 1) edges s

/-- CHP_START. -/
def execChpStart (a : Agent) (key : BitVec 16) (s : State) : Host.Outcome State Fault Refusal := .next (doChpStart a key s)

/-- CHP_FRAME_END. -/
def execChpFrameEnd (edges : Nat) (inBytes : Bytes) (s : State) : Host.Outcome State Fault Refusal :=
  .next (doChpFrameEnd edges inBytes s)

/-- CHP_SEL_WRITE. -/
def execChpSelWrite (a : Agent) (v : BitVec 16) (s : State) : Host.Outcome State Fault Refusal := .next (doChpSelWrite a v s)

/-- CHP_GPIO_WRITE. -/
def execChpGpioWrite (a : Agent) (v : BitVec 16) (s : State) : Host.Outcome State Fault Refusal := .next (doChpGpioWrite a v s)

/-- WINDOW_READ. -/
def execWindowRead (a : Agent) (off : BitVec 24) (n : Nat) (edges : Nat) (data : Bytes)
    (s : State) : Host.Outcome State Fault Refusal :=
  .next (doWindowRead a off n edges data s)

/-- WINDOW_WRITE. -/
def execWindowWrite (a : Agent) (off : BitVec 24) (s : State) : Host.Outcome State Fault Refusal := .next (doWindowWrite a off s)

/-- WINDOW_READ_TIMEOUT. -/
def execWindowReadTimeout (off : BitVec 24) (n : Nat) (s : State) : Host.Outcome State Fault Refusal :=
  .next (doWindowReadTimeout off n s)

/-- DATA. -/
def execSlvData (f : Bytes) (s : State) : Host.Outcome State Fault Refusal := .next (doSlvData f s)

/-- END. -/
def execSlvEnd (f : Bytes) (s : State) : Host.Outcome State Fault Refusal := .next (doSlvEnd f s)

/-- STATUS. -/
def execSlvStatus (s : State) : Host.Outcome State Fault Refusal := .next (doSlvStatus s)

/-- SLAVE_FRAMING_FAULT. -/
def execSlaveFramingFault (edges : Nat) (s : State) : Host.Outcome State Fault Refusal := .next (doSlaveFramingFault edges s)

end Sys2Proof.Machine
end

