-- ==== Sys2Proof/Machine/ConfigWrite.lean ====
section
/-! DEFINITION. The meanings of the commands that write configuration (chapter 05): runtime writes of fields, and the
configuration update. -/

namespace Sys2Proof.Machine

/-- CONFIG_FIELD_WRITE (R133 to R136). -/
def doConfigFieldWrite (a : Agent) (off : BitVec 26) (v : BitVec 32) (s : State) : State :=
  match a with
  | .vf n => vfWrite n off.toNat v s
  | _ => access a off.toNat (fieldWrite off.toNat v) s

/-- CONFIG_FIELD_WRITE. -/
def execConfigFieldWrite (a : Agent) (off : BitVec 26) (v : BitVec 32) (s : State) : Host.Outcome State Fault Refusal :=
  .next (doConfigFieldWrite a off v s)

/-- LIVE_WRITE_APPLY (R133). -/
def doLiveWriteApply (off : BitVec 26) (s : State) : State := applyLive off.toNat s

/-- LIVE_WRITE_APPLY. -/
def execLiveWriteApply (off : BitVec 26) (s : State) : Host.Outcome State Fault Refusal := .next (doLiveWriteApply off s)

/-- An update is refused (R137): its RESULT and SUB, and event 0x5022; the marker goes (R140). -/
def refuseUpd (result sub : Nat) (s : State) : State :=
  ev 0x5022#16 result sub 0 (s.modBoot fun b => { b with updResult := BitVec.ofNat 4 result, updSub := BitVec.ofNat 4 sub })

/-- An update that has begun fails (R138, R140). -/
def failUpd (s : State) : State :=
  refuseUpd 6 0 ((s.modBoot fun b => { b with updBusy := false }).modAon fun a => { a with marker := none })

/-- Write a copy of the record: B or A. -/
def putCopy (b : Bool) (x : Bytes) (s : State) : State :=
  s.modNv fun n => if b then { n with cfgB := x } else { n with cfgA := x }

/-- The copy that was written is applied at once under sealed defaults, and the start goes on with steps 10 to 12
(R139). -/
def applyUpdate (n : Nat) (c : Bytes × Cfg) (s : State) : State :=
  let t := usOf s.tbs.tick.toNat
  let i : StartIn := { vinMv := s.pwr.vinMv, holdMs := 0#32, batPresent := s.pwr.batPresent, vbatMv := s.pwr.vbatMv, tj := s.pwr.tj,
                       devRstLow := false, selftest := s.boot.selftest, faultA := false, faultB := false, xtalUs := 0#32,
                       stepUs := List.replicate 12 (BitVec.ofNat 24 t) }
  let s := applyCopy n c true s
  let s := ev 0x5023#16 n (copySeq c.1) 0 s
  let s := stepDone 10 i (step10 s)
  let s := if lcClosed s then s else derive s
  releaseBegins (deviceReady false t (stepDone 11 i s))

/-- Steps 2 to 5 of an update that passed its checks (R138, R139). -/
def runUpdate (msg : Bytes) (c : Bytes × Cfg) (p : UpdProg) (s : State) : State :=
  let b := s.boot.src = 1
  let n : Nat := if b then 2 else 1
  let s := s.modBoot fun x => { x with updTarget := b, updBusy := true, updResult := 0#4, updSub := 0#4 }
  match p with
  | .hangs k x => putCopy b x (s.modAon fun a => { a with marker := some (b, k.val + 2) })
  | .flashFault x => failUpd (putCopy b x s)
  | .completes =>
    let sealedNow := s.glb.sealedDefaults
    let s := putCopy b c.1 s
    let s := kumAccept msg (kumOwner msg s) s
    let s := s.modBoot fun x => { x with updBusy := false, pendingUpd := x.pendingUpd || !sealedNow }
    let s := ev 0x5021#16 n (copySeq c.1) 0 (s.modAon fun a => { a with marker := none })
    if sealedNow then applyUpdate n c s else s

/-- The checks of an update (R137), in the order of the conditions it lists. -/
def startUpdate (msg : Bytes) (p : UpdProg) (s : State) : State :=
  if !s.glb.ready || s.glb.startFail || lcClosed s then refuseUpd 7 0 s
  else if s.boot.updBusy then refuseUpd 1 0 s
  else if !regPass s 9 || !(List.range 4).any fun k => ownUsable s k then refuseUpd 5 0 s
  else
    let k := kumCheck [3] msg s
    if k ≠ 0 then refuseUpd 2 0 (kumRefuse msg k s)
    else
      let pl := kumPayload msg
      if decide (pl.length < 4) || leAt pl 0 4 ≠ pl.length - 4 then refuseUpd 2 0 (kumRefuse msg 7 s)
      else match judgeCopy false (serialNo s) (pl.drop 4) with
        | .error (r, _) => refuseUpd 3 r s
        | .ok c =>
          if !s.glb.sealedDefaults && decide (copySeq c.1 ≤ s.boot.seq.toNat) then refuseUpd 4 0 s
          else runUpdate msg c p s

/-- CONFIG_UPDATE (R137, R141): a write of BOOT_CFG_UPD_CMD by PF0 host software. -/
def doConfigUpdate (a : Agent) (key : BitVec 16) (go : Bool) (msg : Bytes) (p : UpdProg) (s : State) : State :=
  accessPf0 a 0x500248 (fun s =>
    if key ≠ 0x6C1F#16 then refuseUpd 8 0 s
    else if go then startUpdate msg p s else s) s

/-- CONFIG_UPDATE. -/
def execConfigUpdate (a : Agent) (key : BitVec 16) (go : Bool) (msg : Bytes) (p : UpdProg) (s : State) :
    Host.Outcome State Fault Refusal := .next (doConfigUpdate a key go msg p s)

/-- CONFIG_UPDATE_TIMEOUT (R138): 10 s have passed; the Chain Port is free again. -/
def doConfigUpdateTimeout (s : State) : State := if s.boot.updBusy then portFree (failUpd s) else s

/-- CONFIG_UPDATE_TIMEOUT. -/
def execConfigUpdateTimeout (s : State) : Host.Outcome State Fault Refusal := .next (doConfigUpdateTimeout s)

end Sys2Proof.Machine
end

