-- ==== Sys2Proof/Machine/Counters.lean ====
section
/-! DEFINITION. The meanings of the commands of the performance counters (chapter 17). -/

namespace Sys2Proof.Machine

/-- The offset of a PMC register (R447). -/
def pmcOff (o : Nat) : Nat := 0x2400000 + o

/-- Change one bandwidth monitor. -/
def modBw (m : Fin 4) (f : Bw → Bw) (s : State) : State := s.modPmc fun p => { p with bw := p.bw.set m (f p.bw[m]) }

/-- PMC_BW_WINDOW_END (R444): a window of 0 is off. -/
def doPmcBwWindowEnd (m : Fin 4) (moved : Nat) (s : State) : State :=
  if s.pmc.bw[m].window = 0#24 then s
  else modBw m (fun b => { b with last := p32s moved, peak := if b.peak.toNat < (p32s moved).toNat then p32s moved else b.peak }) s

/-- PMC_BW_WINDOW_END. -/
def execPmcBwWindowEnd (m : Fin 4) (moved : Nat) (s : State) : Host.Outcome State Fault Refusal :=
  .next (doPmcBwWindowEnd m moved s)

/-- PMC_BW_CLR (R447). -/
def doPmcBwClr (a : Agent) (m : Fin 4) (s : State) : State :=
  access a (pmcOff (0x100 + 16 * m.val)) (modBw m fun b => { b with peak := 0#32 }) s

/-- PMC_BW_CLR. -/
def execPmcBwClr (a : Agent) (m : Fin 4) (s : State) : Host.Outcome State Fault Refusal := .next (doPmcBwClr a m s)

/-- TAG_EN is set: the tag generator takes its seed from the random bit generator (R445). -/
def tagEnable (s : State) : State :=
  if s.pmc.tagEn then s
  else
    let (b, s) := drawRandom 8 s
    s.modPmc fun p => { p with tagEn := true, tagSeed := BitVec.ofNat 64 (leNat b) }

/-- PMC_TAG_ENABLE (R445). -/
def doPmcTagEnable (a : Agent) (s : State) : State := access a (pmcOff 0) tagEnable s

/-- PMC_TAG_ENABLE. -/
def execPmcTagEnable (a : Agent) (s : State) : Host.Outcome State Fault Refusal := .next (doPmcTagEnable a s)

/-- TAG_CLR empties the tag buffer (R445). -/
def tagClear (s : State) : State := s.modPmc fun p => { p with tags := [], tagFull := false }

/-- PMC_TAG_CLR (R445). -/
def doPmcTagClr (a : Agent) (s : State) : State := access a (pmcOff 0) tagClear s

/-- PMC_TAG_CLR. -/
def execPmcTagClr (a : Agent) (s : State) : Host.Outcome State Fault Refusal := .next (doPmcTagClr a s)

end Sys2Proof.Machine
end

