-- ==== Sys2Proof/Machine/Entropy.lean ====
section
/-! DEFINITION. The meanings of the entropy source's commands (chapter 13, R356 and R357). -/

namespace Sys2Proof.Machine

/-- ENT_STARTUP_DONE (R354, R356): the generator runs; a key-encryption key that an ERASE left to draw is drawn. -/
def doEntStartupDone (s : State) : State :=
  if s.ent.st == .startup || s.ent.st == .recovering then
    let s := ev 0xC801#16 4096 0 0 (s.modEnt fun e => { e with st := .running, reqs := 0 })
    if s.kvt.wipePend then drawKek 3 s else s
  else s

/-- HEALTH_TEST_FAILURE (R357): the source recovers, or fails at the third failure within 1 s. -/
def doHealthTestFailure (adaptive : Bool) (n : BitVec 32) (s : State) : State :=
  if s.ent.st == .failed then s
  else
    let now := s.tbs.tick.toNat
    let recent := now :: s.ent.recent.filter fun t => decide (now < t + 25000000)
    let failed := decide (3 ≤ recent.length)
    let s := s.modEnt fun e => { e with
      st := if failed then .failed else .recovering, fails := bvSat e.fails 1, recent := recent, reqs := 0 }
    let s := if adaptive then raise 0xC811#16 n 0#32 0#32 s else ev 0xC810#16 recent.length 0 0 s
    if failed then ev 0xC812#16 0 0 0 s else s

/-- DRBG_RESEED (R356). -/
def doDrbgReseed (s : State) : State :=
  if s.ent.st == .running then
    let n := s.ent.reqs
    raise 0xC820#16 (p32s n) 0#32 0#32 (s.modEnt fun e => { e with reseeds := bvSat e.reseeds 1, reqs := 0 })
  else s

/-- ENT_STARTUP_DONE. -/
def execEntStartupDone (s : State) : Host.Outcome State Fault Refusal := .next (doEntStartupDone s)

/-- HEALTH_TEST_FAILURE. -/
def execHealthTestFailure (adaptive : Bool) (n : BitVec 32) (s : State) : Host.Outcome State Fault Refusal :=
  .next (doHealthTestFailure adaptive n s)

/-- DRBG_RESEED. -/
def execDrbgReseed (s : State) : Host.Outcome State Fault Refusal := .next (doDrbgReseed s)

end Sys2Proof.Machine
end

