-- ==== Sys2Proof/Machine/EventRing.lean ====
section
/-! DEFINITION. The meanings of the commands of the event ring (chapter 09, R238 to R243). -/

namespace Sys2Proof.Machine

/-- The offset of an HLK register (R247). -/
def hlkOff (o : Nat) : Nat := 0x900000 + o

/-- A half of the ring's base, where EN is clear (R238). -/
def ringBaseWrite (hi : Bool) (v : BitVec 32) (s : State) : State :=
  if s.hlk.ringEn then raise 0x9013#16 (if hi then 0x14#32 else 0x10#32) v 0#32 s
  else s.modHlk fun h => { h with
    ringBase := if hi then v ++ h.ringBase.setWidth 32 else h.ringBase.extractLsb' 32 32 ++ v }

/-- EVENT_RING_BASE_WRITE (R238). -/
def doEventRingBaseWrite (a : Agent) (hi : Bool) (v : BitVec 32) (s : State) : State :=
  access a (hlkOff (if hi then 0x14 else 0x10)) (ringBaseWrite hi v) s

/-- A write of HLK_EVR_CTRL (R238). -/
def ringCtrlWrite (v : BitVec 32) (s : State) : State :=
  let k := v.toNat / 16 % 32
  let soft (h : Hlk) : Hlk := { h with ringMsix := v.getLsbD 1, holdoff := v.extractLsb' 16 8 }
  let bad := raise 0x9013#16 0x18#32 v 0#32
  if !v.getLsbD 0 then s.modHlk fun h => { soft h with ringEn := false, ringK := k }
  else if s.hlk.ringEn then
    let s := s.modHlk soft
    if k = s.hlk.ringK then s else bad s
  else if decide (k < 4) || decide (16 < k) then bad (s.modHlk soft)
  else
    let n := s.hlk.msgs.length
    let s := markQueued (s.modHlk fun h => { soft h with ringEn := true, ringK := k, head := 0, tail := 0, phase := true })
    ev 0x9010#16 k n 0 s

/-- EVENT_RING_CTRL_WRITE (R238). -/
def doEventRingCtrlWrite (a : Agent) (v : BitVec 32) (s : State) : State := access a (hlkOff 0x18) (ringCtrlWrite v) s

/-- A write of HLK_EVR_HEAD (R241): valid while EN is set, for an index of the ring that frees entries only. -/
def ringHeadWrite (v : BitVec 32) (s : State) : State :=
  let n := 2 ^ s.hlk.ringK
  let w := v.toNat % 65536
  let tail := s.hlk.tail
  if s.hlk.ringEn && decide (w < n) && decide ((tail + n - w) % n ≤ (tail + n - s.hlk.head) % n) then
    s.modHlk fun h => { h with head := w }
  else raise 0x9012#16 v (p32 tail) (p32 s.hlk.head) s

/-- EVENT_RING_HEAD_WRITE (R241). -/
def doEventRingHeadWrite (a : Agent) (v : BitVec 32) (s : State) : State := access a (hlkOff 0x1C) (ringHeadWrite v) s

/-- MSIX_HOLDOFF_EXPIRY (R243). -/
def doMsixHoldoffExpiry (s : State) : State :=
  if !s.hlk.holdoffOn then s
  else
    let owed := s.hlk.holdoffOwed && s.hlk.ringMsix
    let s := s.modHlk fun h => { h with holdoffOn := owed, holdoffOwed := false }
    if owed then sendMsix 0 0 s else s

/-- EVENT_RING_BASE_WRITE. -/
def execEventRingBaseWrite (a : Agent) (hi : Bool) (v : BitVec 32) (s : State) : Host.Outcome State Fault Refusal :=
  .next (doEventRingBaseWrite a hi v s)

/-- EVENT_RING_CTRL_WRITE. -/
def execEventRingCtrlWrite (a : Agent) (v : BitVec 32) (s : State) : Host.Outcome State Fault Refusal :=
  .next (doEventRingCtrlWrite a v s)

/-- EVENT_RING_HEAD_WRITE. -/
def execEventRingHeadWrite (a : Agent) (v : BitVec 32) (s : State) : Host.Outcome State Fault Refusal :=
  .next (doEventRingHeadWrite a v s)

/-- MESSAGE_POST (R240 to R243). -/
def execMessagePost (s : State) : Host.Outcome State Fault Refusal := .next (postOne s)

/-- MSIX_HOLDOFF_EXPIRY. -/
def execMsixHoldoffExpiry (s : State) : Host.Outcome State Fault Refusal := .next (doMsixHoldoffExpiry s)

end Sys2Proof.Machine
end

