-- ==== Sys2Proof/Machine/Federation.lean ====
section
/-! DEFINITION. The meanings of the federation's commands (chapter 14, R367 to R379): frames received, rounds, and the
carrying of frames. -/

namespace Sys2Proof.Machine

/-- The parent of a member or non-root aggregator sent this frame (R369). -/
def fromParent (s : State) (f : Bytes) : Bool :=
  s.att.role ≠ 0 && s.boot.eff.parent != s.boot.eff.member && frameSrc f == s.boot.eff.parent

/-- JOIN_HELLO received (R371 step 2): a fresh nonce, valid for AGG_MS. -/
def helloIn (f : Bytes) (s : State) : State :=
  if s.att.role ≠ 2 || !entropyOn s then s
  else
    let (n, s) := drawRandom 32 s
    let src := frameSrc f
    let now := s.tbs.tick.toNat
    sendPlain 2 src n (s.modAtt fun a => { a with
      challenge := (src, now, n) :: a.challenge.filter fun c => c.1 != src })

/-- JOIN_CHAL received (R371 step 3): JOIN_REQ with the import key, both key blocks, the endorsement and a token on the
nonce with ARG0 bits 2 and 4 (R370). -/
def chalIn (f : Bytes) (s : State) : State :=
  if !fromParent s f || !s.kvt.ident || !entropyOn s then s
  else
    let n := (framePay f).take 32
    let (t, s) := ownToken n 0x14#32 none s
    sendPlain 3 s.boot.eff.parent
      (Config.pubOf 8 (slotKey (slotAt s 4)) ++ keyBlock s 0 1 ++ keyBlock s 2 3 ++ endorsement s ++ t)
      (s.modAtt fun a => { a with nonceIn := n })

/-- The parts of a JOIN_REQ (R370): import key, DeviceID block, Alias block, endorsement, token. -/
structure ReqParts where
  /-- import public key of slot 4 -/
  imp : Bytes
  /-- DeviceID public keys -/
  dev : Bytes
  /-- Alias public keys -/
  ali : Bytes
  /-- endorsement -/
  endo : Bytes
  /-- token -/
  tok : Bytes

/-- Take a JOIN_REQ apart. -/
def reqParts (p : Bytes) : ReqParts :=
  let (e, r) := (cborItem (p.drop 5680)).getD ([], [])
  { imp := slice p 0 1568, dev := slice p 1568 2056, ali := slice p 3624 2056, endo := e,
    tok := ((cborItem r).map (·.1)).getD [] }

/-- The nonce given to a member, while it is valid (R371 step 2). -/
def nonceOf (s : State) (src : BitVec 16) : Option Bytes :=
  (s.att.challenge.find? fun c =>
    c.1 == src && decide (s.tbs.tick.toNat ≤ c.2.1 + s.boot.eff.aggMs * 25000)).map (·.2.2)

/-- The checks of a JOIN_REQ in their order (R371 step 3): 0, or the NAK's cause. -/
def joinCheck (src : BitVec 16) (r : ReqParts) (s : State) : Nat :=
  let named : Bool := match hybridOpen r.dev (ascii "KS-2416 endorsement") r.endo with
    | some m => (cborGet m 2).bind cborBstr == some (keysHash r.ali)
    | none => false
  match nonceOf s src, hybridOpen r.ali (ascii "KS-2416 evidence") r.tok with
  | some n, some c =>
    let fed (i : Nat) : Option Nat := ((cborGet c (-70014)).bind (cborNth · i)).bind cborNat
    if !named || !((cborGet c 10).bind cborBstr == some n) then 5
    else if fed 0 != some src.toNat || fed 1 != some s.boot.eff.member.toNat then 3
    else if !(((cborGet c (-70012)).bind (cborNth · 1)).bind cborBstr == some (ownerDigest s)) then 4
    else if decide (1024 ≤ (s.att.children.filter fun l => l.mem != src).length) then 2
    else 0
  | _, _ => 5

/-- A refused JOIN_REQ is answered with NAK (R371). -/
def joinNak (src : BitVec 16) (cause : Nat) (s : State) : State :=
  ev 0xD012#16 src.toNat cause 0 (sendPlain 15 src [BitVec.ofNat 8 cause] s)

/-- A link key (R371 step 4). -/
def linkKey (fms idh : Bytes) (src : BitVec 16) (epoch : BitVec 32) : Bytes :=
  kmac256 fms (leBytes 2 src.toNat ++ idh ++ leBytes 4 epoch.toNat) 32 (ascii "KS2416 IFEOSH LINK")

/-- The key under which a link key is sealed (R371 step 4). -/
def wrapKey (ss nonce : Bytes) : Bytes := kmac256 ss nonce 32 (ascii "KS2416 IFEOSH WRAP")

/-- The all-zero IV of a sealed link key. -/
def zeroIv : Bytes := List.replicate 12 0#8

/-- A child in its place, in ascending member order (R376), in place of any earlier entry (R371 step 4). -/
def putChild (l : Link) : List Link → List Link
  | [] => [l]
  | x :: t =>
    if x.mem == l.mem then l :: t
    else if decide (l.mem.toNat < x.mem.toNat) then l :: x :: t
    else x :: putChild l t

/-- A JOIN_REQ that passed (R371 step 4). -/
def joinKeyOut (src : BitVec 16) (r : ReqParts) (n : Bytes) (s : State) : State :=
  let epoch := s.att.epoch + 1
  let idh := keysHash r.dev
  let lk := linkKey (slotKey (slotAt s 6)) idh src epoch
  let (seed, s) := drawRandom 32 s
  let (ct, ss) := Config.kemEncaps r.imp seed
  let k := wrapKey ss n
  let sealed := gcmStream k zeroIv lk
  let l : Link := { mem := src, epoch := epoch, lk := lk, idh := BitVec.ofNat 384 (leNat idh),
                    aliasH := BitVec.ofNat 384 (leNat (keysHash r.ali)) }
  let s := s.modAtt fun a => { a with
    epoch := epoch, children := putChild l a.children, challenge := a.challenge.filter fun c => c.1 != src }
  let s := sendDown 4 src (ct ++ sealed ++ gcmTag k zeroIv [] sealed) s
  ev 0xD011#16 src.toNat epoch.toNat s.att.children.length s

/-- JOIN_REQ received (R371 steps 3 and 4); without the federation master secret there is no link key to give. -/
def reqIn (f : Bytes) (s : State) : State :=
  if s.att.role ≠ 2 || !entropyOn s || slotEmpty s 6 then s
  else
    let src := frameSrc f
    let r := reqParts (framePay f)
    match joinCheck src r s with
    | 0 => joinKeyOut src r ((nonceOf s src).getD []) s
    | cause => joinNak src cause s

/-- JOIN_KEY received (R371 step 5): LK is opened into slot 5, and the frame's MAC and SEQ are checked under it (R372). -/
def keyIn (f : Bytes) (s : State) : State :=
  if !fromParent s f || s.att.nonceIn.isEmpty || slotEmpty s 4 then frameDrop f 4 s
  else
    let p := framePay f
    let ct := slice p 1568 32
    let k := wrapKey (Config.kemDecaps (slotKey (slotAt s 4)) (p.take 1568)) s.att.nonceIn
    let lk := gcmStream k zeroIv ct
    if !(gcmTag k zeroIv [] ct == slice p 1600 16) || !(frameMac lk (f.take (f.length - 32)) == frameTag f) then frameDrop f 2 s
    else if frameSeq f = 0 then frameDrop f 3 s
    else
      let l : Link := { mem := frameSrc f, epoch := frameEpoch f, rxSeq := BitVec.ofNat 64 (frameSeq f), lk := lk }
      let (s, d) := beginReplace 5 1 (attrWith (devAttr 1 16 s.kvt.lcAt) 2) 16 lk false 0 none s
      let s := keyDone d s
      let s := s.modAtt fun a => { a with
        up := some l, joined := true, nonceIn := [], accepted := bvSat a.accepted 1 }
      ev 0xD010#16 (frameSrc f).toNat (frameEpoch f).toNat 0 s

/-- EVID_REQ received (R375): a member answers with its evidence, every optional claim in it (DEDUCED from the checks of
R375); an aggregator starts a round on the nonce. A nonce outside R364's lengths is a fault of format. -/
def evidReqIn (f : Bytes) (s : State) : State :=
  let p := framePay f
  let len := leAt p 4 1
  let n := slice p 8 len
  if decide (len < 32) || decide (64 < len) then frameDrop f 1 s
  else if s.att.role = 2 then askRound { nonce := n, uplink := true, upNo := BitVec.ofNat 32 (leAt p 0 4) } s
  else if !s.kvt.ident || !entropyOn s then s
  else
    let (t, s) := ownToken n allClaims none s
    sendUp 6 (p.take 4 ++ leBytes 4 0 ++ keyBlock s 2 3 ++ t) s

/-- The token of an EVID payload, without the frame's padding. -/
def evidToken (p : Bytes) : Bytes := ((cborItem (p.drop 2064)).map (·.1)).getD (p.drop 2064)

/-- EVID received (R375, R376): the first answer of a child in the running round sets its leaf. -/
def evidIn (f : Bytes) (s : State) : State :=
  let p := framePay f
  let src := frameSrc f
  match s.att.round, s.att.children.find? fun l => l.mem == src with
  | some r, some l =>
    if r.no.toNat = leAt p 0 4 && r.leaves.any fun x => x.mem == src && x.status = 3 then
      let y := judgeEvid r l (slice p 8 2056) (evidToken p) s
      let s := s.modAtt fun a => { a with
        round := some { r with leaves := r.leaves.map fun x => if x.mem == src then y else x } }
      if y.status = 0 then s else ev 0xD032#16 src.toNat y.status 0 s
    else s
  | _, _ => s

/-- The frames that carry an object (R379): its last 8,192 bytes, the rest from offset 0 upwards, then RCV_END. -/
def serveFrames (m : BitVec 16) (data : Bytes) : List (BitVec 16 × Nat × Bytes) :=
  let n := data.length - 8192
  let part (o : Nat) (b : Bytes) : BitVec 16 × Nat × Bytes := (m, 8, leBytes 4 o ++ leBytes 4 b.length ++ b)
  let body := chunks 8192 (n / 8192 + 1) (data.take n)
  part n (data.drop n) :: ((List.range body.length).zip body).map (fun e => part (8192 * e.1) e.2) ++ [(m, 9, [0#8])]

/-- The status with which a request is answered (R370, R379). -/
def serveStatus (p : Bytes) (readFault : Bool) (s : State) : Nat :=
  let o : Fin 64 := ⟨leAt p 0 1 % 64, Nat.mod_lt _ (by decide)⟩
  let x := s.ldg.objs[o]
  if decide (64 ≤ leAt p 0 1) || !x.chosen then 1
  else match x.cfg with
    | none => 1
    | some e => if e.len.toNat ≠ leAt p 4 4 then 2 else if readFault then 3 else 0

/-- RCV_REQ received (R379): `data` is what the chosen slot holds. -/
def rcvReqIn (data : Bytes) (readFault : Bool) (f : Bytes) (s : State) : State :=
  let p := framePay f
  let m := frameSrc f
  if s.att.role = 0 then s
  else
    let st := serveStatus p readFault s
    let fs := if st = 0 then serveFrames m data else [(m, 9, [BitVec.ofNat 8 st])]
    let s := ev 0xD040#16 m.toNat (leAt p 0 1) st (s.modAtt fun a => { a with serve := a.serve ++ fs })
    servePump (s.att.serve.length + 1) s

/-- A peer recovery fails (R379); the spec does not say which cause event 0xB042 then has: a free value. -/
def peerFails (s : State) : State :=
  let (v, s) := drawFree 3 s
  failNow v.toNat s

/-- RCV_DATA received (R379): the last 8,192 bytes first, then the body in order. -/
def rcvDataIn (f : Bytes) (s : State) : State :=
  match s.ldg.rcvObj with
  | none => s
  | some o =>
    if s.ldg.rcvSrc ≠ 4 || (s.ldg.rcvStage ≠ 0 && s.ldg.rcvStage ≠ 5) then s
    else
      let p := framePay f
      let off := leAt p 0 4
      let n := leAt p 4 4
      let len := ((s.ldg.objs[o].cfg.map (·.len)).getD 0#32).toNat
      if s.ldg.rcvStage = 0 then
        if off = len - 8192 && n = 8192 then
          tailArrived o 5 (slice p 8 n) (s.modAtt fun a => { a with rcvNext := some 0 })
        else peerFails s
      else
        let next := s.att.rcvNext.getD 0
        if off = next && n = min 8192 (len - 8192 - next) && n ≠ 0 then
          putBody o off (slice p 8 n) (s.modAtt fun a => { a with rcvNext := some (next + n) })
        else peerFails s

/-- RCV_END received (R379). -/
def rcvEndIn (f : Bytes) (s : State) : State :=
  match s.ldg.rcvObj with
  | none => s
  | some o =>
    if s.ldg.rcvSrc ≠ 4 || (s.ldg.rcvStage ≠ 0 && s.ldg.rcvStage ≠ 5) then s
    else
      let len := ((s.ldg.objs[o].cfg.map (·.len)).getD 0#32).toNat
      if s.ldg.rcvStage = 5 && s.att.rcvNext = some (len - 8192) && leAt (framePay f) 0 1 = 0 then
        bodyArrived o (s.modAtt fun a => { a with rcvNext := none })
      else peerFails s

/-- NAK received (R372): of cause REJOIN from the parent it triggers a HELLO, and it changes nothing else. -/
def nakIn (f : Bytes) (s : State) : State :=
  let c := leAt (framePay f) 0 1
  let s := ev 0xD012#16 (frameSrc f).toNat c 1 s
  if c = 1 && fromParent s f then sendHello s else s

/-- ROUND_DEADLINE (R375). -/
def doRoundDeadline (s : State) : State := match s.att.round with | some r => endRound r s | none => s

/-- The lowest free inbox slot. -/
def freeInbox (s : State) : Option (Fin 4) := (List.finRange 4).find? fun i => !s.att.inbox[i]

/-- INBOX_CLAIM (R367, R374): the read's reply is the slot's number, or 0xF. -/
def doInboxClaim (a : Agent) (s : State) : State :=
  access a 0xF00030 (fun s =>
    if s.att.role = 0 then emit (.readReply (leBytes 4 0xF)) s
    else match freeInbox s with
      | some i => emit (.readReply (leBytes 4 i.val)) (s.modAtt fun x => { x with inbox := x.inbox.set i true })
      | none => emit (.readReply (leBytes 4 0xF)) s) s

/-- The bytes of an inbox slot; one that was never written reads as zero (log entry 46). -/
def inboxBytes (s : State) (slot : Fin 4) (n : Nat) : Bytes :=
  (List.range n).map fun i => (assocGet s.att.inboxBuf (slot.val * 16384 + i)).getD 0#8

/-- INBOX_DOORBELL (R374): the frame of a claimed slot is checked, and the slot is free. -/
def doInboxDoorbell (a : Agent) (slot : Fin 4) (len : BitVec 15) (s : State) : State :=
  access a (0xF00040 + 4 * slot.val) (fun s =>
    if !s.att.inbox[slot] then s
    else frameArrives (inboxBytes s slot len.toNat) (s.modAtt fun x => { x with inbox := x.inbox.set slot false })) s

/-- INBOX_CLAIM_EXPIRY (R374). -/
def doInboxClaimExpiry (slot : Fin 4) (s : State) : State :=
  if !s.att.inbox[slot] then s
  else ev 0xD022#16 slot.val 0 0 (s.modAtt fun x => { x with inbox := x.inbox.set slot false })

/-- PEER_TX_TIMEOUT (R373): the frame that waits for a peer's slot uses the host ring instead. -/
def doPeerTxTimeout (s : State) : State :=
  match s.att.peerWait with
  | (d, f) :: t => txGoOn (txRing d f (s.modAtt fun a => { a with peerWait := t }))
  | [] => s

/-- PEER_INBOX_CLAIMED (R373): the frame goes into the peer's slot, and its doorbell is written; 0xF is no slot, and the
frame goes on waiting. -/
def doPeerInboxClaimed (slot : BitVec 4) (s : State) : State :=
  match s.att.peerWait with
  | (d, f) :: t =>
    if decide (4 ≤ slot.toNat) then s
    else txGoOn (chargeDma 3 true (f.length + 4) (emit (.linkFrame d f) (s.modAtt fun a => { a with peerWait := t })))
  | [] => s

/-- A write of ATT_TX_HEAD under the rule of R241 (R373); an invalid one is ignored. Event 0x9012 is the event ring's own. -/
def txHeadWrite (v : BitVec 32) (s : State) : State :=
  let n := 2 ^ s.att.txK
  let w := v.toNat % 256
  let tail := s.att.txTail
  if s.att.txEn && decide (w < n) && decide ((tail + n - w) % n ≤ (tail + n - s.att.txHead) % n) then
    txGoOn (s.modAtt fun a => { a with txHead := w })
  else s

/-- ATT_TX_HEAD_WRITE (R373). -/
def doAttTxHeadWrite (a : Agent) (v : BitVec 32) (s : State) : State := access a 0xF00024 (txHeadWrite v) s

/-- JOIN_HELLO. -/
def execJoinHello (s : State) : Host.Outcome State Fault Refusal := .next (onFrame 1 helloIn s)

/-- JOIN_CHAL. -/
def execJoinChal (s : State) : Host.Outcome State Fault Refusal := .next (onFrame 2 chalIn s)

/-- JOIN_REQ. -/
def execJoinReq (s : State) : Host.Outcome State Fault Refusal := .next (onFrame 3 reqIn s)

/-- JOIN_KEY. -/
def execJoinKey (s : State) : Host.Outcome State Fault Refusal := .next (onFrame 4 keyIn s)

/-- EVID_REQ. -/
def execEvidReq (s : State) : Host.Outcome State Fault Refusal := .next (onFrame 5 evidReqIn s)

/-- EVID. -/
def execEvid (s : State) : Host.Outcome State Fault Refusal := .next (onFrame 6 evidIn s)

/-- RCV_REQ. -/
def execRcvReq (data : Bytes) (readFault : Bool) (s : State) : Host.Outcome State Fault Refusal :=
  .next (onFrame 7 (rcvReqIn data readFault) s)

/-- RCV_DATA. -/
def execRcvData (s : State) : Host.Outcome State Fault Refusal := .next (onFrame 8 rcvDataIn s)

/-- RCV_END. -/
def execRcvEnd (s : State) : Host.Outcome State Fault Refusal := .next (onFrame 9 rcvEndIn s)

/-- NAK. -/
def execNak (s : State) : Host.Outcome State Fault Refusal := .next (onFrame 15 nakIn s)

/-- ROUND_DEADLINE. -/
def execRoundDeadline (s : State) : Host.Outcome State Fault Refusal := .next (doRoundDeadline s)

/-- INBOX_CLAIM. -/
def execInboxClaim (a : Agent) (s : State) : Host.Outcome State Fault Refusal := .next (doInboxClaim a s)

/-- INBOX_DOORBELL. -/
def execInboxDoorbell (a : Agent) (slot : Fin 4) (len : BitVec 15) (s : State) : Host.Outcome State Fault Refusal :=
  .next (doInboxDoorbell a slot len s)

/-- INBOX_CLAIM_EXPIRY. -/
def execInboxClaimExpiry (slot : Fin 4) (s : State) : Host.Outcome State Fault Refusal := .next (doInboxClaimExpiry slot s)

/-- PEER_TX_TIMEOUT. -/
def execPeerTxTimeout (s : State) : Host.Outcome State Fault Refusal := .next (doPeerTxTimeout s)

/-- ATT_TX_HEAD_WRITE. -/
def execAttTxHeadWrite (a : Agent) (v : BitVec 32) (s : State) : Host.Outcome State Fault Refusal :=
  .next (doAttTxHeadWrite a v s)

/-- PEER_INBOX_CLAIMED. -/
def execPeerInboxClaimed (slot : BitVec 4) (s : State) : Host.Outcome State Fault Refusal :=
  .next (doPeerInboxClaimed slot s)

end Sys2Proof.Machine
end

