-- ==== Sys2Proof/Machine/Flow.lean ====
section
/-! DEFINITION. The meanings of the engine's branches, loops, barriers, special registers, key loads and ends (chapters 07
and 08, R192, R193, R199, R203 to R208). -/

namespace Sys2Proof.Machine

/-- CALL: the return address zero-extended, then the jump (R199). -/
def callInstr (gd : BitVec 5) (off : BitVec 13) : Job → Engine → State → Act × State :=
  pureInstr fun x => .jump (wr gd ((x.pc + 1).setWidth 24) false x) (x.pc + 1 + off.signExtend 15)

/-- RET: cause 11 where ga is not an address in the program's range (R199, R204). -/
def retInstr (ga : BitVec 5) : Job → Engine → State → Act × State :=
  fun j x s =>
    let a := rg x ga
    if decide (a.toNat < 2 ^ 15) && inRange s j (a.setWidth 15) then (.jump x (a.setWidth 15), s) else (.trap 11 0, s)

/-- LOOP (R203). -/
def loopInstr (gd : BitVec 5) (n : BitVec 13) : Job → Engine → State → Act × State :=
  pureInstr fun x =>
    if n = 0#13 || decide (512 < n.toNat) then .trap 8 0
    else if rg x gd = 0#24 then .next x (x.pc + 1 + n.setWidth 15)
    else .seq { x with
      lc := rg x gd, lcG := rgG x gd
      la := BitVec.ofNat 24 ((n.toNat - 1) * 2 ^ 15 + (x.pc + 1).toNat), laG := false }

/-- WAITC (R205): imm8[7:3] must be zero. -/
def waitcInstr (ga : BitVec 5) (b : BitVec 8) : Job → Engine → State → Act × State :=
  fun j x s =>
    if b.toNat ≥ 8 then (.trap 8 0, s)
    else if (rg x ga).toNat ≤ (j.bar.toList.getD b.toNat 0).toNat then (.seq x, s)
    else (.block x { op := 0x2A, ga := ga, mod := b }, s)

/-- The engines of a job that wait on a barrier whose counter is now high enough go on (R205). -/
def wakeWaiters (id b : Nat) (n : BitVec 24) (s : State) : State :=
  (s.pln.engines.filter fun e => e.2.job = id && (e.2.blk.map fun k =>
      k.op = 0x2A && k.mod.toNat = b && decide ((rg e.2 k.ga).toNat ≤ n.toNat)).getD false).foldl
    (fun s e => if (eng? s e.1).isSome then unblock e.1 e.2 s else s) s

/-- SIGNAL: the counter rises, saturating (R205). -/
def signalInstr (b : BitVec 8) : Job → Engine → State → Act × State :=
  fun j x s =>
    if h : b.toNat < 8 then
      let n := bvSat j.bar[b.toNat] 1
      (.seq x, wakeWaiters j.id b.toNat n (modJob j.id (fun j => { j with bar := j.bar.set b.toNat n }) s))
    else (.trap 8 0, s)

/-- MFS: a special register with its guard bit; cause 8 for an undefined number (R192, R193). -/
def mfsInstr (gd : BitVec 5) (n : BitVec 8) : Job → Engine → State → Act × State :=
  pureInstr fun x =>
    let put (v : BitVec 24) (g : Bool) : Act := .seq (wr gd v g x)
    match n.toNat with
    | 0 => put x.mq x.mqG
    | 1 => put x.mqi x.mqG
    | 2 => put x.lc x.lcG
    | 3 => put x.la x.laG
    | 4 => put (if x.c then 1#24 else 0#24) x.cG
    | 5 => put (x.eid.setWidth 24) false
    | 6 => put (x.ew.setWidth 24) false
    | _ => .trap 8 0

/-- -m^-1 mod 2^24 for an odd m, by Newton's doubling of correct bits (R193). -/
def negInv24 (m : BitVec 24) : BitVec 24 :=
  let step (y : BitVec 24) : BitVec 24 := y * (2 - m * y)
  0#24 - step (step (step (step (step 1#24))))

/-- MTS: MQ takes an odd value from 3 to 8,388,607 and sets MQI; cause 8 for what R193 excludes. -/
def mtsInstr (n : BitVec 8) (ga : BitVec 5) : Job → Engine → State → Act × State :=
  pureInstr fun x =>
    let v := rg x ga
    let g := rgG x ga
    match n.toNat with
    | 0 =>
      if v.getLsbD 0 && decide (3 ≤ v.toNat ∧ v.toNat ≤ 8388607) then .seq { x with mq := v, mqi := negInv24 v, mqG := g }
      else .trap 8 0
    | 2 => .seq { x with lc := v, lcG := g }
    | 3 => .seq { x with la := v, laG := g }
    | 4 => .seq (setC (v.getLsbD 0) g x)
    | _ => .trap 8 0

/-- DCL: the guard bit is cleared at a ROM address, else cause 7 (R208). -/
def dclInstr (gd : BitVec 5) : Job → Engine → State → Act × State :=
  pureInstr fun x => if x.pc.toNat < 0x4000 then .seq (wr gd (rg x gd) false x) else .trap 7 0

/-- The checks of R177 in their order: the reason, 0 for none. -/
def keyReason (s : State) (j : Job) (c : Nat) (slot : Nat) (aes : Bool) : Nat :=
  let x := slotAt s slot
  let use := (progShape s j).2.2.2.1
  if decide (255 < slot) || x.ktype = 0 then 1
  else if !(attrDest x.attr).getLsbD (c / 8) then 2
  else if decide (0x400 ≤ progId j) && !(attrDest x.attr).getLsbD 12 then 3
  else if aes && !(attrDest x.attr).getLsbD 9 then 4
  else if use = 0 || !(attrUse x.attr).getLsbD (use - 1) then 5
  else if decide (s.glb.lc.toNat < attrMinLc x.attr) then 6
  else 0

/-- The key that a job's loads of a slot read: the version it first loaded, which it keeps (R265). -/
def loadKey (j : Job) (slot : Nat) (s : State) : Bytes × State :=
  match assocGet j.keyVer slot with
  | some k => (k, s)
  | none =>
    let k := slotKey (slotAt s slot)
    (k, modJob j.id (fun j => { j with keyVer := (slot, k) :: j.keyVer }) s)

/-- KEYLD.A: the whole key goes to an AES unit, claimed under R209; the unit then needs INIT (R207). One in a message is in
an invalid state (R212). -/
def keyToAes (e : Nat) (x : Engine) (j : Job) (slot : Nat) (s : State) : State :=
  match claimA e s.pln.clusters[clOf e] with
  | none => s
  | some c =>
    if c.a0.ph == .aad || c.a0.ph == .text then jobTrap e 10 0 s
    else
      let (k, s) := loadKey j slot s
      let s := setCluster (clOf e) { c with a0 := { owner := some e, key := some k, guarded := c.a0.guarded } } s
      unblock e x (pmcAdd 471 1 s)

/-- The vault answers a KEYLD: a refusal traps with cause 6 and event 0x7012, else the word or the key is loaded (R177,
R207). -/
def keyldDone (e : Nat) (s : State) : State :=
  match eng? s e with
  | none => s
  | some x => match x.blk, job? s x.job with
    | some b, some j =>
      if b.op ≠ 0x2E then s
      else
        let slot := (rg x b.ga).toNat
        let r := keyReason s j (e / 16) slot (b.mod = 1#8)
        if r ≠ 0 then jobTrap e 6 r (ev 0x7012#16 (e / 16) slot r s)
        else if b.mod = 1#8 then keyToAes e x j slot s
        else
          let (k, s) := loadKey j slot s
          let w := BitVec.ofNat 24 (leAt k (3 * (rg x b.gb).toNat) 3)
          unblock e (wr b.gd w true x) (pmcAdd 471 1 s)
    | _, _ => s

/-- A word that does not decode traps with cause 8; one that does is another command's (R195). -/
def undefinedWord (e : Fin 1024) (w : BitVec 24) (s : State) : State :=
  if wordDecodes w then s else issue e (pureInstr fun _ => .trap 8 0) s

/-- BEQ. -/
def execIBeq (e : Fin 1024) (gd ga : BitVec 5) (off : BitVec 8) (s : State) : Host.Outcome State Fault Refusal :=
  .next (issue e (branch gd ga off fun a b => a = b) s)

/-- BNE. -/
def execIBne (e : Fin 1024) (gd ga : BitVec 5) (off : BitVec 8) (s : State) : Host.Outcome State Fault Refusal :=
  .next (issue e (branch gd ga off fun a b => a ≠ b) s)

/-- BLT. -/
def execIBlt (e : Fin 1024) (gd ga : BitVec 5) (off : BitVec 8) (s : State) : Host.Outcome State Fault Refusal :=
  .next (issue e (branch gd ga off fun a b => decide (a.toNat < b.toNat)) s)

/-- BGE. -/
def execIBge (e : Fin 1024) (gd ga : BitVec 5) (off : BitVec 8) (s : State) : Host.Outcome State Fault Refusal :=
  .next (issue e (branch gd ga off fun a b => decide (b.toNat ≤ a.toNat)) s)

/-- JMP. -/
def execIJmp (e : Fin 1024) (off : BitVec 13) (s : State) : Host.Outcome State Fault Refusal :=
  .next (issue e (pureInstr fun x => .jump x (x.pc + 1 + off.signExtend 15)) s)

/-- CALL. -/
def execICall (e : Fin 1024) (gd : BitVec 5) (off : BitVec 13) (s : State) : Host.Outcome State Fault Refusal :=
  .next (issue e (callInstr gd off) s)

/-- RET. -/
def execIRet (e : Fin 1024) (ga : BitVec 5) (s : State) : Host.Outcome State Fault Refusal :=
  .next (issue e (retInstr ga) s)

/-- LOOP. -/
def execILoop (e : Fin 1024) (gd : BitVec 5) (n : BitVec 13) (s : State) : Host.Outcome State Fault Refusal :=
  .next (issue e (loopInstr gd n) s)

/-- WAITC. -/
def execIWaitc (e : Fin 1024) (ga : BitVec 5) (b : BitVec 8) (s : State) : Host.Outcome State Fault Refusal :=
  .next (issue e (waitcInstr ga b) s)

/-- SIGNAL. -/
def execISignal (e : Fin 1024) (b : BitVec 8) (s : State) : Host.Outcome State Fault Refusal :=
  .next (issue e (signalInstr b) s)

/-- MFS. -/
def execIMfs (e : Fin 1024) (gd : BitVec 5) (n : BitVec 8) (s : State) : Host.Outcome State Fault Refusal :=
  .next (issue e (mfsInstr gd n) s)

/-- MTS. -/
def execIMts (e : Fin 1024) (n : BitVec 8) (ga : BitVec 5) (s : State) : Host.Outcome State Fault Refusal :=
  .next (issue e (mtsInstr n ga) s)

/-- KEYLD. -/
def execIKeyld (e : Fin 1024) (gd ga gb : BitVec 5) (s : State) : Host.Outcome State Fault Refusal :=
  .next (issue e (pureInstr fun x => .block x { op := 0x2E, gd := gd, ga := ga, gb := gb }) s)

/-- KEYLD_A. -/
def execIKeyldA (e : Fin 1024) (ga : BitVec 5) (s : State) : Host.Outcome State Fault Refusal :=
  .next (issue e (pureInstr fun x => .block x { op := 0x2E, ga := ga, mod := 1#8 }) s)

/-- KEYLD_COMPLETE. -/
def execKeyldComplete (e : Fin 1024) (s : State) : Host.Outcome State Fault Refusal := .next (keyldDone e.val s)

/-- DCL. -/
def execIDcl (e : Fin 1024) (gd : BitVec 5) (s : State) : Host.Outcome State Fault Refusal :=
  .next (issue e (dclInstr gd) s)

/-- HALT. -/
def execIHalt (e : Fin 1024) (s : State) : Host.Outcome State Fault Refusal :=
  .next (issue e (pureInstr fun _ => .halt) s)

/-- TRAP. -/
def execITrap (e : Fin 1024) (code : BitVec 8) (s : State) : Host.Outcome State Fault Refusal :=
  .next (issue e (pureInstr fun _ => .trap 9 code.toNat) s)

/-- UNDEFINED_OPCODE. -/
def execUndefinedOpcode (e : Fin 1024) (w : BitVec 24) (s : State) : Host.Outcome State Fault Refusal :=
  .next (undefinedWord e w s)

end Sys2Proof.Machine
end

