-- ==== Sys2Proof/Machine/Fuseop.lean ====
section
/-! DEFINITION. The fuse controller's programming (chapter 04): pulses and verifying reads, the words of each command, and
the steps of a life-cycle transition (R112 to R117). -/

namespace Sys2Proof.Machine

/-- The raw target of a word: counter words carry no check bits (R105). -/
def fuseTarget (a : Nat) (d : BitVec 32) : BitVec 39 := if isCtrWord a then d.setWidth 39 else secEncode d

/-- The word reads its target at both margins. -/
def fuseIs (s : State) (x : Nat × BitVec 39) : Bool := fuseCell s.fus x.1 == (x.2, x.2)

/-- The completion word's address. -/
def compAddr (r : Nat) : Nat := regBase r + regLen r - 1

/-- A lock word's address (R98). -/
def lockAddr (read : Bool) (r : Nat) : Nat := 0xE0 + 2 * r + (if read then 1 else 0)

/-- A lock word with its target. -/
def lockWord (read : Bool) (r : Nat) : Nat × BitVec 39 := (lockAddr read r, fuseTarget (lockAddr read r) (lockPat read r))

/-- A completion word with its target (R93). -/
def compTarget (s : State) (r : Nat) : Nat × BitVec 39 :=
  (compAddr r, fuseTarget (compAddr r) (compWord r (regCrc r (regWords s.fus r))))

/-- A word of step `k` of LIFE: A, or B (R110). -/
def lifeWord (b : Bool) (k : Nat) : Nat × BitVec 39 :=
  let a := 0x60 + 2 * (k - 1) + (if b then 1 else 0)
  (a, fuseTarget a (lifePat k))

/-- A lock that is being programmed counts as blown from its first pulse (R98). -/
def lockBlown (a : Nat) (s : State) : State :=
  if 0xE0 ≤ a ∧ a < 0xF8 then
    let r := (a - 0xE0) / 2
    s.modFus fun f =>
      if a % 2 = 0 then { f with lockW := bvPut f.lockW r true } else { f with lockR := bvPut f.lockR r true }
  else s

/-- FUS_CTR follows its words (R105). -/
def ctrFollow (a : Nat) (s : State) : State :=
  if h : 0x280 ≤ a ∧ a < 0x300 then
    let c := (a - 0x280) / 2
    s.modFus fun f => { f with ctr := f.ctr.set c (ctrValue f true c) (by omega) }
  else s

/-- A pulse on the command's word begins. -/
def startPulse (p : FuseProg) (s : State) : State :=
  lockBlown p.word (emit (.fusePulse p.word) (s.modFus fun f => { f with prog := some p, busy := true }))

/-- A command ends with a result. -/
def endFuse (err : Nat) (s : State) : State :=
  s.modFus fun f => { f with prog := none, busy := false, err := BitVec.ofNat 4 err }

/-- The first of the words still to program that does not read its target yet. -/
def firstDue (s : State) (ws : List (Nat × BitVec 39)) : List (Nat × BitVec 39) := ws.dropWhile fun x => fuseIs s x

/-- The remaining locks of R112, and word B: what steps 5 and 6 program. -/
def lastWords (toLc : Nat) : List (Nat × BitVec 39) :=
  (match toLc with
    | 2 => [lockWord false 9, lockWord false 8, lockWord false 11, lockWord true 3]
    | 3 => [lockWord true 4]
    | 4 => ((List.range 12).filter (· ≠ 6)).map (lockWord false) ++ [lockWord true 3, lockWord true 4, lockWord true 5]
    | _ => []) ++ [lifeWord true toLc]

/-- What step 3 programs. -/
def firstWords (toLc : Nat) : List (Nat × BitVec 39) :=
  (if toLc = 1 then [(0x7F, fuseTarget 0x7F (compWord 2 0)), (0xFF, fuseTarget 0xFF (compWord 6 0))] else []) ++
    [lifeWord false toLc]

/-- A transition ends with step 6 (R113). -/
def trFinish (p : FuseProg) (s : State) : State :=
  ev 0x4031#16 p.toLc p.skipped 0 (endFuse s.fus.err.toNat (s.modFus fun f => { f with lcDone := true }))

/-- Steps 5 and 6, and what step 4 programs after its candidates. -/
def trTail (p : FuseProg) (ws : List (Nat × BitVec 39)) (s : State) : State :=
  match firstDue s ws with
  | [] => trFinish p s
  | (a, t) :: rest => startPulse { p with phase := 5, word := a, target := t, pulses := 1, rest := rest } s

/-- The root region of a transition's target. -/
def newRoot (toLc : Nat) : Nat := toLc + 2

/-- The candidates that need no pulse are judged, up to one that is blank, or to the end (R113 step 4, R114). -/
def candScan (f : Fus) (base : Nat) : Nat → Nat → BitVec 30 → Nat → Nat × BitVec 30 × Nat
  | 0, c, m, k => (c, m, k)
  | fuel + 1, c, m, k =>
    if decide (30 ≤ c) || popCount m = 16 then (c, m, k)
    else
      let x := fuseRead f (base + c)
      if x.blank then (c, m, k)
      else if x.ok then candScan f base fuel (c + 1) (bvPut m c true) k
      else candScan f base fuel (c + 1) m (k + 1)

/-- Step 4 stops without sixteen valid candidates (R113). -/
def trStuck (p : FuseProg) (s : State) : State :=
  ev 0x4038#16 p.toLc (popCount p.map) 0 (endFuse 8 (s.modGlb fun g => { g with lc := 7#3 }))

/-- Step 4: the candidates, then the map word, the completion word and the write-lock. -/
def trRoot (p : FuseProg) (s : State) : State :=
  let r := newRoot p.toLc
  let base := regBase r
  let tail := [compTarget s r, lockWord false r] ++ lastWords p.toLc
  if !(fuseRead s.fus (base + 30)).blank then trTail p tail s
  else
    let (c, m, k) := candScan s.fus base 31 p.cand p.map p.skipped
    let p := { p with cand := c, map := m, skipped := k }
    if popCount m = 16 then trTail p ((base + 30, fuseTarget (base + 30) (m.setWidth 32)) :: tail) s
    else if 30 ≤ c then trStuck p s
    else
      let (b, s) := drawRandom 4 s
      let t := fuseTarget (base + c) (BitVec.ofNat 32 (leNat b))
      startPulse { p with phase := 4, word := base + c, target := t, pulses := 1, rest := [] } s

/-- Step 3, and what follows it. -/
def trHead (p : FuseProg) (ws : List (Nat × BitVec 39)) (s : State) : State :=
  match firstDue s ws with
  | [] => if p.toLc = 4 then trTail p (lastWords 4) s else trRoot p s
  | (a, t) :: rest => startPulse { p with phase := 3, word := a, target := t, pulses := 1, rest := rest } s

/-- A command's last word has been programmed: its event. -/
def fuseDone (p : FuseProg) (s : State) : State :=
  let s := endFuse 0 s
  if p.op = 6 then ev 0x4037#16 p.arg 0 0 s
  else if p.op = 7 then ev 0x4034#16 p.arg p.old (s.fus.ctr.toList.getD p.arg 0).toNat s
  else if p.op = 8 then ev 0x4035#16 p.arg 0 0 s
  else if p.op = 9 then ev 0x4036#16 p.arg 0 0 s
  else s

/-- The next word of an ordinary command, or its end. -/
def fuseNext (p : FuseProg) (ws : List (Nat × BitVec 39)) (s : State) : State :=
  match firstDue s ws with
  | [] => fuseDone p s
  | (a, t) :: rest => startPulse { p with word := a, target := t, pulses := 1, rest := rest } s

/-- An accepted command begins to program; the promise's condition of no fuse programming is no longer met (R113, R156). -/
def beginProg (p : FuseProg) (ws : List (Nat × BitVec 39)) (s : State) : State :=
  fuseNext p ws (promiseFuse (s.modFus fun f => { f with err := 0#4 }))

/-- A transition goes on after a word that is done or has failed (R113). -/
def trAfter (p : FuseProg) (ok : Bool) (s : State) : State :=
  if p.phase = 3 then trHead p p.rest s
  else if p.phase = 4 then
    trRoot { p with cand := p.cand + 1, map := if ok then bvPut p.map p.cand true else p.map,
                    skipped := if ok then p.skipped else p.skipped + 1 } s
  else trTail p p.rest s

/-- A program pulse ends: `tight` and `loose` are what the verifying read senses (R117). Under a waiting reset nothing
follows the pulse (R77). -/
def pulseDone (tight loose : BitVec 39) (s : State) : State :=
  match s.fus.prog with
  | none => s
  | some p =>
    let s := ctrFollow p.word (s.modFus (fuseSet p.word tight loose))
    let s := pmcAdd 476 1 s
    if s.rst.ph = .waitingCold || s.rst.ph = .waitingWarm then s.modFus fun f => { f with prog := none, busy := false }
    else if tight = p.target && loose = p.target then
      let s := ev 0x4020#16 p.word p.pulses 0 s
      let p := { p with done := p.done + 1 }
      if p.op = 10 then trAfter p true s else fuseNext p p.rest s
    else if p.pulses < 3 then startPulse { p with pulses := p.pulses + 1 } s
    else
      let s := ev 0x4022#16 p.word 0 0 (s.modFus fun f => { f with err := 8#4 })
      if p.op = 10 then trAfter p false s else endFuse 8 s

/-- Program a word at once, in a resume, where its pulse takes (R114, log entry 30); counts those programmed. -/
def resumeWord (x : Nat × BitVec 39) (acc : Nat × State) : Nat × State :=
  if fuseIs acc.2 x then acc
  else
    let s := lockBlown x.1 (emit (.fusePulse x.1) acc.2)
    (acc.1 + 1, ev 0x4020#16 x.1 1 0 (s.modFus (fuseSet x.1 x.2 x.2)))

/-- The candidates of a resume: valid ones are kept, unreadable ones skipped, blank ones programmed (R114). -/
def resumeCands (base : Nat) (acc : BitVec 30 × Nat × State) : BitVec 30 × Nat × State :=
  (List.range 30).foldl (fun (acc : BitVec 30 × Nat × State) c =>
    let (m, n, s) := acc
    if popCount m = 16 then acc
    else
      let x := fuseRead s.fus (base + c)
      if x.ok then (bvPut m c true, n, s)
      else if x.blank then
        let (b, s) := drawRandom 4 s
        let (n, s) := resumeWord (base + c, fuseTarget (base + c) (BitVec.ofNat 32 (leNat b))) (n, s)
        (bvPut m c true, n, s)
      else acc) acc

/-- What is left of steps 3 to 6 of a transition, at a cold start (R114): whether it completed. -/
def resumeTransition (toLc : Nat) (s : State) : Bool × State :=
  let (n, s) := (firstWords toLc).foldl (fun acc x => resumeWord x acc) (0, s)
  let fin (ws : List (Nat × BitVec 39)) (n : Nat) (s : State) : Bool × State :=
    let (n, s) := ws.foldl (fun acc x => resumeWord x acc) (n, s)
    (true, ev 0x4032#16 toLc n 0 s)
  if toLc = 4 then fin (lastWords 4) n s
  else
    let r := newRoot toLc
    let base := regBase r
    let tail := [compTarget s r, lockWord false r] ++ lastWords toLc
    if !(fuseRead s.fus (base + 30)).blank then fin tail n s
    else
      let (m, n, s) := resumeCands base (0#30, n, s)
      if popCount m = 16 then fin ((base + 30, fuseTarget (base + 30) (m.setWidth 32)) :: tail) n s
      else (false, ev 0x4038#16 toLc (popCount m) 0 (s.modFus fun f => { f with err := 8#4 }))

end Sys2Proof.Machine
end

