-- ==== Sys2Proof/Machine/Fuses.lean ====
section
/-! DEFINITION. The meanings of the fuse controller's commands (chapter 04). -/

namespace Sys2Proof.Machine

/-- The offset of FUS_CMD. -/
def fusOff : Nat := 0x400004

/-- A command is refused (R118): ERR and event 0x4021. -/
def fusRefuse (op err : Nat) (s : State) : State :=
  ev 0x4021#16 op err 0 (s.modFus fun f => { f with err := BitVec.ofNat 4 err })

/-- A command of FUS_CMD (R116): its key, and no other command in progress. -/
def fusCmd (a : Agent) (key : BitVec 16) (op : Nat) (f : State → State) (s : State) : State :=
  access a fusOff (fun s =>
    if key ≠ 0x9B3D#16 then fusRefuse op 10 s
    else if s.fus.busy then fusRefuse op 5 s
    else f s) s

/-- The conditions of every programming command (R116): 0, or the ERR of the first that fails. -/
def fusReady (s : State) : Nat :=
  if fusLc s != some 1 then 1
  else if !s.pwr.vinPresent || !s.pwr.holdRdy then 9
  else if decide (s.pwr.tj < 0) || decide (100 < s.pwr.tj) then 11
  else 0

/-- A programming command: `plan` answers an ERR, or the command with its words. -/
def fusProg (a : Agent) (key : BitVec 16) (op : Nat) (plan : State → Except Nat (FuseProg × List (Nat × BitVec 39)))
    (s : State) : State :=
  fusCmd a key op (fun s =>
    match fusReady s with
    | 0 => match plan s with
      | .error e => fusRefuse op e s
      | .ok (p, ws) => beginProg p ws s
    | e => fusRefuse op e s) s

/-- A failure that an on-demand read finds in a region that passed at its load (R96): the lowest reason of R95, 0 for none. -/
def readReason (s : State) (a : Nat) (x : FuseRead) : Nat :=
  let r := regOf a
  let i := a - regBase r
  if !regPass s r then 0
  else if x.marginal && regUses r i (regWords s.fus r) then 2
  else if x.uncorr && regUses r i (regWords s.fus r) then 3
  else if regReserved r i && !x.blank then 4
  else 0

/-- READ (R91, R92, R96, R100). -/
def fusReadWord (s : State) : State :=
  let a := s.fus.addr.toNat
  let r := regOf a
  if 0x580 ≤ a then fusRefuse 1 4 s
  else if regRoot r || s.fus.lockR.getLsbD r then
    s.modFus fun f => { f with data := 0#32, result := 0x10#5, err := 0#4 }
  else
    let x := fuseRead s.fus a
    let s := logRead a x (pmcAdd 476 1 s)
    let flags : BitVec 5 := bit x.marginal 0 ||| bit x.corrected 1 ||| bit x.uncorr 2 ||| bit x.blank 3
    let s := s.modFus fun f => { f with
      data := if x.marginal || x.uncorr then 0#32 else x.data, result := flags, err := 0#4 }
    match readReason s a x with
    | 0 => s
    | n => fuseAlarms 1 (ev 0x4013#16 r n 0 (s.modFus fun f => { f with failed := bvPut f.failed r true }))

/-- FUS_READ. -/
def execFusRead (a : Agent) (key : BitVec 16) (s : State) : Host.Outcome State Fault Refusal :=
  .next (fusCmd a key 1 fusReadWord s)

/-- PROGRAM may write this word (R116): of TRIM, ID, OWN's hashes, OPT and CEIL, neither reserved nor a completion word. -/
def progWord (r i : Nat) : Bool :=
  match r with
  | 0 => decide (i < 63)
  | 1 => decide (i < 7)
  | 7 => decide (i % 16 < 12)
  | 8 => i = 0
  | 9 => decide (i < 15)
  | _ => false

/-- PROGRAM (R90, R93, R98, R116). -/
def planProgram (s : State) : Except Nat (FuseProg × List (Nat × BitVec 39)) :=
  let a := s.fus.addr.toNat
  let r := regOf a
  if !progWord r (a - regBase r) then .error 4
  else if s.fus.lockW.getLsbD r then .error 3
  else if !(fuseRead s.fus (compAddr r)).blank then .error 4
  else if !(fuseRead s.fus a).blank then .error 2
  else .ok ({ op := 2 }, [(a, fuseTarget a s.fus.data)])

/-- FUS_PROGRAM. -/
def execFusProgram (a : Agent) (key : BitVec 16) (s : State) : Host.Outcome State Fault Refusal :=
  .next (fusProg a key 2 planProgram s)

/-- COMPLETE (R93, R98). -/
def planComplete (region : Fin 16) (s : State) : Except Nat (FuseProg × List (Nat × BitVec 39)) :=
  let r := region.val
  if !(r ∈ [0, 1, 7, 8, 9, 10, 11]) then .error 4
  else if s.fus.lockW.getLsbD r then .error 3
  else if !(fuseRead s.fus (compAddr r)).blank then .error 4
  else .ok ({ op := 3, arg := r }, [compTarget s r])

/-- COMPLETE. -/
def execComplete (a : Agent) (key : BitVec 16) (region : Fin 16) (s : State) : Host.Outcome State Fault Refusal :=
  .next (fusProg a key 3 (planComplete region) s)

/-- The lock commands (R98 to R100). -/
def planLock (op : Nat) (region : Fin 16) (s : State) : Except Nat (FuseProg × List (Nat × BitVec 39)) :=
  let r := region.val
  let read := op = 5
  if 12 ≤ r || r = 6 || (read && (r = 2 || regRoot r)) then .error 4
  else if op = 4 && (fuseRead s.fus (compAddr r)).blank then .error 6
  else if !(fuseRead s.fus (lockAddr read r)).blank then .error 2
  else .ok ({ op := op, arg := r }, [lockWord read r])

/-- LOCK_WRITE. -/
def execLockWrite (a : Agent) (key : BitVec 16) (region : Fin 16) (s : State) : Host.Outcome State Fault Refusal :=
  .next (fusProg a key 4 (planLock 4 region) s)

/-- LOCK_READ. -/
def execLockRead (a : Agent) (key : BitVec 16) (region : Fin 16) (s : State) : Host.Outcome State Fault Refusal :=
  .next (fusProg a key 5 (planLock 5 region) s)

/-- FORCE_LOCK_WRITE. -/
def execForceLockWrite (a : Agent) (key : BitVec 16) (region : Fin 16) (s : State) : Host.Outcome State Fault Refusal :=
  .next (fusProg a key 6 (planLock 6 region) s)

/-- CTR reads well but for its completion word: counters advance while the owner still writes the region (R97, R462). -/
def ctrSound (s : State) : Bool :=
  let w := regWords s.fus 10
  ((regReasons false 10 w).filter fun n => n ≠ 1 || !(w.getD 255 {}).blank).isEmpty

/-- CTR_ADVANCE (R97, R98, R106): the missing bits, low word first. -/
def planCtr (index : BitVec 8) (s : State) : Except Nat (FuseProg × List (Nat × BitVec 39)) :=
  let c := index.toNat
  let old := (s.fus.ctr.toList.getD c 0).toNat
  let new := s.fus.data.toNat % 128
  if s.fus.lockW.getLsbD 10 then .error 3
  else if 64 ≤ c || !ctrSound s || new = 0 || 64 < new || new ≤ old then .error 12
  else
    let v := 2 ^ new - 1
    let ws := [(0x280 + 2 * c, BitVec.ofNat 39 (v % 2 ^ 32)), (0x281 + 2 * c, BitVec.ofNat 39 (v / 2 ^ 32))]
    .ok ({ op := 7, arg := c, old := old }, ws.filter fun x => x.2 ≠ 0#39)

/-- CTR_ADVANCE. -/
def execCtrAdvance (a : Agent) (key : BitVec 16) (index : BitVec 8) (s : State) : Host.Outcome State Fault Refusal :=
  .next (fusProg a key 7 (planCtr index) s)

/-- The owner slots usable as the array reads now (R97, R109). -/
def usableOwners (s : State) : List Nat :=
  if (regReasons false 7 (regWords s.fus 7)).isEmpty then (List.range 4).filter fun k => ownUsableNow s.fus k else []

/-- OWN_REVOKE (R98, R109). -/
def planRevoke (index : BitVec 8) (s : State) : Except Nat (FuseProg × List (Nat × BitVec 39)) :=
  let k := index.toNat
  let us := usableOwners s
  if s.fus.lockW.getLsbD 7 then .error 3
  else if !(k ∈ us) || us.length < 2 then .error 12
  else .ok ({ op := 8, arg := k }, [(0x10C + 16 * k, fuseTarget (0x10C + 16 * k) 0x5245564B#32)])

/-- OWN_REVOKE. -/
def execOwnRevoke (a : Agent) (key : BitVec 16) (index : BitVec 8) (s : State) : Host.Outcome State Fault Refusal :=
  .next (fusProg a key 8 (planRevoke index) s)

/-- A patch package's signatures verify against the Horior patch keys (R104); the package's own layout is not in the spec,
so what is signed is the package as a whole. -/
def pkgOk (b : Bytes) : Bool := Config.sigVerify 0 Config.patchKeys.1 [] b [] && Config.sigVerify 1 Config.patchKeys.2 [] b []

/-- The patch entries whose words both read blank, lowest index first (R104). -/
def blankEntries (s : State) : List Nat :=
  (List.range 128).filter fun e => (fuseRead s.fus (0x380 + 2 * e)).blank && (fuseRead s.fus (0x381 + 2 * e)).blank

/-- PATCH_LOAD (R98, R104). -/
def planPatch (pkg : PatchPkg) (s : State) : Except Nat (FuseProg × List (Nat × BitVec 39)) :=
  let es := blankEntries s
  if s.fus.lockW.getLsbD 11 then .error 3
  else if !(fuseRead s.fus (compAddr 11)).blank then .error 4
  else if !pkgOk pkg.bytes || es.length < pkg.entries.length then .error 13
  else .ok ({ op := 9, arg := pkg.entries.length }, (es.zip pkg.entries).flatMap fun x =>
    [(0x380 + 2 * x.1, fuseTarget (0x380 + 2 * x.1) x.2.1), (0x381 + 2 * x.1, fuseTarget (0x381 + 2 * x.1) x.2.2)])

/-- PATCH_LOAD. -/
def execPatchLoad (a : Agent) (key : BitVec 16) (pkg : PatchPkg) (s : State) : Host.Outcome State Fault Refusal :=
  .next (fusProg a key 9 (planPatch pkg) s)

/-- The transitions that exist (R112). -/
def trAllowed (f t : Nat) : Bool := (f, t) ∈ [(0, 1), (1, 2), (2, 3), (1, 4), (2, 4), (3, 4)]

/-- The further conditions of MANUFACTURE to SERVICE (R112). -/
def serviceReady (s : State) : Bool :=
  ((List.range 12).all fun r => r = 4 || r = 5 || (regReasons true r (regWords s.fus r)).isEmpty) &&
    ([7, 8, 9, 10, 11].all fun r => !(fuseRead s.fus (compAddr r)).blank) &&
    !(fuseRead s.fus (lockAddr false 0)).blank && !(fuseRead s.fus (lockAddr false 1)).blank && !(usableOwners s).isEmpty

/-- The conditions of a transition before its authorisation (R112): 0, or the ERR of the first that fails. -/
def trReady (lc t : Nat) (s : State) : Nat :=
  if !trAllowed lc t then 11
  else if !s.pwr.vinPresent || !s.pwr.holdRdy then 9
  else if decide (s.pwr.tj < 0) || decide (100 < s.pwr.tj) then 11
  else if !(allDoms.all fun d => s.prs.dom[d].st == .held) then 11
  else if !((List.finRange 16).all fun c => s.sdl.ch[c].mode == .sealed) then 11
  else if lc = 1 && t = 2 && !serviceReady s then 11
  else 0

/-- The authorisation of an owner-signed transition (R112, R348): whether it verifies; the counter advances with it. -/
def trAuth (t : Nat) (msg : Bytes) (s : State) : Bool × State :=
  match kumCheck [4] msg s with
  | 0 =>
    if leAt (kumPayload msg) 0 1 = t then (true, kumAccept msg (kumOwner msg s) s) else (false, kumRefuse msg 7 s)
  | c => (false, kumRefuse msg c s)

/-- TRANSITION (R112, R113): it starts on a command of PF0 host software. -/
def transitionCmd (a : Agent) (target : BitVec 8) (msg : Bytes) (s : State) : State :=
  let t := target.toNat
  match a, fusLc s with
  | .pf0, some lc =>
    match trReady lc t s with
    | 0 =>
      let (ok, s) := if lc = 2 then trAuth t msg s else (true, s)
      if !ok then fusRefuse 10 13 s
      else
        let s := promiseFuse (zeroVault (ev 0x4030#16 lc t 0 (s.modFus fun f => { f with err := 0#4 })))
        trHead { op := 10, toLc := t, phase := 3 } (firstWords t) s
    | e => fusRefuse 10 e s
  | _, _ => fusRefuse 10 11 s

/-- TRANSITION. -/
def execTransition (a : Agent) (key : BitVec 16) (target : BitVec 8) (msg : Bytes) (s : State) :
    Host.Outcome State Fault Refusal := .next (fusCmd a key 10 (transitionCmd a target msg) s)

/-- FUSE_PULSE_DONE (R117). -/
def execFusePulseDone (tight loose : BitVec 39) (s : State) : Host.Outcome State Fault Refusal :=
  .next (pulseDone tight loose s)

end Sys2Proof.Machine
end

