-- ==== Sys2Proof/Machine/Queues.lean ====
section
/-! DEFINITION. The meanings of the commands of the queue pairs (chapter 10): set-up, doorbells, fetching and admission,
timers and aborts. -/

namespace Sys2Proof.Machine

/-- A function's JOB registers: PF0 and the management program reach every block in the JOB window, a virtual function its
own in its BAR0 (R273, R233). -/
def jobAccess (a : Agent) (f : Fin 16) (off : Nat) (k : State → State) (s : State) : State :=
  match a with
  | .vf n => if n = f && n ≠ 0 then accessBar n 0 (0xA0000 + off) k s else s
  | _ => access a (0x810000 + 0x2000 * f.val + off) k s

/-- The offset of a queue register in the function block (R273). -/
def qOff (q : Fin 64) (o : Nat) : Nat := 0x1000 + 0x20 * q.val + o

/-- The jobs of a queue pair in flight. -/
def qJobs (s : State) (f : Fin 16) (q : Fin 64) : List Job := s.job.jobs.filter fun j => j.fn = f && j.q = q

/-- A set-up write is ignored and logged (R249, R273). -/
def setupIgnored (f : Fin 16) (off : Nat) (v : BitVec 32) (s : State) : State :=
  raise 0x8011#16 (p32 f.val) (p32 off) v s

/-- The vectors of a function's queues: 1 to 64 for PF0, 0 to 63 for a VF (R243, R249). -/
def vectorOk (f : Fin 16) (v : Nat) : Bool := if f = 0 then decide (1 ≤ v ∧ v ≤ 64) else decide (v ≤ 63)

/-- ABORT (R264): running jobs stop at their next slice points, jobs that have not started are dropped; both end with
ABORTED. -/
def abortQueue (f : Fin 16) (q : Fin 64) (s : State) : State :=
  let js := qJobs s f q
  let run := js.filter fun j => j.ph == .running
  let wait := js.filter fun j => j.ph == .fetched || j.ph == .waiting
  let s := ev 0x8022#16 f.val q.val (run.length + wait.length) s
  let s := run.foldl (fun s j => modJob j.id (fun j => { j with ph := .stopping, status := 0x33#8, result := 0#32 }) s) s
  endIdle (wait.foldl (fun s j => finishJob j.id 0x33 0#32 s) s)

/-- A write of JOB_Q_CTRL (R249, R264). -/
def qCtrlWrite (f : Fin 16) (q : Fin 64) (v : BitVec 32) (s : State) : State :=
  let s := if v.getLsbD 1 then abortQueue f q s else s
  let x := queue s f.val q.val
  let k := fld v 4 4
  let vec := fld v 8 7
  let busy := !(qJobs s f q).isEmpty
  let same := x.k = k && x.vector.toNat = vec && x.msix = v.getLsbD 15
  let put (x : Queue) : Queue := { x with k := k, vector := BitVec.ofNat 7 vec, msix := v.getLsbD 15 }
  if x.en then
    let s := if same then s else setupIgnored f (qOff q 0x10) v s
    if v.getLsbD 0 then s
    else ev 0x8002#16 f.val q.val (qJobs s f q).length (modQueue f.val q.val (fun x => { x with en := false }) s)
  else if v.getLsbD 0 then
    if busy || decide (k < 4) || decide (12 < k) || !vectorOk f vec then
      setupIgnored f (qOff q 0x10) v (if busy then s else modQueue f.val q.val put s)
    else
      ev 0x8001#16 f.val q.val k (modQueue f.val q.val (fun x => { put x with
        en := true, error := false, sqHead := 0, sqTail := 0, cqTail := 0, cqHead := 0, phase := true, unsignalled := 0 }) s)
  else if busy then (if same then s else setupIgnored f (qOff q 0x10) v s)
  else modQueue f.val q.val put s

/-- QUEUE_ENABLE (R249). -/
def doQueueEnable (a : Agent) (f : Fin 16) (q : Fin 64) (v : BitVec 32) (s : State) : State :=
  jobAccess a f (qOff q 0x10) (qCtrlWrite f q (v ||| 1#32)) s

/-- The fields of JOB_Q_CTRL as they stand, with the bits given. -/
def qCtrlWord (s : State) (f : Fin 16) (q : Fin 64) (bits : Nat) : BitVec 32 :=
  let x := queue s f.val q.val
  p32 (bits + x.k * 16 + x.vector.toNat * 256 + (if x.msix then 32768 else 0))

/-- QUEUE_DISABLE: fetching stops, the jobs in flight run on (R264). -/
def doQueueDisable (a : Agent) (f : Fin 16) (q : Fin 64) (s : State) : State :=
  jobAccess a f (qOff q 0x10) (fun s => qCtrlWrite f q (qCtrlWord s f q 0) s) s

/-- QUEUE_ABORT (R264). -/
def doQueueAbort (a : Agent) (f : Fin 16) (q : Fin 64) (s : State) : State :=
  jobAccess a f (qOff q 0x10) (fun s =>
    qCtrlWrite f q (qCtrlWord s f q (2 + if (queue s f.val q.val).en then 1 else 0)) s) s

/-- A doorbell page of a function: BAR4 of PF0, BAR0 of a virtual function (R232, R233). -/
def doorbell (f : Fin 16) (q : Fin 64) (o : Nat) (k : State → State) (s : State) : State :=
  accessBar f (if f = 0 then 4 else 0) (4096 * q.val + o) (fun s => k (pmcAdd 398 1 s)) s

/-- A doorbell write that is ignored (R250). -/
def doorbellIgnored (f : Fin 16) (q : Fin 64) (cq : Nat) (v : BitVec 32) (s : State) : State :=
  raise 0x8010#16 (p32 f.val) (p32 (q.val * 2 + cq)) v s

/-- `a - b` modulo 2^k. -/
def ringSub (k a b : Nat) : Nat := (a + 2 ^ k - b % 2 ^ k) % 2 ^ k

/-- SQ_TAIL_DOORBELL (R250). -/
def doSqTailDoorbell (f : Fin 16) (q : Fin 64) (v : BitVec 32) (s : State) : State :=
  doorbell f q 0 (fun s =>
    let x := queue s f.val q.val
    if x.en && !x.error && decide (v.toNat < 2 ^ x.k) && decide (ringSub x.k x.sqTail x.sqHead ≤ ringSub x.k v.toNat x.sqHead)
    then modQueue f.val q.val (fun x => { x with sqTail := v.toNat }) s
    else doorbellIgnored f q 0 v s) s

/-- CQ_HEAD_DOORBELL (R250, R241). -/
def doCqHeadDoorbell (f : Fin 16) (q : Fin 64) (v : BitVec 32) (s : State) : State :=
  doorbell f q 4 (fun s =>
    let x := queue s f.val q.val
    if x.en && !x.error && decide (v.toNat < 2 ^ x.k) && decide (ringSub x.k x.cqTail v.toNat ≤ ringSub x.k x.cqTail x.cqHead)
    then modQueue f.val q.val (fun x => { x with cqHead := v.toNat }) s
    else doorbellIgnored f q 1 v s) s

/-- The jobs of a function in flight. -/
def fnJobs (s : State) (f : Fin 16) : Nat := (s.job.jobs.filter fun j => j.fn = f).length

/-- A pending descriptor of the queue pair may be read (R159, R251, R258); `fence` is its FENCE. -/
def mayAdmit (s : State) (f : Fin 16) (q : Fin 64) (fence : Bool) : Bool :=
  let x := queue s f.val q.val
  let js := qJobs s f q
  x.en && !x.error && x.sqHead ≠ x.sqTail && s.hlk.fns[f].bme && !s.hlk.fns[f].d3 && s.wsh.started &&
    decide (fnJobs s f < s.job.quotas[f]) && decide (s.job.jobs.length < 16384) &&
    decide (js.length + ringSub x.k x.cqTail x.cqHead < 2 ^ x.k - 1) &&
    !(js.any fun j => j.d.flags.getLsbD 2) && (!fence || js.isEmpty) && !exhausted s (8 + f.val) 2

/-- The lowest byte offset among fields that break their rule (R252, R271). -/
def firstOff (l : List (Nat × Bool)) : Option Nat := (l.find? fun p => !p.2).map (·.1)

/-- Check 1 of R252 for what every descriptor obeys (R253), in the order of offsets; `op` adds an operation's own rules on
its lengths and arguments. -/
def descBad (d : Desc) (srcLen dstLen auxLen arg0 arg1 arg2 : Bool) : Option Nat :=
  let slot (v : BitVec 16) : Bool := decide (v.toNat ≤ 255) || v = 0xFFFF#16
  firstOff [(1, decide (d.flags.toNat < 16)), (2, decide (d.progId.toNat < 4096)), (4, slot d.keySlot), (6, slot d.dstSlot),
    (8, d.srcLen ≠ 0#32 || d.src = 0#64), (16, srcLen), (20, dstLen), (24, d.dstLen ≠ 0#32 || d.dst = 0#64),
    (32, d.auxLen ≠ 0#32 || d.aux = 0#64), (40, decide (d.auxLen.toNat ≤ 65536) && auxLen), (44, arg0), (48, arg1),
    (52, arg2), (60, d.zero = 0#32)]

/-- Admit one descriptor (R251): the credit is taken, the entry freed, and the copy of the program it names is settled
(R219). One whose OP is undefined ends at once (R252). -/
def admitDesc (f : Fin 16) (q : Fin 64) (d : Desc) (s : State) : State :=
  let x := queue s f.val q.val
  let id := s.job.nextId
  let base := ((s.pln.progs.find? fun p => p.id = d.progId.toNat % 4096 && !p.draining).map (·.base)).getD 0
  let j : Job := { id := id, fn := f, q := q, d := d, prog := base }
  let s := modQueue f.val q.val (fun y => { y with sqHead := (x.sqHead + 1) % 2 ^ x.k }) s
  let s := s.modJob fun b => { b with jobs := b.jobs ++ [j], nextId := id + 1 }
  let s := s.modWsh fun w => { w with inFlight := s.job.jobs.length }
  let s := pmcAdd (352 + f.val) 1 s
  if decide (1 ≤ d.op.toNat ∧ d.op.toNat ≤ 0x0C) then s
  else match descBad d true true true true true true with
    | some o => finishJob id 0x11 (p32 o) s
    | none => finishJob id 0x10 0#32 s

/-- Admit descriptors while each may be; how many were. -/
def admitAll (f : Fin 16) (q : Fin 64) : List Desc → State → Option State
  | [], s => some s
  | d :: t, s => if mayAdmit s f q (d.flags.getLsbD 2) then admitAll f q t (admitDesc f q d s) else none

/-- DESCRIPTOR_FETCH: one read, of up to eight descriptors that all meet the conditions, of one in LATENCY (R251). A waiting
quota takes effect first (R272). -/
def doDescriptorFetch (f : Fin 16) (q : Fin 64) (ds : List Desc) (s : State) : State :=
  if lowRung s || !servedBars s then s
  else
    let s := applyQuota f.val (leaveIdle s)
    if ds.length > (if s.pwr.profileEff == 1#2 then 1 else 8) then s
    else match admitAll f q ds s with
      | some t => chargeDma (8 + f.val) false (64 * ds.length) t
      | none => s

/-- DESCRIPTOR_READ_FAILURE: the queue pair is in ERROR (R274). -/
def doDescriptorReadFailure (f : Fin 16) (q : Fin 64) (s : State) : State :=
  let x := queue s f.val q.val
  if mayAdmit s f q false then
    ev 0x8012#16 f.val q.val x.sqHead (modQueue f.val q.val (fun x => { x with error := true }) s)
  else s

/-- COALESCING_TIMER (R261). -/
def doCoalescingTimer (f : Fin 16) (q : Fin 64) (s : State) : State :=
  let x := queue s f.val q.val
  if x.msix && x.unsignalled ≠ 0 && x.coalUs ≠ 0#16 then signalQueue f q.val s else s

/-- JOB_TIMEOUT: the job stops at the next slice point of each engine (R263). -/
def doJobTimeout (id : Nat) (s : State) : State :=
  match job? s id with
  | none => s
  | some j =>
    if j.ph != .running then s
    else
      let lim := s.job.limits[j.fn]
      endIdle <| ev 0x8021#16 (j.fn.val * 64 + j.q.val) j.d.tag.toNat lim.toNat
        (modJob id (fun j => { j with ph := .stopping, status := 0x32#8, result := lim.setWidth 32 }) s)

/-- DMA_ERROR: a read of host memory for a job fails: 1 its source, 2 its destination list, 3 its AUX (R271). -/
def doDmaError (id : Nat) (which : BitVec 2) (s : State) : State :=
  match job? s id with
  | none => s
  | some j =>
    if which = 0#2 || !(j.ph == .waiting || j.ph == .running) then s else finishJob id 0x15 (which.setWidth 32) s

/-- QUEUE_ENABLE. -/
def execQueueEnable (a : Agent) (f : Fin 16) (q : Fin 64) (v : BitVec 32)
    (s : State) : Host.Outcome State Fault Refusal :=
  .next (doQueueEnable a f q v s)

/-- QUEUE_DISABLE. -/
def execQueueDisable (a : Agent) (f : Fin 16) (q : Fin 64) (s : State) : Host.Outcome State Fault Refusal :=
  .next (doQueueDisable a f q s)

/-- QUEUE_ABORT. -/
def execQueueAbort (a : Agent) (f : Fin 16) (q : Fin 64) (s : State) : Host.Outcome State Fault Refusal :=
  .next (doQueueAbort a f q s)

/-- SQ_TAIL_DOORBELL. -/
def execSqTailDoorbell (f : Fin 16) (q : Fin 64) (v : BitVec 32) (s : State) : Host.Outcome State Fault Refusal :=
  .next (doSqTailDoorbell f q v s)

/-- CQ_HEAD_DOORBELL. -/
def execCqHeadDoorbell (f : Fin 16) (q : Fin 64) (v : BitVec 32) (s : State) : Host.Outcome State Fault Refusal :=
  .next (doCqHeadDoorbell f q v s)

/-- DESCRIPTOR_FETCH. -/
def execDescriptorFetch (f : Fin 16) (q : Fin 64) (ds : List Desc) (s : State) : Host.Outcome State Fault Refusal :=
  .next (doDescriptorFetch f q ds s)

/-- DESCRIPTOR_READ_FAILURE. -/
def execDescriptorReadFailure (f : Fin 16) (q : Fin 64) (s : State) : Host.Outcome State Fault Refusal :=
  .next (doDescriptorReadFailure f q s)

/-- COALESCING_TIMER. -/
def execCoalescingTimer (f : Fin 16) (q : Fin 64) (s : State) : Host.Outcome State Fault Refusal :=
  .next (doCoalescingTimer f q s)

/-- JOB_TIMEOUT. -/
def execJobTimeout (id : Nat) (s : State) : Host.Outcome State Fault Refusal := .next (doJobTimeout id s)

/-- DMA_ERROR. -/
def execDmaError (id : Nat) (which : BitVec 2) (s : State) : Host.Outcome State Fault Refusal :=
  .next (doDmaError id which s)

end Sys2Proof.Machine
end

