-- ==== Sys2Proof/Machine/Recop.lean ====
section
/-! DEFINITION. The spill area of the event recorder (R431 to R434) and the record window (R423, R435). -/

namespace Sys2Proof.Machine

/-- The 32 bytes of a record (R423). -/
def recBytes (r : EvRec) : Bytes :=
  leBytes 2 r.code.toNat ++ [BitVec.ofNat 8 r.sev, r.flags] ++ leBytes 2 (min 0xFFFF r.rep) ++ leBytes 2 r.inst.toNat ++
    leBytes 5 r.secs.toNat ++ leBytes 3 r.frac.toNat ++ leBytes 4 r.p0.toNat ++ leBytes 4 r.p1.toNat ++
    leBytes 4 r.p2.toNat ++ leBytes 3 r.seq.toNat ++ [0x5A#8]

/-- Spilling is configured and chip select 0 of channel 15 is there (R431). -/
def spillCan (s : State) : Bool := s.boot.eff.spillEn && recFlash s

/-- Put one position of the spill area; a record whose `spilled` is false stands for one without VALID (R432). -/
def spillPut (p : Nat) (r : EvRec) (s : State) : State := s.modNv fun n => { n with spill := assocPut n.spill p r }

/-- Erase a sector of the spill area. -/
def spillErase (k : Nat) (s : State) : State := s.modNv fun n => { n with spill := n.spill.filter fun e => e.1 / 2048 ≠ k % 32 }

/-- The records of the ring not yet spilled, oldest first. -/
def unspilled (s : State) : List EvRec := (s.evr.ring.filter fun r => !r.spilled).reverse

/-- Open a spill sector (R431, R432): event 0xF041 becomes its position 0, and the sector after it is erased. -/
def openSector (k : Nat) (s : State) : State :=
  let k := k % 32
  let g := s.evr.spillGen + 1
  let next := ((unspilled s).head?.map (·.seq)).getD s.aon.nextSeq
  let s := ev 0xF041#16 g.toNat k next.toNat s
  let mark (r : EvRec) : EvRec := { r with flags := r.flags ||| 0x20#8, spilled := true }
  let written := (s.evr.ring.head?.map fun r => r.code == 0xF041#16 && r.p0 == g).getD false
  let r := if written then (s.evr.ring.head?).getD {} else mkRec 0xF041#16 g (p32 k) (next.setWidth 32) s
  let s := s.modEvr fun e => { e with
    ring := if written then mark r :: e.ring.drop 1 else e.ring, spillGen := g, spillHead := k * 2048 + 1 }
  spillErase (k + 1) (spillPut (k * 2048) (mark r) s)

/-- Mark records of the ring as spilled, by their sequence numbers. -/
def markSpilled (ns : List (BitVec 24)) (s : State) : State :=
  s.modEvr fun e => { e with ring := e.ring.map fun r => if r.seq ∈ ns then { r with spilled := true } else r }

/-- The next position of the spill area, a new sector being opened where the last is full (R432). -/
def spillRoom (s : State) : State :=
  if s.evr.spillHead % 2048 = 0 then openSector (s.evr.spillHead / 2048) s else s

/-- Write one record at the next position. -/
def spillOne (r : EvRec) (s : State) : State :=
  let s := spillRoom s
  let p := s.evr.spillHead
  let s := spillPut p { r with spilled := true } s
  markSpilled [r.seq] (s.modEvr fun e => { e with spillHead := (p + 1) % 65536 })

/-- A batch: the records that share the head's flash page (R432). -/
def spillBatch (rs : List EvRec) (s : State) : State :=
  let s := spillRoom s
  (rs.take (8 - s.evr.spillHead % 8)).foldl (fun s r => spillOne r s) s

/-- A flush (R432) of the records whose frame has ended. `bad` is the number of positions that read back wrong: one is
skipped, a second stops the flush until the next cold reset. -/
def spillFlush (bad : Nat) (s : State) : State :=
  if !s.evr.spillOn || s.evr.spillFault || !recFlash s then s
  else
    let f := evFrame s
    match (unspilled s).filter fun r => r.frame ≠ f with
    | [] => s
    | r :: rs =>
      if bad = 0 then spillBatch (r :: rs) s
      else
        let s := spillRoom s
        let p := s.evr.spillHead
        let s := spillPut p { r with spilled := false } s
        let s := s.modEvr fun e => { e with spillHead := (p + 1) % 65536 }
        if bad = 1 then spillBatch (r :: rs) s
        else
          let s := spillRoom s
          let q := s.evr.spillHead
          let s := spillPut q { r with spilled := false } s
          ev 0xF042#16 q 1 0 (s.modEvr fun e => { e with
            spillHead := (q + 1) % 65536, spillFault := true, spillOn := false })

/-- The scan of the spill area, after channel 15 is discovered at a cold start (R433). -/
def spillScan (s : State) : State :=
  if !spillCan s || s.evr.spillFault then s
  else
    let opened := s.nv.spill.filter fun e => e.1 % 2048 = 0 && e.2.spilled && e.2.code = 0xF041#16
    let best := opened.foldl (fun b e => match b with
      | none => some e
      | some x => if e.2.p0.toNat > x.2.p0.toNat then some e else some x) none
    let s := s.modEvr fun e => { e with spillOn := true }
    match best with
    | none =>
      let s := openSector 0 (spillErase 0 (s.modEvr fun e => { e with spillGen := 0#32 }))
      ev 0xF046#16 s.evr.spillGen.toNat s.evr.spillHead 1 s
    | some e =>
      let k := e.1 / 2048
      let last := s.nv.spill.foldl (fun m x => if x.1 / 2048 = k then max m x.1 else m) (k * 2048)
      let s := s.modEvr fun v => { v with spillGen := e.2.p0, spillHead := (last + 1) % 65536 }
      ev 0xF046#16 s.evr.spillGen.toNat s.evr.spillHead 0 (spillErase (k + 1) s)

/-- The recorder before L4 and L5 (R434, R51): the newest 256 unspilled records are written, the others are lost and
counted (R428), and the ring is lost with the recorder's power. -/
def recorderOff (s : State) : State :=
  let un := unspilled s
  let keep := if s.evr.spillOn && !s.evr.spillFault && recFlash s then un.drop (un.length - 256) else []
  let gone := un.take (un.length - keep.length)
  let s := keep.foldl (fun s r => spillOne r s) s
  let s := if gone.isEmpty then s else s.modEvr fun e => { e with
    lost := bvSat e.lost gone.length, lossSeen := true,
    lossSeq := if e.lossRun = 0 then (gone.head?.map (·.seq)).getD 0#24 else e.lossSeq, lossRun := e.lossRun + gone.length }
  s.modEvr fun e => { e with ring := [], ph := .battery, frozen := false, freezeMissed := 0 }

/-- Load the window (R435): from the ring at once, from the spill area when its device read completes. -/
def loadWindow (s : State) : State :=
  if s.evr.cursorSpill then s.modEvr fun e => { e with winReady := false }
  else
    let w := s.evr.ring.find? fun r => r.seq = s.evr.cursor
    s.modEvr fun e => { e with win := w, winReady := true, winPresent := w.isSome }

/-- The snapshot of a spill position (R435): none where it is erased, without VALID, or the flash is absent. -/
def spillSnapshot (s : State) : Option EvRec :=
  if !recFlash s then none
  else match assocGet s.nv.spill (s.evr.cursor.toNat % 65536) with
    | some r => if r.spilled then some r else none
    | none => none

end Sys2Proof.Machine
end

