-- ==== Sys2Proof/Machine/Rungs.lean ====
section
/-! DEFINITION. The meanings of the commands of the power-state ladder (chapter 02, R51 to R62). -/

namespace Sys2Proof.Machine

/-- The offset of PWR_RUNG_REQ. -/
def rungOff : Nat := pwrOff 8

/-- The link's power state for a target (R51, R236): the deepest state enabled that is no deeper than it. -/
def linkTo (target : Nat) (s : State) : State :=
  if s.hlk.speed = 0 then s
  else
    let n := ((List.range 6).filter fun k => k = 0 || (decide (k ≤ target) && s.hlk.aspm.getLsbD (k - 1))).getLastD 0
    linkPm n s

/-- Saddle verification work is pending: leaves to verify, slots to check, staged images to check (R55). -/
def verifyWork (s : State) : Bool :=
  ((List.finRange 16).any fun c => !s.sdl.ch[c].cvQueue.isEmpty) ||
  (allDoms.any fun d => s.prs.dom[d].st == .verifying &&
    (reqObjs s d).any fun o => !(s.ldg.objs[o].doneA && s.ldg.objs[o].doneB)) ||
  allObjs.any fun o => s.ldg.objs[o].redir

/-- DMA is in progress: an update's message, or messages that can be posted (R55). -/
def dmaBusy (s : State) : Bool := s.boot.updBusy || (!s.hlk.msgs.isEmpty && !postHeld s)

/-- The conditions of R55 for IDLE and DOZE. -/
def canIdle (s : State) (doze : Bool) : Bool :=
  s.pwr.supplyValid && s.glb.ready && s.job.jobs.isEmpty && !verifyWork s && !dmaBusy s &&
    (!doze || (List.range 24).all fun p => (part s p).inService = 0)

/-- Enter L1 or L2 (R51): in L1 the clusters are at retention voltage, a free value; in L2 the job clusters are gated. -/
def enterIdle (doze : Bool) (s : State) : State :=
  let s := enterRung (if doze then .doze else .idle) s
  let s := linkTo (if doze then 2 else 1) s
  if doze then clusterPower s
  else
    let (v, s) := drawFree 10 s
    s.modPln fun p => { p with clusters := p.clusters.map fun x => if x.st = 0 then x else { x with vcore := v } }

/-- AUTO_IDLE_ENTRY (R55). -/
def doAutoIdleEntry (s : State) : State :=
  if s.pwr.idleEn && s.pwr.rung == .run && canIdle s false then enterIdle false s else s

/-- AUTO_IDLE_ENTRY. -/
def execAutoIdleEntry (s : State) : Host.Outcome State Fault Refusal := .next (doAutoIdleEntry s)

/-- AUTO_DOZE_ENTRY (R55). -/
def doAutoDozeEntry (s : State) : State :=
  if s.pwr.dozeEn && (s.pwr.rung == .run || s.pwr.rung == .idle) && canIdle s true then enterIdle true s else s

/-- AUTO_DOZE_ENTRY. -/
def execAutoDozeEntry (s : State) : Host.Outcome State Fault Refusal := .next (doAutoDozeEntry s)

/-- A request for IDLE or DOZE is pending (R55). -/
def reqIdle (t : BitVec 3) (s : State) : State :=
  if s.hlk.pmeWait.isSome then s else s.modPwr fun p => { p with rungTarget := t, rungResult := 1#2 }

/-- RUNG_REQ_IDLE (R55). -/
def doRungReqIdle (a : Agent) (s : State) : State := access a rungOff (reqIdle 1#3) s

/-- RUNG_REQ_IDLE. -/
def execRungReqIdle (a : Agent) (s : State) : Host.Outcome State Fault Refusal := .next (doRungReqIdle a s)

/-- RUNG_REQ_DOZE (R55). -/
def doRungReqDoze (a : Agent) (s : State) : State := access a rungOff (reqIdle 2#3) s

/-- RUNG_REQ_DOZE. -/
def execRungReqDoze (a : Agent) (s : State) : Host.Outcome State Fault Refusal := .next (doRungReqDoze a s)

/-- A request for IDLE or DOZE waits for its conditions. -/
def idlePending (s : State) : Bool :=
  s.pwr.rungResult == 1#2 && (s.pwr.rungTarget == 1#3 || s.pwr.rungTarget == 2#3) && s.pwr.rung == .run &&
    s.hlk.pmeWait.isNone

/-- LOW_RUNG_ENTRY (R55): the pending request's conditions hold. -/
def doLowRungEntry (s : State) : State :=
  let doze := s.pwr.rungTarget == 2#3
  if idlePending s && canIdle s doze then enterIdle doze s else s

/-- LOW_RUNG_ENTRY. -/
def execLowRungEntry (s : State) : Host.Outcome State Fault Refusal := .next (doLowRungEntry s)

/-- A request is refused (R53, R55): RESULT 3 and event 0x1041, whose condition the spec does not code: a free value. -/
def refuseRung (t : Nat) (s : State) : State := evFree1 0x1041#16 t (s.modPwr fun p => { p with rungResult := 3#2 })

/-- RUNG_REQ_TIMEOUT (R55). -/
def doRungReqTimeout (s : State) : State := if idlePending s then refuseRung s.pwr.rungTarget.toNat s else s

/-- RUNG_REQ_TIMEOUT. -/
def execRungReqTimeout (s : State) : Host.Outcome State Fault Refusal := .next (doRungReqTimeout s)

/-- The conditions of R53: every domain held or its DOM_PG not good, no fuse programming, job, update sequence or recovery. -/
def canSleep (s : State) : Bool :=
  (allDoms.all fun d => s.prs.dom[d].st == .held || !s.pins.domPg.getLsbD d.val) &&
    s.fus.prog.isNone && s.job.jobs.isEmpty && !(allObjs.any fun o => s.ldg.objs[o].redir) && !s.ldg.rcvBusy

/-- Step 4 of R56: the domains not yet held are, and RUNG holds every planned one until the wake (R308). -/
def rungHolds (s : State) : State :=
  allDoms.foldl (fun s d =>
    let x := s.prs.dom[d]
    if x.plan.isSome || x.st != .held then
      modDom d (fun y => { y with st := .held, ready := false }) (hold d 5 s)
    else s) s

/-- The flashes' identities and unique IDs, by channel and chip select (R59). -/
def flashIds (s : State) : List (Nat × Nat) :=
  (List.finRange 16).flatMap fun c =>
    let x := s.sdl.ch[c]
    if chPresent s c && x.discovered then
      (x.jedec0.toNat, x.uid0) :: (if x.jedec1 = 0#24 then [] else [(x.jedec1.toNat, x.uid1)])
    else []

/-- Step 6 of R56: the retained record. -/
def retain (ids : List (Nat × Nat)) (s : State) : State :=
  let meas := allObjs.filterMap fun o =>
    let x := s.ldg.objs[o]
    if x.chosen then some (o, ((if x.sel then x.manB else x.manA).map (·.meas)).getD 0#384) else none
  s.modPwr fun p => { p with retValid := true, retSecded := true, retMeas := meas, retIds := ids, retSeq := s.ldg.seq }

/-- Step 9 of R56: the rails of the rung; with KEEP_DEEP the flashes stay powered in deep power-down (R57). -/
def gateRails (r : Rung) (s : State) : State :=
  let s := (List.finRange 16).foldl (fun s c => setWp c false s) s
  let s := if s.pwr.keepDeep && s.pwr.vflashOn then s.modPins fun p => { p with deepPd := true }
    else s.modPwr fun p => { p with vflashOn := false }
  let s := clusterPower (enterRung r (s.modHlk fun h => { h with pmeWait := none }))
  if r == .nap then s else s.modWdg fun w => { w with paused := true }

/-- The domains of a fast path are released, every other path verifies in full (R59, R60): the conditions in the order of
R59, with REASON's codes. -/
def pathReason (w : WakeIn) (s : State) : Nat :=
  if !s.pwr.retValid || !s.pwr.retSecded || !s.boot.imgSecded ||
      leNat (sha3_384 s.boot.imgCopy) ≠ s.boot.imgMeas.toNat then 1
  else if s.pwr.tamperSince then 2
  else if !(allDoms.all fun d => s.prs.dom[d].plan.isNone ||
      (reqObjs s d).all fun o => s.pwr.retMeas.any fun m => m.1 = o) then 5
  else if w.ids ≠ s.pwr.retIds then 3
  else if w.ledgerSeq ≠ s.pwr.retSeq then 4
  else if !s.pwr.fastEn then 6
  else 0

/-- The flashes come back at a wake (R60 steps 2 and 4). -/
def flashWake (s : State) : State :=
  let s := s.modPins fun p => { p with deepPd := false }
  if s.pwr.vflashOn then (List.finRange 16).foldl (fun s c => chVerify c s) s
  else if s.pwr.vfEn then vflashUp s else s

/-- The slot checks of every object are made again. -/
def uncheck (s : State) : State :=
  noSlotB (allObjs.foldl (fun s o => modObj o (fun x => { x with
    chosen := false, checkA := 0#4, checkB := 0#4, checkG := 0#4, okA := false, okB := false, doneA := false, doneB := false }) s) s)

/-- The platform after a wake (R59, R60). The time of the first release is not the command's to say: a free value. -/
def wakePlatform (reason : Nat) (s : State) : State :=
  let s := flashWake s
  let s := s.modPwr fun p => { p with lastFast := reason = 0, fpReason := BitVec.ofNat 4 reason }
  let s := allDoms.foldl (fun s d => unhold d 5 s) s
  if reason = 0 then
    let s := (List.finRange 16).foldl (fun s c =>
      if s.sdl.ch[c].mode == .verifying then modCh c (fun x => { x with discovered := true }) s else s) s
    let s := settle s
    let (v, s) := drawFree 32 s
    raise 0x1050#16 v 0#32 0#32 s
  else settle (ev 0x1051#16 reason 0 0 (uncheck s))

/-- What the blocks whose supply L4 and L5 take away find at the wake (R51, R397, R440, R354): the counters at zero, a fresh
watchdog period, the identity derived again. -/
def deepWake (s : State) : State :=
  let now := s.tbs.tick.toNat
  let s := s.modPmc fun p => { p with cnt := [], ovf := 0#512 }
  let s := s.modWdg fun w => { w with paused := false, startTick := now, checked := 0#16, dup := 0#16, isOpen := w.n = 0 }
  if lcClosed s then s else derive (if s.kvt.wipePend then drawKek 3 s else s)

/-- The device wakes from L3, L4 or L5 (R58 to R60). -/
def wakeUp (cause : Fin 5) (w : WakeIn) (s : State) : State :=
  let left := rungNo s.pwr.rung
  let deep := decide (4 ≤ left)
  let reason := pathReason w s
  let s := if deep then mergeBattery (s.modEvr fun e => { e with ph := .running }) else s
  let s := s.modPwr fun p => { p with
    wakeCause := bvPut p.wakeCause cause.val true, fromRung := BitVec.ofNat 3 left,
    rungResult := if p.rungResult = 1#2 then 2#2 else p.rungResult }
  let s := enterRung .run (ev 0x1042#16 left (2 ^ cause.val) 0 s)
  let s := s.modPins fun p => { p with wakeLow := p.wakeLow || (deep && cause.val ≠ 0) }
  let s := if deep || s.hlk.speed = 0 then s else linkPm 0 s
  let s := clusterPower (applyProfile (applySel s))
  wakePlatform reason (if deep then deepWake s else s)

/-- The entry completes; a wake that came during it exits at once (R56). -/
def finishEntry (r : Rung) (s : State) : State :=
  let s := gateRails r s
  match s.pwr.wakePend with
  | some (c, w) => wakeUp c w (s.modPwr fun p => { p with wakePend := none })
  | none => s

/-- Entry to L3, L4 or L5 (R56): for L4 and L5 it waits at step 8 for PME_Turn_Off where the link is up (R237). -/
def enterLow (r : Rung) (s : State) : State :=
  let ids := flashIds s
  let s := rungHolds (sealAll s)
  let s := retain ids s
  if r == .nap then finishEntry r (linkTo 4 s)
  else
    let s := zeroVault s
    let s := recorderOff s
    if s.hlk.speed = 0 then finishEntry r s else s.modHlk fun h => { h with pmeWait := some r }

/-- A request for L3, L4 or L5: the conditions of R53 are checked first. -/
def reqLow (r : Rung) (s : State) : State :=
  if s.hlk.pmeWait.isSome then s
  else
    let s := s.modPwr fun p => { p with rungTarget := BitVec.ofNat 3 (rungNo r), rungResult := 1#2 }
    if canSleep s then enterLow r s else refuseRung (rungNo r) s

/-- RUNG_REQ_NAP (R56). -/
def doRungReqNap (a : Agent) (s : State) : State := access a rungOff (reqLow .nap) s

/-- RUNG_REQ_NAP. -/
def execRungReqNap (a : Agent) (s : State) : Host.Outcome State Fault Refusal := .next (doRungReqNap a s)

/-- RUNG_REQ_REST (R56). -/
def doRungReqRest (a : Agent) (s : State) : State := access a rungOff (reqLow .rest) s

/-- RUNG_REQ_REST. -/
def execRungReqRest (a : Agent) (s : State) : Host.Outcome State Fault Refusal := .next (doRungReqRest a s)

/-- RUNG_REQ_RETAIN (R56). -/
def doRungReqRetain (a : Agent) (s : State) : State := access a rungOff (reqLow .retain) s

/-- RUNG_REQ_RETAIN. -/
def execRungReqRetain (a : Agent) (s : State) : Host.Outcome State Fault Refusal := .next (doRungReqRetain a s)

/-- A wake cause is enabled (R58): TAMPER always, once an alarm of the kind it names has come since the entry; GPIO in L3
alone, with its pin configured. -/
def wakeEnabled (cause : Fin 5) (s : State) : Bool :=
  if cause.val = 3 then s.pwr.tamperWake
  else s.pwr.wakeEn.getLsbD cause.val &&
    (cause.val ≠ 4 || ((s.pwr.rung == .nap || s.hlk.pmeWait == some .nap) && s.pwr.wakeGpio.getLsbD 7))

/-- A wake event (R56, R58): from L3 to L5 it wakes the device; during an entry it waits for its end. -/
def wakeEvent (cause : Fin 5) (w : WakeIn) (s : State) : State :=
  if !wakeEnabled cause s then s
  else if lowRung s then wakeUp cause w s
  else if s.hlk.pmeWait.isSome && s.pwr.wakePend.isNone then s.modPwr fun p => { p with wakePend := some (cause, w) }
  else s

/-- WAKE (R58). -/
def execWake (cause : Fin 5) (w : WakeIn) (s : State) : Host.Outcome State Fault Refusal := .next (wakeEvent cause w s)

/-- WAKE_TIMER_EXPIRY (R58): PWR_WAKE_TIMER is not 0. -/
def doWakeTimerExpiry (w : WakeIn) (s : State) : State := if s.pwr.wakeTimer = 0#24 then s else wakeEvent 2 w s

/-- WAKE_TIMER_EXPIRY. -/
def execWakeTimerExpiry (w : WakeIn) (s : State) : Host.Outcome State Fault Refusal := .next (doWakeTimerExpiry w s)

/-- RETAIN_ON_PG_ENTRY (R62): every enabled DOM_PG reads not good; a refusal is logged once until one has read good. -/
def doRetainOnPgEntry (s : State) : State :=
  if s.pwr.retainOnPg && !lowRung s && s.hlk.pmeWait.isNone && s.glb.ready && (allDoms.any fun d => pgEnabled s d) &&
      (allDoms.all fun d => !pgEnabled s d || !s.pins.domPg.getLsbD d.val) then
    if canSleep s then enterLow .retain s
    else if s.pwr.retainRefused then s
    else evFree1 0x1041#16 5 (s.modPwr fun p => { p with retainRefused := true })
  else s

/-- RETAIN_ON_PG_ENTRY. -/
def execRetainOnPgEntry (s : State) : Host.Outcome State Fault Refusal := .next (doRetainOnPgEntry s)

end Sys2Proof.Machine
end

