-- ==== Sys2Proof/Machine/HostLink.lean ====
section
/-! DEFINITION. The meanings of the commands of the PCIe link and its functions (chapter 09, R222 to R237). -/

namespace Sys2Proof.Machine

/-- TotalVFs (R226): VF_COUNT, at most 7 without the ARI hierarchy. -/
def totalVfs (s : State) : Nat := if s.hlk.ari then s.boot.eff.vfCount else min 7 s.boot.eff.vfCount

/-- The function is there: PF0, or a virtual function that is enabled (R226). -/
def fnThere (s : State) (f : Fin 16) : Bool := f = 0 || decide (f.val ≤ s.hlk.numVf)

/-- The jobs of the functions that reset are discarded without records (R227): those that run stop at their next slice
points first. -/
def discardJobs (sel : Fin 16 → Bool) (s : State) : State :=
  let mark (j : Job) : Job :=
    if sel j.fn then { j with discard := true, ph := if j.ph == .running then .stopping else j.ph } else j
  let s := s.modJob fun b => { b with jobs := b.jobs.map mark }
  let gone := s.job.jobs.filter fun j => j.discard && (j.ph == .fetched || j.ph == .waiting || j.ph == .done)
  endIdle (gone.foldl (fun s j => removeJob j.id s) s)

/-- The functions' state is reset (R227): their jobs, their queue pairs' enables (DEDUCED: no job of theirs stays queued),
their configuration space as PCIe defines it, and with PF0 the event ring, the SPDM sessions and the BAR2 reads. With PF0
VF Enable clears too, as SR-IOV has it (PRESUMED). -/
def resetFns (sel : Fin 16 → Bool) (s : State) : State :=
  let s := discardJobs sel s
  let s := s.modJob fun b => { b with queues := b.queues.map fun e =>
    if h : e.1 / 64 < 16 then (e.1, if sel ⟨e.1 / 64, h⟩ then { e.2 with en := false } else e.2) else e }
  let s := s.modHlk fun h => { h with fns := Vector.ofFn fun f => if sel f then {} else h.fns[f] }
  if sel 0 then
    s.modHlk fun h => { h with
      ringEn := false, holdoffOn := false, holdoffOwed := false, sessions := [], shakes := [], bar2 := [], numVf := 0,
      ari := false }
  else s

/-- A virtual function, or with PF0 all of them, resets on a Function Level Reset. -/
def flrScope (f g : Fin 16) : Bool := f = 0 || g = f

/-- The streams end, and the vault slots of their keys are zeroised (R227, R345). -/
def endIde (s : State) : State :=
  let ns := s.hlk.ide.toList.flatMap fun i => i.keys.map (·.2.val)
  let s := s.modHlk fun h => { h with ide := Vector.replicate 9 {} }
  ns.foldl (fun s n => zeroSlot n 3 s) s

/-- A hot reset, HLK_PERST# or a link-down resets every function (R227): event 0x9041 with its cause. -/
def resetAll (cause : Nat) (s : State) : State :=
  ev 0x9041#16 cause 0 0 (endIde ((resetFns (fun _ => true) s).modHlk fun h => { h with aspm := 0#5 }))

/-- The link is down: its registers, and its transmitters in electrical idle. -/
def linkFalls (s : State) : State :=
  (linkPm 6 (s.modHlk fun h => { h with speed := 0#3, width := 0#5, reversed := false, flit := false })).modPins
    fun p => { p with txIdle := true }

/-- A rung entry that waits for the link at step 8 of R56 goes on. -/
def entryGoesOn (s : State) : State :=
  match s.hlk.pmeWait with
  | some r => finishEntry r s
  | none => s

/-- UNSERVED_BAR_ACCESS (R88): data of all ones, or a write discarded. -/
def doUnservedBarAccess (a : Agent) (bar : Fin 6) (off : BitVec 34) (write : Bool) (s : State) : State :=
  let f : Fin 16 := match a with | .vf n => n | _ => 0
  let served (s : State) : Bool := if bar = 0 && f = 0 then servedWin s (off.toNat / 0x100000) else servedBars s
  if a = .mgmt || !decodes s f || lowRung s || served s then s
  else
    let s := unserved bar.val off.toNat (leaveIdle s)
    if write then s else emit (.readReply [0xFF#8, 0xFF#8, 0xFF#8, 0xFF#8]) s

/-- The device side of the link is ready to train (R464): from step 3 of the cold start, or the release of a warm reset, with
HLK_PERST# released, and powered. -/
def canTrain (s : State) : Bool :=
  s.pwr.supplyValid && s.rst.ph == .none && !s.rst.heldStart && !s.pins.perstLow && s.hlk.speed = 0#3 && !lowRung s

/-- LINK_UP (R464, R222): at 2.5 GT/s. HLK_WAKE# is released (R58). -/
def doLinkUp (width : BitVec 5) (reversed flit : Bool) (s : State) : State :=
  if canTrain s then
    let s := linkPm 0 (s.modHlk fun h => { h with speed := 1#3, width := width, reversed := reversed, flit := flit })
    ev 0x9001#16 1 width.toNat (if flit then 1 else 0) (s.modPins fun p => { p with txIdle := false, wakeLow := false })
  else s

/-- LINK_DOWN (R227). -/
def doLinkDown (ltssm : BitVec 32) (s : State) : State :=
  if s.hlk.speed = 0#3 then s
  else
    let speed := s.hlk.speed
    entryGoesOn (resetAll 3 (raise 0x9002#16 ltssm (speed.setWidth 32) 0#32 (linkFalls s)))

/-- HOT_RESET (R227). -/
def doHotReset (s : State) : State := if s.hlk.speed = 0#3 then s else resetAll 1 s

/-- PERST_ASSERT (R26, R227): the link goes down with it. -/
def doPerstAssert (s : State) : State :=
  if s.pins.perstLow then s
  else
    let s := s.modPins fun p => { p with perstLow := true }
    if s.pwr.supplyValid then entryGoesOn (resetAll 2 (linkFalls s)) else s

/-- PERST_RELEASE (R464). -/
def doPerstRelease (s : State) : State := s.modPins fun p => { p with perstLow := false }

/-- FUNCTION_LEVEL_RESET (R227). -/
def doFunctionLevelReset (f : Fin 16) (s : State) : State :=
  if s.hlk.speed = 0#3 || !fnThere s f then s else ev 0x9040#16 f.val 0 0 (resetFns (flrScope f) s)

/-- Clearing VF Enable resets every virtual function (R226). -/
def vfsOff (s : State) : State :=
  let vs := (List.finRange 16).filter fun f => decide (1 ≤ f.val ∧ f.val ≤ s.hlk.numVf)
  let s := vs.foldl (fun s f => ev 0x9040#16 f.val 0 0 (resetFns (fun g => g = f) s)) s
  s.modHlk fun h => { h with numVf := 0 }

/-- VF_ENABLE_WRITE (R226). NumVFs is not changed while the virtual functions are enabled, as SR-IOV has it. -/
def doVfEnableWrite (en : Bool) (numVf : BitVec 16) (s : State) : State :=
  if s.hlk.speed = 0#3 then s
  else if !en then vfsOff s
  else if decide (totalVfs s < numVf.toNat) || s.job.jobs.any (fun j => j.fn ≠ 0) then
    ev 0x9004#16 numVf.toNat (totalVfs s) 0 s
  else if s.hlk.numVf ≠ 0 then s
  else s.modHlk fun h => { h with numVf := numVf.toNat }

/-- What waited on a function's Bus Master Enable and power state goes on (R236, R242). -/
def holdsEnd (was : Bool) (s : State) : State :=
  flushRecords (if was && !postHeld s then markQueued s else s)

/-- FUNCTION_RETURN_D0 (R236). -/
def doFunctionReturnD0 (f : Fin 16) (s : State) : State :=
  if s.hlk.speed = 0#3 || !s.hlk.fns[f].d3 then s
  else holdsEnd (postHeld s) (modFn f (fun x => { x with d3 := false, bme := true }) s)

/-- ATOMIC_OP (R223, R230). -/
def doAtomicOp (f : Fin 16) (s : State) : State :=
  if !decodes s f || lowRung s then s else emit .unsupported (leaveIdle s)

/-- PME_TURN_OFF (R237): the link goes to L2, and the entry completes. -/
def doPmeTurnOff (s : State) : State :=
  match s.hlk.pmeWait with
  | some r => finishEntry r (linkPm 5 ((linkFalls s)))
  | none => s

/-- PME_TIMEOUT (R237, R227): the link goes down; its state machine's state is not the command's to say. -/
def doPmeTimeout (s : State) : State :=
  match s.hlk.pmeWait with
  | some r =>
    let speed := s.hlk.speed
    let (v, s) := drawFree 32 (linkFalls s)
    let s := resetAll 3 (raise 0x9002#16 v (speed.setWidth 32) 0#32 s)
    finishEntry r (ev 0x9042#16 (rungNo r) 0 0 s)
  | none => s

/-- CONFIGURATION_WRITE (R236): what it leaves in the function. -/
def doConfigurationWrite (f : Fin 16) (w : CfgReq) (s : State) : State :=
  if s.hlk.speed = 0#3 || !fnThere s f then s
  else
    let was := postHeld s
    let s := modFn f (fun x => { x with bme := w.bme, mse := w.mse, d3 := w.d3 }) s
    let s := if f = 0 then s.modHlk fun h => { h with ari := w.ari, aspm := w.aspm } else s
    let s := match s.pwr.rung with | .idle => linkTo 1 s | .doze => linkTo 2 s | _ => s
    holdsEnd was s

/-- LINK_SPEED_CHANGE (R222): what event 0x9003 gives as old and new is not coded: free values. -/
def doLinkSpeedChange (speed : BitVec 3) (width : BitVec 5) (s : State) : State :=
  if s.hlk.speed = 0#3 || speed = 0#3 || (s.hlk.speed = speed && s.hlk.width = width) then s
  else
    let (a, s) := drawFree 32 s
    let (b, s) := drawFree 32 s
    raise 0x9003#16 a b 0#32 (s.modHlk fun h => { h with speed := speed, width := width })

/-- UNSERVED_BAR_ACCESS. -/
def execUnservedBarAccess (a : Agent) (bar : Fin 6) (off : BitVec 34) (write : Bool)
    (s : State) : Host.Outcome State Fault Refusal :=
  .next (doUnservedBarAccess a bar off write s)

/-- LINK_UP. -/
def execLinkUp (width : BitVec 5) (reversed flit : Bool) (s : State) : Host.Outcome State Fault Refusal :=
  .next (doLinkUp width reversed flit s)

/-- LINK_DOWN. -/
def execLinkDown (ltssm : BitVec 32) (s : State) : Host.Outcome State Fault Refusal := .next (doLinkDown ltssm s)

/-- HOT_RESET. -/
def execHotReset (s : State) : Host.Outcome State Fault Refusal := .next (doHotReset s)

/-- PERST_ASSERT. -/
def execPerstAssert (s : State) : Host.Outcome State Fault Refusal := .next (doPerstAssert s)

/-- PERST_RELEASE. -/
def execPerstRelease (s : State) : Host.Outcome State Fault Refusal := .next (doPerstRelease s)

/-- FUNCTION_LEVEL_RESET. -/
def execFunctionLevelReset (f : Fin 16) (s : State) : Host.Outcome State Fault Refusal :=
  .next (doFunctionLevelReset f s)

/-- VF_ENABLE_WRITE. -/
def execVfEnableWrite (en : Bool) (numVf : BitVec 16) (s : State) : Host.Outcome State Fault Refusal :=
  .next (doVfEnableWrite en numVf s)

/-- FUNCTION_RETURN_D0. -/
def execFunctionReturnD0 (f : Fin 16) (s : State) : Host.Outcome State Fault Refusal := .next (doFunctionReturnD0 f s)

/-- ATOMIC_OP. -/
def execAtomicOp (f : Fin 16) (_bar : Fin 6) (_off : BitVec 34) (s : State) : Host.Outcome State Fault Refusal :=
  .next (doAtomicOp f s)

/-- PME_TURN_OFF. -/
def execPmeTurnOff (s : State) : Host.Outcome State Fault Refusal := .next (doPmeTurnOff s)

/-- PME_TIMEOUT. -/
def execPmeTimeout (s : State) : Host.Outcome State Fault Refusal := .next (doPmeTimeout s)

/-- CONFIGURATION_WRITE. -/
def execConfigurationWrite (f : Fin 16) (w : CfgReq) (s : State) : Host.Outcome State Fault Refusal :=
  .next (doConfigurationWrite f w s)

/-- LINK_SPEED_CHANGE. -/
def execLinkSpeedChange (speed : BitVec 3) (width : BitVec 5) (s : State) : Host.Outcome State Fault Refusal :=
  .next (doLinkSpeedChange speed width s)

end Sys2Proof.Machine
end

