-- ==== Sys2Proof/Machine/Ide.lean ====
section
/-! DEFINITION. The meanings of the commands of IDE and of SPDM over DOE (chapter 09, R244 to R246; R345, R366). -/

namespace Sys2Proof.Machine

/-- IDE_INTEGRITY_FAILURE (R244): the stream goes to Insecure. -/
def doIdeIntegrityFailure (st : Fin 9) (s : State) : State :=
  if !s.hlk.ide[st].secure then s
  else ev 0x9051#16 st.val 0 0 (s.modHlk fun h => { h with
    ide := h.ide.set st { h.ide[st] with secure := false }, ideFails := bvSat h.ideFails 1 })

/-- The bit of HLK_IDE_POLICY for a BAR (R245, R247). -/
def policyBit (bar : Fin 6) : Nat := bar.val / 2

/-- IDE_POLICY_REFUSAL (R245): a request outside a secure stream to a BAR whose bit is set. -/
def doIdePolicyRefusal (f : Fin 16) (bar : Fin 6) (off : BitVec 34) (posted : Bool) (s : State) : State :=
  if !decodes s f || lowRung s || !s.hlk.policy.getLsbD (policyBit bar) then s
  else
    let s := leaveIdle s
    ev 0x9052#16 f.val bar.val off.toNat (if posted then s else emit .unsupported s)

/-- The SPDM responder answers: in partition P3 of cluster 0, over the DOE mailbox, with keys derived (R246, R366). -/
def spdmOn (s : State) : Bool := s.hlk.speed != 0#3 && clusterOn s 0 && s.kvt.ident && s.glb.ready

/-- IDE_KM runs over a secured session (R244). -/
def ideKmOn (s : State) : Bool := spdmOn s && !s.hlk.sessions.isEmpty

/-- The highest-numbered empty slot from 128 upwards (R345). -/
def ideSlot (s : State) : Option (Fin 256) :=
  (List.finRange 256).reverse.find? fun n => decide (128 ≤ n.val) && slotEmpty s n.val

/-- The slot of a stream's key is zeroised (R345). -/
def ideDrop (st : Fin 9) (kid : Fin 12) (s : State) : State :=
  match assocGet s.hlk.ide[st].keys kid.val with
  | some n =>
    zeroSlot n.val 3 (s.modHlk fun h => { h with
      ide := h.ide.set st { h.ide[st] with keys := assocDel h.ide[st].keys kid.val } })
  | none => s

/-- IDE_KM_KEY_PROG (R345). `kid` is 4 · sub-stream + 2 · direction + key set. A key it replaces is zeroised first, so that
108 slots are enough (DEDUCED). The attributes: USAGE AEAD, ORIGIN imported, DEST link IDE alone, volatile. -/
def doIdeKmKeyProg (st : Fin 9) (kid : Fin 12) (key : Bytes) (s : State) : State :=
  if !ideKmOn s || key.length ≠ 32 then s
  else
    let s := ideDrop st kid s
    match ideSlot s with
    | none => ev 0xC042#16 st.val 0 0 s
    | some n =>
      let a := attrWith (devAttr 0x400 0x08 0) 2
      let s := putSlot n.val 1 a 16 ((slotAt s n.val).version + 1) key s
      let s := s.modHlk fun h => { h with
        ide := h.ide.set st { h.ide[st] with keys := assocPut h.ide[st].keys kid.val n } }
      ev 0xC010#16 n.val (slotAt s n.val).version 2 s

/-- IDE_KM_KEY_SET_STOP (R345): the slot is zeroised; with its last key a stream is secure no more. -/
def doIdeKmKeySetStop (st : Fin 9) (kid : Fin 12) (s : State) : State :=
  if !ideKmOn s then s
  else
    let s := ideDrop st kid s
    if s.hlk.ide[st].keys.isEmpty then
      s.modHlk fun h => { h with ide := h.ide.set st { h.ide[st] with secure := false } }
    else s

/-- IDE_KM_KEY_SET_GO (R244): a programmed key set. -/
def doIdeKmKeySetGo (st : Fin 9) (set : Fin 2) (s : State) : State :=
  if ideKmOn s && s.hlk.ide[st].keys.any fun e => e.1 % 2 = set.val then
    ev 0x9050#16 st.val set.val 0 (s.modHlk fun h => { h with ide := h.ide.set st { h.ide[st] with secure := true } })
  else s

/-- A measurement of the responder by its index (R360, R366). -/
def spdmMeas (s : State) (i : Nat) : Option Bytes :=
  if i = 1 then some Config.romDigest
  else if i = 2 then some (meas2 s)
  else if i = 3 then some (measBytes s.boot.meas)
  else if i = 4 then some (meas4 s)
  else (definedObjs s).find? (fun o => 16 + o.val = i) |>.map fun o => measBytes (measObj s o)

/-- The indexes the responder has (R366). -/
def spdmIndexes (s : State) : List Nat := [1, 2, 3, 4] ++ (definedObjs s).map fun o => 16 + o.val

/-- SPDM_GET_MEASUREMENTS (R366): the blocks as index and digest. For an index without a measurement SPDM's InvalidRequest
is answered (PRESUMED). -/
def doSpdmGetMeasurements (index : BitVec 8) (s : State) : State :=
  if !spdmOn s then s
  else
    let is := spdmIndexes s
    let block (i : Nat) : Bytes := BitVec.ofNat 8 i :: (spdmMeas s i).getD []
    if index = 0#8 then emit (.doeReply [BitVec.ofNat 8 is.length]) s
    else if index = 0xFF#8 then emit (.doeReply (is.flatMap block)) s
    else if index.toNat ∈ is then emit (.doeReply (block index.toNat)) s
    else emit (.doeError 1#8) s

/-- SPDM_SET_CERTIFICATE (R366): UnsupportedRequest, whose code is SPDM's (PRESUMED). -/
def doSpdmSetCertificate (s : State) : State := if spdmOn s then emit (.doeError 7#8) s else s

/-- DOE_ABORT (R246): the protocol's coding in the event is not in the spec: a free value. -/
def doDoeAbort (s : State) : State :=
  if s.hlk.speed = 0#3 then s
  else
    let (v, s) := drawFree 32 s
    raise 0x9061#16 v 0#32 0#32 s

/-- A request within a session that is not there: SPDM's InvalidSession (PRESUMED). -/
def inSession (session : BitVec 32) (k : State → State) (s : State) : State :=
  if session ∈ s.hlk.sessions then k s else emit (.doeError 2#8) s

/-- SPDM_REQUEST (R246): what a request does to the sessions, four at once. What its answer holds is SPDM's. -/
def doSpdmRequest (k : SpdmKind) (session : BitVec 32) (s : State) : State :=
  if !spdmOn s then s
  else match k with
  | .version | .capabilities | .algorithms | .certificate | .challenge => emit (.doeReply []) s
  | .keyExchange =>
    if session ∈ s.hlk.sessions || decide (4 ≤ s.hlk.sessions.length + s.hlk.shakes.length) then emit (.doeError 0x0A#8) s
    else emit (.doeReply []) (s.modHlk fun h => { h with shakes := session :: h.shakes.filter (· ≠ session) })
  | .finish =>
    if session ∈ s.hlk.shakes then
      raise 0x9060#16 session 0#32 0#32 (emit (.doeReply []) (s.modHlk fun h => { h with
        shakes := h.shakes.filter (· ≠ session), sessions := session :: h.sessions }))
    else emit (.doeError 2#8) s
  | .heartbeat | .keyUpdate => inSession session (emit (.doeReply [])) s
  | .endSession =>
    inSession session (fun s => emit (.doeReply []) (s.modHlk fun h => { h with
      sessions := h.sessions.filter (· ≠ session) })) s

/-- IDE_INTEGRITY_FAILURE. -/
def execIdeIntegrityFailure (st : Fin 9) (s : State) : Host.Outcome State Fault Refusal :=
  .next (doIdeIntegrityFailure st s)

/-- IDE_POLICY_REFUSAL. -/
def execIdePolicyRefusal (f : Fin 16) (bar : Fin 6) (off : BitVec 34) (posted : Bool)
    (s : State) : Host.Outcome State Fault Refusal :=
  .next (doIdePolicyRefusal f bar off posted s)

/-- IDE_KM_KEY_PROG. -/
def execIdeKmKeyProg (st : Fin 9) (kid : Fin 12) (key : Bytes) (s : State) : Host.Outcome State Fault Refusal :=
  .next (doIdeKmKeyProg st kid key s)

/-- IDE_KM_KEY_SET_STOP. -/
def execIdeKmKeySetStop (st : Fin 9) (kid : Fin 12) (s : State) : Host.Outcome State Fault Refusal :=
  .next (doIdeKmKeySetStop st kid s)

/-- SPDM_GET_MEASUREMENTS. -/
def execSpdmGetMeasurements (index : BitVec 8) (s : State) : Host.Outcome State Fault Refusal :=
  .next (doSpdmGetMeasurements index s)

/-- SPDM_SET_CERTIFICATE. -/
def execSpdmSetCertificate (s : State) : Host.Outcome State Fault Refusal := .next (doSpdmSetCertificate s)

/-- DOE_ABORT. -/
def execDoeAbort (s : State) : Host.Outcome State Fault Refusal := .next (doDoeAbort s)

/-- IDE_KM_KEY_SET_GO. -/
def execIdeKmKeySetGo (st : Fin 9) (set : Fin 2) (s : State) : Host.Outcome State Fault Refusal :=
  .next (doIdeKmKeySetGo st set s)

/-- SPDM_REQUEST. -/
def execSpdmRequest (k : SpdmKind) (session : BitVec 32) (s : State) : Host.Outcome State Fault Refusal :=
  .next (doSpdmRequest k session s)

end Sys2Proof.Machine
end

