-- ==== Sys2Proof/Machine/Ledger.lean ====
section
/-! DEFINITION. The meanings of the ledger's commands (chapter 12): appends, ADOPT and COMPACT. -/

namespace Sys2Proof.Machine

/-- LEDGER_APPEND (R324): a record of the ledger itself; `bad` positions read otherwise than written. A header is no
record. -/
def doLedgerAppend (r : LedIn) (bad : Nat) (s : State) : State :=
  if r.st.val = 0 then s
  else
    let (ok, s) := ledTry { obj := BitVec.ofNat 8 r.obj.val, slot := r.slotB, st := r.st.val, origin := r.origin.val,
                            version := r.version, secver := r.secver, digest := r.digest } bad s
    if ok && r.st.val ≠ 5 then unstand r.obj r.slotB s else s

/-- ADOPT (R329): RESULT and CHECK. -/
def adoptReq (o : Fin 64) (b : Bool) (f : SlotFacts) (s : State) : Nat × Nat × State :=
  let x := s.ldg.objs[o]
  if x.cfg.isNone then (2, 0, s)
  else if x.redir || allDoms.any (fun d => requires s d o && s.prs.dom[d].st == .released) then (3, 0, s)
  else if !ledCan s then (5, 0, s)
  else
    let (code, m) := if b && !hasSlotB s o then (11, none) else slotCode ⟨false, true, true⟩ o b f s
    if code ≠ 0 then (4, code, s)
    else
      let i := m.getD {}
      let (ok, s) := ledAppend o b 2 6 i.version i.secver (digestOf i) s
      if ok then (0, 0, ev 0xB030#16 o.val (if b then 1 else 0) i.version.toNat s) else (5, 0, s)

/-- ADOPT (R329, R336). -/
def doAdopt (a : Agent) (key : BitVec 16) (o : Fin 64) (slotB : Bool) (f : SlotFacts) (s : State) : State :=
  ldgCmd a key 1 (adoptReq o slotB f) s

/-- COMPACT (R326, R336): a ledger that is empty has nothing to compact (DEDUCED). -/
def doCompact (a : Agent) (key : BitVec 16) (s : State) : State :=
  ldgCmd a key 5 (fun s => if !ledCan s then (5, 0, s) else if s.ldg.empty then (3, 0, s) else (0, 0, compact s)) s

/-- LEDGER_APPEND. -/
def execLedgerAppend (r : LedIn) (bad : Nat) (s : State) : Host.Outcome State Fault Refusal :=
  .next (doLedgerAppend r bad s)

/-- ADOPT. -/
def execAdopt (a : Agent) (key : BitVec 16) (o : Fin 64) (slotB : Bool) (f : SlotFacts)
    (s : State) : Host.Outcome State Fault Refusal :=
  .next (doAdopt a key o slotB f s)

/-- COMPACT. -/
def execCompact (a : Agent) (key : BitVec 16) (s : State) : Host.Outcome State Fault Refusal :=
  .next (doCompact a key s)

end Sys2Proof.Machine
end

