-- ==== Sys2Proof/Machine/Operations.lean ====
section
/-! DEFINITION. The meanings of the library operations' descriptors (chapters 08 and 10): the checks of R252 with each
operation's own rules, and the loading of a customer program. -/

namespace Sys2Proof.Machine

/-- What an operation asks of its descriptor (R266): its rules on lengths and arguments, whether KEY_SLOT is used and
DST_SLOT required, and the length of the key it makes. -/
structure OpRule where
  /-- SRC_LEN -/
  src : Bool := true
  /-- DST_LEN -/
  dst : Bool := true
  /-- AUX_LEN -/
  aux : Bool := true
  /-- ARG0 -/
  arg0 : Bool := true
  /-- ARG1 -/
  arg1 : Bool := true
  /-- ARG2 -/
  arg2 : Bool := true
  /-- KEY_SLOT: 0 none, 1 used, 2 optional -/
  key : Nat := 0
  /-- the bytes of the key result, where DST_SLOT is required -/
  result : Option Nat := none

/-- The arguments an operation does not define are zero. -/
def noArgs (d : Desc) : Bool := d.arg0 = 0#32 && d.arg1 = 0#32 && d.arg2 = 0#32

/-- The rules of the operations (R266, R364). -/
def opRule (d : Desc) : OpRule :=
  let p := d.progId.toNat % 4096
  let aux := d.auxLen.toNat
  let src := d.srcLen.toNat
  let dst := d.dstLen.toNat
  let a0 := d.arg0.toNat
  let z1 := d.arg1 = 0#32
  let z2 := d.arg2 = 0#32
  let z0 := a0 = 0
  let r : OpRule := { arg0 := z0, arg1 := z1, arg2 := z2 }
  match d.op.toNat with
  | 0x01 => { r with aux := aux = 0, dst := if p = 5 || p = 6 then decide (1 ≤ dst ∧ dst ≤ 65536) else true }
  | 0x02 =>
    { r with src := decide (1 ≤ src), arg0 := decide (9 ≤ a0 ∧ a0 ≤ 16),
             aux := if p = 0x010 then aux = 32 else if p = 0x011 then aux = 48 else aux = 32 || aux = 48 }
  | 0x03 =>
    let (alg, pl, sl) := sigShape p
    let mldsa := alg = 0 || alg = 2 || alg = 3
    { r with dst := dst = 0, arg0 := if mldsa then decide (a0 ≤ 255) else z0,
             aux := if alg = 5 then true else aux = pl + sl + (if mldsa then a0 else 0) }
  | 0x04 =>
    let mldsa := p = 0x030 || p = 0x031 || p = 0x032
    { r with aux := aux = (if mldsa then a0 else 0), arg0 := if mldsa then decide (a0 ≤ 255) else z0, key := 1 }
  | 0x05 =>
    { r with aux := aux = 0, dst := dst = 0, arg2 := true, key := 1, result := some 32,
             src := if p = 0x040 then src = 1088 else if p = 0x041 then src = 1568 else src = 1088 || src = 1568 }
  | 0x06 => { r with aux := decide (12 ≤ aux), key := 1 }
  | 0x07 => { r with aux := decide (12 ≤ aux), src := decide (16 ≤ src), key := 1 }
  | 0x08 => { r with dst := dst = 0, arg0 := decide (16 ≤ a0 ∧ a0 ≤ 64), arg2 := true, key := 1, result := some a0 }
  | 0x09 => r
  | 0x0A => { r with aux := decide (32 ≤ aux ∧ aux ≤ 64), src := src = 0, arg0 := decide (a0 < 32) }
  | 0x0B => { r with aux := aux = 0, dst := dst = 0 }
  | _ => { arg0 := true, arg1 := true, arg2 := true, key := 2 }

/-- Check 3 of R252: PROG_ID is one of the operation's programs, for CUSTOM a loaded one. -/
def progOk (s : State) (j : Job) : Bool :=
  if j.d.op = 0x0C#8 then decide (0x400 ≤ progId j) && (copyOf s j).isSome
  else ((rom? (progId j)).map fun p => p.op == j.d.op.toNat).getD false

/-- Check 5 of R252: 0 where KEY_SLOT is in order, else the trap word's code plus one: an R177 reason, or 0 where the slot
is not the operation's or the function's to name (R340, R271). -/
def keyCheck (s : State) (j : Job) (rule : Nat) : Option Nat :=
  let k := j.d.keySlot.toNat
  let none_ := j.d.keySlot = 0xFFFF#16
  if rule = 0 then
    (if !none_ then some 0 else if j.d.op = 0x0A#8 && !s.kvt.ident then some 1 else none)
  else if rule = 2 && none_ then none
  else
    let x := slotAt s k
    let use := (progShape s j).2.2.2.1
    if none_ || x.ktype = 0 then some 1
    else if x.owner ≠ j.fn.val then some 0
    else if j.d.op = 0x0C#8 && !(attrDest x.attr).getLsbD 12 then some 3
    else if (j.d.op = 0x06#8 || j.d.op = 0x07#8) && !(attrDest x.attr).getLsbD 9 then some 4
    else if use = 0 || !(attrUse x.attr).getLsbD (use - 1) then some 5
    else if decide (s.glb.lc.toNat < attrMinLc x.attr) then some 6
    else if (attrDest x.attr).setWidth 8 = 0#8 then some 2
    else none

/-- Check 6 of R252: DST_SLOT follows the operation's rule and may be written by the function (R340, R346). -/
def dstSlotOk (s : State) (j : Job) (result : Option Nat) : Bool :=
  match result with
  | none => j.d.dstSlot = 0xFFFF#16
  | some n =>
    decide (j.d.dstSlot.toNat < 256) && slotOwn s j.d.dstSlot.toNat j.fn.val = 0 &&
      slotFit s j.d.dstSlot.toNat j.d.arg2 1 n false = 0

/-- LOAD_PROGRAM refused: event 0x7051, and LOAD_REFUSED with the reason (R218, R271). -/
def refuseLoad (j : Job) (id reason off : Nat) (s : State) : State :=
  finishJob j.id 0x40 (p32 reason) (ev 0x7051#16 id reason off s)

/-- The checks of R252 in their order: the job waits for dispatch, or ends without running. -/
def checkJob (op : Nat) (id : Nat) (ok : Job → State → State) (s : State) : State :=
  match job? s id with
  | none => s
  | some j =>
    if j.ph != .fetched || j.d.op.toNat ≠ op then s
    else
      let r := opRule j.d
      let (_, openP, gp, _, _) := progShape s j
      match descBad j.d r.src r.dst r.aux r.arg0 r.arg1 r.arg2 with
      | some o => finishJob id 0x11 (p32 o) s
      | none =>
        if !progOk s j then finishJob id 0x12 (j.d.progId.setWidth 32) s
        else if op = 0x0B && j.fn ≠ 0 then refuseLoad j 0 2 0 s
        else match keyCheck s j r.key with
          | some c => finishJob id 0x20 (trapWord 0 0 c 0) s
          | none =>
            if !dstSlotOk s j r.result then finishJob id 0x21 (j.d.dstSlot.setWidth 32) s
            else if isC0 s (jobPart j) && decide (2 < openP + gp) then finishJob id 0x13 (p32 (openP + gp)) s
            else if needsEntropy j && !entropyOn s then finishJob id 0x22 0#32 s
            else ok j s

/-- An operation whose checks pass waits for dispatch (R255). -/
def queueJob (j : Job) (s : State) : State := modJob j.id (fun j => { j with ph := .waiting }) s

/-- Every header field of a program image obeys R216. -/
def imgHeaderOk (b : Bytes) : Bool :=
  let n := leAt b 12 4
  let zero (o k : Nat) : Bool := (slice b o k).all (· == 0#8)
  decide (64 ≤ b.length) && leAt b 0 4 = 0x50524B5A && leAt b 4 2 = 1 && decide (0x400 ≤ leAt b 6 2 ∧ leAt b 6 2 ≤ 0xFFF) &&
    leAt b 8 4 ≠ 0 && decide (n ≤ 16384) && decide (1 ≤ leAt b 22 2) && zero 24 40 && b.length = 5528 + 4 * n &&
    (if n = 0 then zero 16 6
     else decide (leAt b 16 2 < n) && decide (1 ≤ leAt b 18 1 ∧ leAt b 18 1 ≤ 16) && decide (1 ≤ leAt b 19 1 ∧ leAt b 19 1 ≤ 96) &&
       decide (leAt b 19 1 + leAt b 20 1 ≤ 96) && decide (leAt b 21 1 ≤ 6)) &&
    (List.range n).all (fun i => leAt b (67 + 4 * i) 1 = 0) && zero (64 + 4 * n + 2049) 7 && zero (64 + 4 * n + 2056 + 3309) 3

/-- A code word may stand in a customer program (R218, check 7): it decodes, is no DCL, and its branch target or loop body
lies within the program. -/
def codeOk (n i : Nat) (w : BitVec 24) : Bool :=
  let op := w.toNat / 2 ^ 18
  let at_ (d : Int) : Bool := decide (0 ≤ (i : Int) + 1 + d) && decide ((i : Int) + 1 + d < n)
  wordDecodes w && op ≠ 0x2F &&
    (if 0x22 ≤ op ∧ op ≤ 0x25 then at_ (w.setWidth 8).toInt
     else if op = 0x26 || op = 0x27 then at_ (w.setWidth 13).toInt
     else if op = 0x29 then decide (i + w.toNat % 8192 < n)
     else true)

/-- The code words of an image. -/
def imgCode (b : Bytes) : List (BitVec 24) := (List.range (leAt b 12 4)).map fun i => BitVec.ofNat 24 (leAt b (64 + 4 * i) 3)

/-- The lowest free base for a number of instructions, over the candidates: the store's start and the ends of the copies held
(R219). -/
def firstFit (ps : List Prog) (n : Nat) : Option Nat :=
  let free (b : Nat) : Bool := decide (b + n ≤ 0x8000) && ps.all fun p => decide (b + n ≤ p.base) || decide (p.base + p.len ≤ b)
  let cs := (0x4000 :: ps.map fun p => p.base + p.len).filter free
  cs.foldl (fun m b => match m with | none => some b | some x => some (min x b)) none

/-- The checks of R218 in their order: the reason and the offset of event 0x7051, or the base the program gets, where a
removal image gets none. -/
def loadCheck (img : Bytes) (s : State) : Except (Nat × Nat) (Option Nat) :=
  let n := leAt img 12 4
  let id := leAt img 6 2
  let old := s.pln.progs.find? fun p => p.id = id && !p.draining
  let body := img.take (2120 + 4 * n)
  let code := imgCode img
  let g := hybridCheck s (slice img (64 + 4 * n) 2056) (slice img (2120 + 4 * n) 3408) (ascii "KS-2416 program") body
  if !(ceilOpt s 2 && s.boot.eff.progLoadEn) then .error (1, 0)
  else if !imgHeaderOk img then .error (3, 0)
  else if decide (1 < leAt img 22 2) then .error (4, 0)
  else if g = 2 then .error (5, 0)
  else if g ≠ 0 then .error (6, 0)
  else match ((List.range n).zip code).find? fun p => !codeOk n p.1 p.2 with
    | some p => .error (7, 64 + 4 * p.1)
    | none =>
      if (old.map fun p => decide (leAt img 8 4 < p.version.toNat)).getD false then .error (8, 0)
      else if n = 0 then (if old.isSome then .ok none else .error (9, 0))
      else if s.pln.progs.length ≥ 32 then .error (9, 0)
      else match firstFit s.pln.progs n with
        | some b => .ok (some b)
        | none => .error (9, 0)

/-- The copy held under an ID drains (R219). -/
def drainCopy (id : Nat) (s : State) : State :=
  s.modPln fun p => { p with progs := p.progs.map fun x =>
    if x.id = id && !x.draining then { x with draining := true } else x }

/-- LOAD_PROGRAM (R218, R219): the image is checked and placed. The engine time that the check takes and the RESULT of a
removal are not in the spec: free values. -/
def loadImage (img : Bytes) (j : Job) (s : State) : State :=
  if img.length ≠ j.d.srcLen.toNat then s
  else
    let (t, s) := drawFree 32 s
    let s := modJob j.id (fun j => { j with time := t.toNat }) (chargeDma (jobPart j) false img.length s)
    let id := leAt img 6 2
    let ver := BitVec.ofNat 32 (leAt img 8 4)
    match loadCheck img s with
    | .error (r, o) => refuseLoad j id r o s
    | .ok none =>
      let (v, s) := drawFree 15 s
      finishJob j.id 0 (v.setWidth 32) (freeCopies (ev 0x7052#16 id ver.toNat 0 (drainCopy id s)))
    | .ok (some b) =>
      let p : Prog := {
        id := id, version := ver, base := b, len := leAt img 12 4, entry := leAt img 16 2, width := leAt img 18 1,
        openP := leAt img 19 1, guardedP := leAt img 20 1, use := leAt img 21 1, code := imgCode img }
      let s := (drainCopy id s).modPln fun x => { x with progs := x.progs ++ [p] }
      finishJob j.id 0 (p32 b) (freeCopies (ev 0x7050#16 id ver.toNat b s))

/-- HASH. -/
def execOpHash (id : Nat) (s : State) : Host.Outcome State Fault Refusal := .next (checkJob 0x01 id queueJob s)

/-- MERKLE_VERIFY. -/
def execOpMerkleVerify (id : Nat) (s : State) : Host.Outcome State Fault Refusal := .next (checkJob 0x02 id queueJob s)

/-- SIG_VERIFY. -/
def execOpSigVerify (id : Nat) (s : State) : Host.Outcome State Fault Refusal := .next (checkJob 0x03 id queueJob s)

/-- SIG_SIGN. -/
def execOpSigSign (id : Nat) (s : State) : Host.Outcome State Fault Refusal := .next (checkJob 0x04 id queueJob s)

/-- KEM_DECAPS. -/
def execOpKemDecaps (id : Nat) (s : State) : Host.Outcome State Fault Refusal := .next (checkJob 0x05 id queueJob s)

/-- AEAD_SEAL. -/
def execOpAeadSeal (id : Nat) (s : State) : Host.Outcome State Fault Refusal := .next (checkJob 0x06 id queueJob s)

/-- AEAD_OPEN. -/
def execOpAeadOpen (id : Nat) (s : State) : Host.Outcome State Fault Refusal := .next (checkJob 0x07 id queueJob s)

/-- DERIVE. -/
def execOpDerive (id : Nat) (s : State) : Host.Outcome State Fault Refusal := .next (checkJob 0x08 id queueJob s)

/-- IMAGE_CHECK. -/
def execOpImageCheck (id : Nat) (s : State) : Host.Outcome State Fault Refusal := .next (checkJob 0x09 id queueJob s)

/-- EVIDENCE. -/
def execOpEvidence (id : Nat) (s : State) : Host.Outcome State Fault Refusal := .next (checkJob 0x0A id queueJob s)

/-- LOAD_PROGRAM. -/
def execOpLoadProgram (id : Nat) (img : Bytes) (s : State) : Host.Outcome State Fault Refusal :=
  .next (checkJob 0x0B id (loadImage img) s)

/-- CUSTOM. -/
def execOpCustom (id : Nat) (s : State) : Host.Outcome State Fault Refusal := .next (checkJob 0x0C id queueJob s)

end Sys2Proof.Machine
end

