-- ==== Sys2Proof/Machine/Recorder.lean ====
section
/-! DEFINITION. The meanings of the commands of the event recorder (chapter 17). -/

namespace Sys2Proof.Machine

/-- The offset of an EVR register (R446). -/
def evrOff (o : Nat) : Nat := 0x2300000 + o

/-- A load finds a parity error in a page: the lowest running engine of the job that holds the page traps with cause 4
(R172). -/
def pageParity (c : Fin 64) (p : Fin 128) (s : State) : State :=
  match (s.job.jobs.find? fun j => j.cluster = some c ∧ (p ∈ j.pages ∨ p ∈ j.gpages)) with
  | none => s
  | some j => match (s.pln.engines.find? fun e => e.2.job = j.id ∧ e.2.st = .running) with
    | some (e, _) => jobTrap e 4 0 s
    | none => s

/-- A fetch finds a parity error in a cluster's program store: the engines at that address trap with cause 5, and so will
every later fetch of it (R173). -/
def storeParity (c : Fin 64) (a : Nat) (s : State) : State :=
  let s := modCluster c (fun x => { x with badParity := a :: x.badParity.filter (· ≠ a) }) s
  (s.pln.engines.filter fun e => e.1 / 16 = c.val ∧ e.2.pc.toNat = a ∧ e.2.st = .running ∧ e.2.blk.isNone).foldl
    (fun s e => jobTrap e.1 5 0 s) s

/-- EVENT_RAISED: a block raises an event (R426, R427). Three events of the engine array report a defect that no other
command brings about, and so carry its effect: 0x7020 a load with a parity error, 0x7021 a page that failed its read-back,
0x7041 a fetch with a parity error (R171 to R173). -/
def execEventRaised (code : BitVec 16) (p0 p1 p2 : BitVec 32) (s : State) : Host.Outcome State Fault Refusal :=
  let c : Fin 64 := Fin.ofNat 64 p0.toNat
  .next (match code.toNat with
    | 0x7020 => pageParity c (Fin.ofNat 128 p1.toNat) (raise code p0 p1 p2 s)
    | 0x7021 => retirePage c (Fin.ofNat 128 p1.toNat) s
    | 0x7041 => storeParity c (p1.toNat % 32768) (raise code p0 p1 p2 s)
    | _ => raise code p0 p1 p2 s)

/-- SPILL_FLUSH (R432). -/
def execSpillFlush (bad : Nat) (s : State) : Host.Outcome State Fault Refusal := .next (spillFlush bad s)

/-- RESULT of EVR_CMD (R446). -/
def evrResult (r : Nat) (s : State) : State := s.modEvr fun e => { e with cmdResult := BitVec.ofNat 4 r }

/-- A command of EVR_CMD: it acts only with its key (R446). -/
def evrCmd (a : Agent) (key : BitVec 16) (f : State → State) (s : State) : State :=
  access a (evrOff 0x14) (fun s => if key = 0x8B52#16 then f s else evrResult 1 s) s

/-- FREEZE (R436). -/
def doFreeze (a : Agent) (key : BitVec 16) (s : State) : State :=
  evrCmd a key (fun s =>
    if s.evr.frozen then evrResult 3 s
    else
      let now := s.tbs.tick.toNat
      evrResult 0 (s.modEvr fun e => { e with frozen := true, freezeTick := now, freezeMissed := 0 })) s

/-- FREEZE. -/
def execFreeze (a : Agent) (key : BitVec 16) (s : State) : Host.Outcome State Fault Refusal := .next (doFreeze a key s)

/-- THAW (R436). -/
def doThaw (a : Agent) (key : BitVec 16) (s : State) : State :=
  evrCmd a key (fun s => if s.evr.frozen then evrResult 0 (endFreeze 1 s) else evrResult 3 s) s

/-- THAW. -/
def execThaw (a : Agent) (key : BitVec 16) (s : State) : Host.Outcome State Fault Refusal := .next (doThaw a key s)

/-- FREEZE_TIME_LIMIT (R436): 0xF040, and 0xF047 as the next record. -/
def doFreezeTimeLimit (s : State) : State :=
  if s.evr.frozen then ev 0xF047#16 s.evr.freezeMissed 0 0 (endFreeze 3 s) else s

/-- FREEZE_TIME_LIMIT. -/
def execFreezeTimeLimit (s : State) : Host.Outcome State Fault Refusal := .next (doFreezeTimeLimit s)

/-- Set the calendar to EVR_CAL_SET (R438): the fraction is taken to the 40 ns step it lies in. -/
def setCal (s : State) : State :=
  let v := s.evr.calSet.toNat
  let old := s.aon.calSecs.toNat % 2 ^ 32
  let was := s.aon.calValid
  let s := s.modAon fun a => { a with
    calSecs := BitVec.ofNat 40 v, calTick := v / 2 ^ 40 * 25000000 / 2 ^ 24, calValid := true }
  evrResult 0 (ev 0xF043#16 old (v % 2 ^ 32) (if was then 1 else 0) s)

/-- SET_CAL (R438). -/
def doSetCal (a : Agent) (key : BitVec 16) (s : State) : State := evrCmd a key setCal s

/-- SET_CAL. -/
def execSetCal (a : Agent) (key : BitVec 16) (s : State) : Host.Outcome State Fault Refusal := .next (doSetCal a key s)

/-- EVR_CURSOR_WRITE (R435): INDEX, SRC and AUTO, and the snapshot is loaded. -/
def doEvrCursorWrite (a : Agent) (v : BitVec 32) (s : State) : State :=
  access a (evrOff 0x1C) (fun s => loadWindow (s.modEvr fun e => { e with
    cursor := v.setWidth 24, cursorSpill := v.getLsbD 24, cursorAuto := v.getLsbD 25 })) s

/-- EVR_CURSOR_WRITE. -/
def execEvrCursorWrite (a : Agent) (v : BitVec 32) (s : State) : Host.Outcome State Fault Refusal :=
  .next (doEvrCursorWrite a v s)

/-- The bytes of EVR_WIN[7] (R435). -/
def winLast (s : State) : Bytes :=
  match s.evr.win with
  | some r => (recBytes r).drop 28
  | none => [0#8, 0#8, 0#8, 0#8]

/-- EVR_WIN_AUTO_READ (R435): the read is answered; with AUTO set the cursor advances and the next snapshot is loaded. -/
def doEvrWinAutoRead (a : Agent) (s : State) : State :=
  access a (evrOff 0x5C) (fun s =>
    let s := emit (.readReply (winLast s)) s
    if s.evr.cursorAuto then loadWindow (s.modEvr fun e => { e with cursor := e.cursor + 1 }) else s) s

/-- EVR_WIN_AUTO_READ. -/
def execEvrWinAutoRead (a : Agent) (s : State) : Host.Outcome State Fault Refusal := .next (doEvrWinAutoRead a s)

/-- SPILL_SNAPSHOT_LOADED (R435). -/
def doSpillSnapshotLoaded (s : State) : State :=
  if s.evr.winReady then s
  else
    let w := spillSnapshot s
    s.modEvr fun e => { e with win := w, winReady := true, winPresent := w.isSome }

/-- SPILL_SNAPSHOT_LOADED. -/
def execSpillSnapshotLoaded (s : State) : Host.Outcome State Fault Refusal := .next (doSpillSnapshotLoaded s)

end Sys2Proof.Machine
end

