-- ==== Sys2Proof/Machine/Recovery.lean ====
section
/-! DEFINITION. The meanings of the recovery commands (chapter 12): packages, readbacks, sessions and retries. -/

namespace Sys2Proof.Machine

/-- RCV_WRITE's checks and the writing of a host package (R332, R333, R336): RESULT and CHECK. A package that fails its
checks leaves the session waiting (DEDUCED). -/
def rcvWriteReq (o : BitVec 6) (dmaOk : Bool) (p : PkgIn) (s : State) : Nat × Nat × State :=
  let o : Fin 64 := ⟨o.toNat, o.isLt⟩
  if !(2 ∈ s.boot.eff.order) then (8, 0, s)
  else if !agentSession s then (3, 0, s)
  else match s.ldg.objs[o].cfg with
    | none => (2, 0, s)
    | some e =>
      if s.ldg.rcvSrc ≠ 2 || s.ldg.rcvObj ≠ some o then (3, 0, s)
      else if s.ldg.rcvStage ≠ 0 then (6, 0, s)
      else if !dmaOk || !s.hlk.fns[0].bme || s.hlk.fns[0].d3 then (7, 0, s)
      else
        let s := chargeDma 4 false e.len.toNat s
        let g := checkPkg o p.man s
        let r := writePkg o 3 p s
        if g.1 ≠ 0 then (4, g.1, s)
        else if r.1 = 0 then (0, 0, r.2)
        else (if r.1 = 5 then 5 else 0, 0, nextAttempt (failAttempt r.1 (notRestored o r.2)))

/-- RCV_WRITE (R333, R336). -/
def doRcvWrite (a : Agent) (key : BitVec 16) (o : BitVec 6) (dmaOk : Bool) (p : PkgIn) (s : State) : State :=
  ldgCmd a key 2 (rcvWriteReq o dmaOk p) s

/-- RCV_DONE (R333, R336): an attempt that waits for a package fails with cause 1. -/
def doRcvDone (a : Agent) (key : BitVec 16) (s : State) : State :=
  ldgCmd a key 3 (fun s =>
    if !(2 ∈ s.boot.eff.order) then (8, 0, s)
    else if !agentSession s then (3, 0, s)
    else (0, 0, endSession 1 1 s)) s

/-- RETRY (R334, R336). -/
def doRetry (a : Agent) (key : BitVec 16) (s : State) : State :=
  ldgCmd a key 4 (fun s => if s.ldg.rcvBusy then (6, 0, s) else if !anyFailed s then (3, 0, s) else (0, 0, runAgain s)) s

/-- RECOVERY_PACKAGE (R332, R333): the golden copy of source 1, checked in full. -/
def doRecoveryPackage (p : PkgIn) (s : State) : State :=
  match s.ldg.rcvObj with
  | some o =>
    if s.ldg.rcvSrc = 1 && s.ldg.rcvStage = 0 then
      let g := checkGolden o ⟨p.man, p.root, false⟩ s
      if g.1 = 0 then takePkg o 2 p g.2.2 else nextAttempt (failAttempt (if g.1 = 11 then 4 else 2) g.2.2)
    else s
  | none => s

/-- RECOVERY_READBACK_DONE (R332 steps 4 and 5). -/
def doRecoveryReadbackDone (f : SlotFacts) (s : State) : State :=
  match s.ldg.rcvObj with
  | some o => if s.ldg.rcvStage = 1 then readback o f s else s
  | none => s

/-- RCV_TIMEOUT (R333): the source that waits for a package fails with cause 3; a recovery boot ends with it. -/
def doRcvTimeout (s : State) : State :=
  if s.ldg.rcvStage = 1 then s
  else if agentSession s then endSession 2 3 s
  else if decide (3 ≤ s.ldg.rcvSrc) then failNow 3 s
  else s

/-- RETRY_MIN_EXPIRY (R334). -/
def doRetryMinExpiry (s : State) : State := if s.ldg.retryWait then runAgain s else s

/-- RCV_WRITE. -/
def execRcvWrite (a : Agent) (key : BitVec 16) (o : BitVec 6) (dmaOk : Bool) (p : PkgIn)
    (s : State) : Host.Outcome State Fault Refusal :=
  .next (doRcvWrite a key o dmaOk p s)

/-- RCV_DONE. -/
def execRcvDone (a : Agent) (key : BitVec 16) (s : State) : Host.Outcome State Fault Refusal :=
  .next (doRcvDone a key s)

/-- RETRY. -/
def execRetry (a : Agent) (key : BitVec 16) (s : State) : Host.Outcome State Fault Refusal := .next (doRetry a key s)

/-- RECOVERY_PACKAGE. -/
def execRecoveryPackage (p : PkgIn) (s : State) : Host.Outcome State Fault Refusal := .next (doRecoveryPackage p s)

/-- RECOVERY_READBACK_DONE. -/
def execRecoveryReadbackDone (f : SlotFacts) (s : State) : Host.Outcome State Fault Refusal :=
  .next (doRecoveryReadbackDone f s)

/-- RCV_TIMEOUT. -/
def execRcvTimeout (s : State) : Host.Outcome State Fault Refusal := .next (doRcvTimeout s)

/-- RETRY_MIN_EXPIRY. -/
def execRetryMinExpiry (s : State) : Host.Outcome State Fault Refusal := .next (doRetryMinExpiry s)

end Sys2Proof.Machine
end

