-- ==== Sys2Proof/Machine/Regmap.lean ====
section
/-! DEFINITION. The offsets of BAR0 at which a register lies (R229 and the register tables of the chapters), and the wide
quantities that a low register latches (R235). -/

namespace Sys2Proof.Machine

/-- An offset lies in an array of `n` words of a stride, from a base. -/
def inArr (o base stride n : Nat) : Bool := decide (base ≤ o) && decide (o < base + stride * n) && (o - base) % stride = 0

/-- A word-aligned offset lies from a first to a last register. -/
def inRun (o first last : Nat) : Bool := decide (first ≤ o) && decide (o ≤ last) && o % 4 = 0

/-- A register of a function's JOB block (R273). -/
def jobBlockReg (o : Nat) : Bool := o = 0 || o = 4 || inRun o 0x1000 0x17FC

/-- The offset of a BAR0 window holds a register (R229). -/
def regDefined (off : Nat) : Bool :=
  let o := off % 0x100000
  match off / 0x100000 with
  | 0 => inRun o 0 0xC
  | 1 => inRun o 0 0x30
  | 2 => inRun o 0 0x10
  | 3 => inRun o 0 0x14
  | 4 => inRun o 0 0x20 || inArr o 0x100 4 64
  | 5 => inRun o 4 0xC || inArr o 0x104 4 12 || inRun o 0x200 0x254
  | 6 => inRun o 0 0x24 || inRun o 0x100 0x3FC || inArr o 0x400 4 24 || inArr o 0x480 4 24 || inArr o 0x500 4 24
  | 7 => inRun o 0 0xC || inRun o 0x100 0x4FC || o = 0x800 ||
      (decide (0xA00 ≤ o) && decide (o < 0xC00) && decide (o % 16 < 12) && o % 4 = 0)
  | 8 => o = 0 || inArr o 0x100 4 16 || (decide (0x10000 ≤ o) && decide (o < 0x30000) && jobBlockReg (o % 0x2000))
  | 9 => inRun o 0 4 || inRun o 0x10 0x28 || inRun o 0x30 0x34 || inRun o 0x10000 0x1040C || inRun o 0x11000 0x1100C
  | 10 => inRun o 0 0x10 ||
      (decide (0x1000 ≤ o) && decide (o < 0x1400) && o % 4 = 0 && decide (o % 64 ≤ 0x24) && o % 64 ≠ 0x1C)
  | 11 => inRun o 0 0x14 || inArr o 0x100 4 32 || inArr o 0x200 4 32 || inArr o 0x280 4 32
  | 12 => inRun o 0 0x18 || (decide (0x100 ≤ o) && decide (o < 0x500) && decide (o % 16 < 12) && o % 4 = 0)
  | 13 => inRun o 0 0x30 || inArr o 0x40 4 12 || inArr o 0x100 4 16
  | 14 => inRun o 0 4
  | 15 => inRun o 0 0x30 || inArr o 0x40 4 4 || inRun o 0x80000 0x8FFFC
  | 32 => inRun o 0 0x28 || inArr o 0x100 4 17 || inArr o 0x200 4 17
  | 33 => inRun o 0 0x14 || inRun o 0x100 0x2FC
  | 34 => inRun o 0 0x24 || inRun o 0x1000 0x4FFC
  | 35 => inRun o 0 0x38 || inArr o 0x40 4 8
  | 36 => inRun o 0 4 || inArr o 0x10 4 8 || inArr o 0x40 4 16 ||
      (decide (0x100 ≤ o) && decide (o < 0x140) && decide (o % 16 < 12) && o % 4 = 0) || inRun o 0x1000 0x1FFC ||
      inRun o 0x8000 0xBFFC
  | _ => false

/-- The offset of a virtual function's BAR0 holds a register (R233). -/
def vfRegDefined (o : Nat) : Bool :=
  (decide (o < 0x40000) && (o % 4096 = 0 || o % 4096 = 4)) || inRun o 0x40000 0x40FFC || inRun o 0x80000 0x80008 ||
    inRun o 0x90000 0x90028 || (decide (0xA0000 ≤ o) && decide (o < 0xA2000) && jobBlockReg (o % 0x2000)) ||
    inRun o 0xC0000 0xC03FC || inRun o 0xC1000 0xC1004


/-- The value of counter `i` (R440). -/
def pmcValue (s : State) (i : Nat) : Nat := (cellGet 0#48 s.pmc.cnt i).toNat

/-- A queue pair's registers. -/
def jobQueue (s : State) (f q : Nat) : Queue := (assocGet s.job.queues (f * 64 + q)).getD {}

/-- The quantity whose low word a JOB block's offset shows (R235, R273). -/
def wideJob (s : State) (f o : Nat) : Option Nat :=
  if inRun o 0x1000 0x17FC then
    let x := jobQueue s f ((o - 0x1000) / 32)
    match o % 32 with
    | 0 => some x.sqBase.toNat
    | 8 => some x.cqBase.toNat
    | _ => none
  else none

/-- The wide quantity whose low register lies at an offset of PF0 BAR0: its value (R235). -/
def wideValue (s : State) (off : Nat) : Option Nat :=
  match off with
  | 0x200004 => some s.tbs.tick.toNat
  | 0x40001C => some s.fus.pkg.toNat
  | 0x500240 => some s.boot.updAddr.toNat
  | 0x900010 => some s.hlk.ringBase.toNat
  | 0xC00014 => some s.ldg.rcvAddr.toNat
  | 0xD00024 => some s.kvt.addr.toNat
  | 0xD0002C => some s.aon.msgCtr.toNat
  | 0xF0000C => some s.att.aggAddr.toNat
  | 0xF00018 => some s.att.txAddr.toNat
  | 0x2300028 => some (s.aon.calSecs.toNat + (calFrac s).toNat * 2 ^ 40)
  | 0x2300030 => some s.evr.calSet.toNat
  | _ =>
    let o := off % 0x100000
    if off / 0x100000 = 36 ∧ inArr o 0x1000 8 512 then some (pmcValue s ((o - 0x1000) / 8))
    else if off / 0x100000 = 8 ∧ 0x10000 ≤ o ∧ o < 0x30000 then wideJob s ((o - 0x10000) / 0x2000) (o % 0x2000)
    else none

/-- The counter whose low register lies at an offset (R447). -/
def pmcLow (off : Nat) : Option Nat :=
  if off / 0x100000 = 36 ∧ inArr (off % 0x100000) 0x1000 8 512 then some ((off % 0x100000 - 0x1000) / 8) else none

/-- The counters of a virtual function's page that belong to it, or to no partition or function (R443, R160). -/
def userMay (f : Fin 16) (i : Nat) : Bool :=
  if 240 ≤ i ∧ i < 264 then i = 248 + f.val
  else if 264 ≤ i ∧ i < 288 then i = 272 + f.val
  else if 352 ≤ i ∧ i < 368 then i = 352 + f.val
  else if 368 ≤ i ∧ i < 384 then i = 368 + f.val
  else if 448 ≤ i ∧ i < 464 then i = 448 + f.val
  else true

/-- As `wideValue`, in a virtual function's BAR0 (R233, R443): its user page, and its own JOB block. -/
def vfWide (s : State) (f : Fin 16) (off : Nat) : Option Nat :=
  if inArr off 0x40000 8 512 then
    let i := (off - 0x40000) / 8
    some (if s.pmc.userEn && userMay f i then pmcValue s i else 0)
  else if 0xA0000 ≤ off ∧ off < 0xA2000 then wideJob s f.val (off % 0x2000)
  else none

end Sys2Proof.Machine
end

