-- ==== Sys2Proof/Machine/Saddleop.lean ====
section
/-! DEFINITION. The decision of a platform command on a flash channel, its emulated registers, and the redirected updates
(R275 to R295, R466). -/

namespace Sys2Proof.Machine

/-- The class of an opcode on a channel (R287). -/
def opClass (x : Channel) (op : BitVec 8) : Nat := (opcEntry x.cfg op).toNat % 16

/-- The address bytes of an opcode: 0, 3 or 4. -/
def opAddr (x : Channel) (op : BitVec 8) : Nat :=
  match (opcEntry x.cfg op).toNat / 16 % 4 with
  | 1 => 3 | 2 => 4 | _ => 0

/-- NOADDR_ACT of an opcode. -/
def opNoAddr (x : Channel) (op : BitVec 8) : Nat := (opcEntry x.cfg op).toNat / 2048 % 4

/-- EREG of an opcode. -/
def opEreg (x : Channel) (op : BitVec 8) : Fin 8 := Fin.ofNat 8 ((opcEntry x.cfg op).toNat / 8192)

/-- The read classes (R283). -/
def readClass (k : Nat) : Bool := k = 1 || k = 2 || k = 5 || k = 7

/-- The write classes (R283). -/
def writeClass (k : Nat) : Bool := k = 3 || k = 4 || k = 6 || k = 8

/-- The chip select of the presented device outside image objects (R275). -/
def presCs1 (x : Channel) : Bool := x.cfg.layout == 2#2

/-- The size of the block an addressed erase opcode erases (R466). -/
def eraseSize (x : Channel) (op : BitVec 8) : Nat := ((x.eraseSizes.find? fun e => e.1 == op).map (·.2)).getD 1

/-- The address a command is tested at: of the opcode's address bytes, an addressed erase at the start of its block (R284,
R466). -/
def testAddr (x : Channel) (k : FlashCmd) : Nat :=
  let a := if opAddr x k.opcode = 3 then k.addr.toNat % 2 ^ 24 else if opAddr x k.opcode = 4 then k.addr.toNat else 0
  if opClass x k.opcode = 4 && opAddr x k.opcode ≠ 0 then a / eraseSize x k.opcode * eraseSize x k.opcode else a

/-- The bytes a write of the flash's array touches from its tested address. -/
def reachLen (x : Channel) (k : FlashCmd) : Nat :=
  if opClass x k.opcode = 4 then eraseSize x k.opcode else k.data.length

/-- A program or erase reaches a range of a flash: the checks of the slots there stand no more (R319). -/
def reachSlots (c : Fin 16) (cs1 : Bool) (a n : Nat) (s : State) : State :=
  allObjs.foldl (fun s o =>
    match s.ldg.objs[o].cfg with
    | none => s
    | some e =>
      if e.ch = c && (!cs1 || hasSlotB s o) && decide (a < e.base.toNat + e.len.toNat ∧ e.base.toNat < a + n) then
        unstand o cs1 s
      else s) s

/-- A write class on its way to a flash ends what rests on its range; one without an address reaches the whole flash. -/
def reachCmd (c : Fin 16) (cs1 : Bool) (k : FlashCmd) (s : State) : State :=
  let x := s.sdl.ch[c]
  let cls := opClass x k.opcode
  if cls = 3 || cls = 4 then
    (if opAddr x k.opcode = 0 then reachSlots c cs1 0 (2 ^ 32) s else reachSlots c cs1 (testAddr x k) (reachLen x k) s)
  else s

/-- WIP as the platform sees it (R289, R291). -/
def wipSeen (x : Channel) : Bool := x.wip || x.wipOnce

/-- An emulated register as read, the Saddle's own bits in place (R290). -/
def eregView (x : Channel) (r : Fin 8) : BitVec 64 :=
  if r = 0 then bvPut (bvPut x.eregs[r] 0 (wipSeen x)) 1 x.wel
  else if r = 1 then bvPut x.eregs[r] 7 (!wipSeen x)
  else x.eregs[r]

/-- A register's 8 bytes, repeated for as long as the platform clocks (R290). -/
def eregBytes (x : Channel) (r : Fin 8) (n : Nat) : Bytes :=
  (List.range n).map fun i => BitVec.ofNat 8 ((eregView x r).toNat / 256 ^ (i % 8))

/-- A read of an emulated register; a status read ends the one WIP of an emulated write (R289). -/
def eregRead (c : Fin 16) (r : Fin 8) (n : Nat) (s : State) : State :=
  let s := emit (.platReply c (eregBytes s.sdl.ch[c] r n)) s
  if decide (r.val ≤ 1) then modCh c (fun x => { x with wipOnce := false }) s else s

/-- Data written to an emulated register replaces its bytes (R289). -/
def eregPut (v : BitVec 64) (d : Bytes) : BitVec 64 :=
  BitVec.ofNat 64 (leNat ((List.range 8).map fun i => d.getD i (BitVec.ofNat 8 (v.toNat / 256 ^ i))))

/-- A command is denied (R289): the count, the last denial, a write class's flags, and the fill byte for a reader. `mal` is the
cause of event 0xA011, 0 for event 0xA010. A write class without WEL sets no flag of EREG 1 (DEDUCED, R290). -/
def deny (c : Fin 16) (k : FlashCmd) (rule mal : Nat) (fill : BitVec 8) (flags : Bool) (s : State) : State :=
  let x := s.sdl.ch[c]
  let cls := opClass x k.opcode
  let a := testAddr x k
  let s := modCh c (fun x => { x with
    deny := bvSat x.deny 1, ldOpcode := k.opcode, ldRule := BitVec.ofNat 8 rule, ldPage := BitVec.ofNat 16 (a / 65536),
    wel := x.wel && !writeClass cls,
    eregs := if flags && (cls = 3 || cls = 4) then x.eregs.set 1 (bvPut x.eregs[1] (if cls = 3 then 4 else 5) true)
      else x.eregs }) s
  let s := pmcAdd (304 + c.val) 1 s
  let s := if writeClass cls then s else emit (.platFill c fill) s
  if mal ≠ 0 then ev 0xA011#16 c.val mal k.opcode.toNat s
  else ev 0xA010#16 c.val (k.opcode.toNat * 256 + rule) a s

/-- A hit that device ready would have to answer is denied and counted (R74). -/
def denyEarly (c : Fin 16) (k : FlashCmd) (rule : Nat) (fill : BitVec 8) (s : State) : State :=
  deny c k rule 0 fill true (s.modRst fun r => { r with emuHits := r.emuHits + 1 })

/-- Which malformed command this is (R284 order 1): the cause of event 0xA011, 0 none. -/
def malformed (x : Channel) (k : FlashCmd) : Nat :=
  let dens := if presCs1 x then x.dens1 else x.dens0
  let cls := opClass x k.opcode
  if x.cfg.xmode == 0#2 && !(k.ext == (if x.cfg.ext then k.opcode else ~~~k.opcode)) then 1
  else if opAddr x k.opcode ≠ 0 && (dens = 0 || decide (2 ^ dens ≤ testAddr x k)) then 2
  else if cls = 3 && decide (1024 < k.data.length) then 3
  else if presCs1 x && (writeClass cls || !x.golden) then 4
  else 0

/-- The address is in the commit mailbox's page (R284 order 2). -/
def inMailbox (x : Channel) (k : FlashCmd) : Bool :=
  x.cfg.commitAddr != 0xFFFFFFFF#32 && opAddr x k.opcode ≠ 0 && decide (testAddr x k / 4096 = x.cfg.commitAddr.toNat / 4096)

/-- The bit of a rule's OPS for a class (R286). -/
def opsBit (cls : Nat) : Nat :=
  match cls with
  | 1 => 0 | 2 => 1 | 3 => 2 | 4 => 3 | 5 => 4 | 6 => 4 | _ => 5

/-- The first rule that a command hits, with its index; a rule beyond the presented density never matches (R284, R286). -/
def ruleHit (x : Channel) (k : FlashCmd) : Option (Nat × Rule) :=
  let a := testAddr x k
  let dens := 2 ^ (if presCs1 x then x.dens1 else x.dens0)
  (((List.range x.cfg.rules.length).zip x.cfg.rules).find? fun p =>
    p.2.ops.getLsbD (opsBit (opClass x k.opcode)) && decide (p.2.base.toNat ≤ a ∧ a ≤ p.2.limit.toNat ∧ p.2.base.toNat < dens))

/-- An addressed erase does not lie within one rule's range, or meets one while it hits none (R466). -/
def eraseStray (x : Channel) (k : FlashCmd) (hit : Option (Nat × Rule)) : Bool :=
  if opClass x k.opcode = 4 && opAddr x k.opcode ≠ 0 then
    let a := testAddr x k
    let last := a + eraseSize x k.opcode - 1
    match hit with
    | some (_, r) => decide (r.limit.toNat < last)
    | none => x.cfg.rules.any fun r => decide (r.base.toNat ≤ last ∧ a ≤ r.limit.toNat)
  else false

/-- What is decided of a command of class 1 to 8 (R284 orders 5 to 7): the action, the rule index to report, the fill byte and
the rule. -/
structure Decided where
  /-- 0 ALLOW, 1 DENY, 2 EMULATE, 3 REDIRECT -/
  action : Nat
  /-- the rule's index, 0xFE for the default action, 0xFF for a fixed decision -/
  index : Nat
  /-- the fill byte -/
  fill : BitVec 8
  /-- the rule -/
  rule : Option Rule
  /-- an erase not within one rule's range -/
  stray : Bool

/-- The decision of R284, orders 5 to 7. -/
def decide284 (x : Channel) (k : FlashCmd) : Decided :=
  if opAddr x k.opcode = 0 then ⟨opNoAddr x k.opcode, 0xFF, x.cfg.fill, none, false⟩
  else
    let hit := ruleHit x k
    let stray := eraseStray x k hit
    match hit with
    | some (i, r) => ⟨r.action.toNat, i, r.fill, some r, stray⟩
    | none => ⟨if x.cfg.defaultAllow then 0 else 1, 0xFE, x.cfg.fill, none, stray⟩

/-- The object of a PAIRED channel whose slot range holds an address (R275, R311). -/
def pairedObj (s : State) (c : Fin 16) (a : Nat) : Option (Fin 64) :=
  allObjs.find? fun o => match s.ldg.objs[o].cfg with
    | some e => e.ch = c && hasSlotB s o && liesIn a e.base.toNat e.len.toNat
    | none => false

/-- The chip select that an allowed command reaches (R275, R289, R466); `staged` takes S′ while a redirection is open. -/
def routeCs1 (s : State) (c : Fin 16) (k : FlashCmd) (staged : Bool) : Bool :=
  let x := s.sdl.ch[c]
  if opAddr x k.opcode = 0 then presCs1 x
  else if presCs1 x then true
  else match pairedObj s c (testAddr x k) with
    | none => false
    | some o => if staged && s.ldg.objs[o].redir then stagingB s o else s.ldg.objs[o].chosen && s.ldg.objs[o].sel

/-- The Saddle issues a held write class: its own WREN, then the command; the presented device is busy until the flash is ready
(R283, R291). -/
def issueWrite (c : Fin 16) (cs1 : Bool) (k : FlashCmd) (s : State) : State :=
  let s := reachCmd c cs1 k s
  let s := modCh c (fun x => { x with wel := false, wip := true, writeBusy := some (k.opcode, cs1) }) s
  emit (.flashCmd c cs1 k.opcode k.addr k.data) (emit (.flashCmd c cs1 0x06#8 0#32 []) s)

/-- Open redirections of a channel (R294). -/
def openRedirs (s : State) (c : Fin 16) : Nat :=
  (allObjs.filter fun o => s.ldg.objs[o].redir && s.ldg.objs[o].redirCh == some c).length

/-- Steps 1 to 4 of an update (R294, R295): the redirection opens, unless four are open or an append is not possible. -/
def openRedir (c : Fin 16) (o : Fin 64) (k : FlashCmd) (d : Decided) (s : State) : State :=
  let n := openRedirs s c
  let refused (cause : Nat) (s : State) : State :=
    ev 0xA025#16 c.val o.val (n * 256 + cause) (deny c k d.index 0 d.fill true s)
  if decide (4 ≤ n) then refused 1 s
  else
    let b := stagingB s o
    let l := latestSt s o.val b
    let (ok, s) := if l = 2 || l = 3 then ledRestate o b 4 (some 1) s else (true, s)
    let (ok, s) := if ok then ledAppend o b 1 1 0#32 0#16 0#256 s else (false, s)
    if !ok then refused 2 s
    else
      let s := modObj o (fun x => { x with redir := true, redirCh := some c, redirPhase := 1 }) s
      let s := ev 0xA020#16 c.val o.val (if b then 1 else 0) (setMbox c o 1 0 s)
      issueWrite c b k s

/-- A program or erase under REDIRECT (R289, R294). -/
def redirect (c : Fin 16) (k : FlashCmd) (d : Decided) (s : State) : State :=
  match d.rule.bind (·.object) with
  | none => deny c k d.index 0 d.fill true s
  | some o =>
    let x := s.ldg.objs[o]
    if !x.redir then openRedir c o k d s
    else if x.redirPhase = 1 then issueWrite c (stagingB s o) k s
    else deny c k d.index 0 d.fill true s

/-- A leaf of the active slot that a checked read touches: its place in the cache (R298). -/
def readLeaves (s : State) (c : Fin 16) (r : Rule) (k : FlashCmd) : Bool × List Nat :=
  match r.object with
  | none => (false, [])
  | some o =>
    let x := s.ldg.objs[o]
    let cs1 := x.chosen && x.sel
    match x.cfg, (if cs1 then x.manB else x.manA) with
    | some e, some m =>
      let a := testAddr s.sdl.ch[c] k
      let lo := e.base.toNat
      let hi := lo + m.size.toNat
      let last := a + k.len
      let inside := decide (lo ≤ a ∧ last ≤ hi ∧ a < last)
      let first := (max a lo - lo) / 4096
      let n := if a < min last hi ∧ lo < last then (min last hi - 1 - lo) / 4096 + 1 - first else 0
      (inside, (List.range n).map fun i => leafKey cs1 (lo + 4096 * (first + i)))
    | _, _ => (false, [])

/-- The bytes of cached leaves that a read asks for (R298). -/
def fromLeaves (a n : Nat) (ls : List Bytes) : Bytes := slice (ls.foldl (· ++ ·) []) (a % 4096) n

/-- Queue a leaf for checking; `false` where the queue of 16 is full (R298, R299). -/
def queueLeaf (c : Fin 16) (key : Nat) (s : State) : Bool × State :=
  let q := s.sdl.ch[c].cvQueue
  if key ∈ q then (true, s)
  else if decide (q.length < 16) then (true, leaveIdle (modCh c (fun x => { x with cvQueue := q ++ [key] }) s))
  else (false, s)

/-- A read under continuous verification (R298, R299). -/
def checkedRead (c : Fin 16) (cs1 : Bool) (r : Rule) (k : FlashCmd) (s : State) : State :=
  let x := s.sdl.ch[c]
  let (inside, keys) := readLeaves s c r k
  let hits := keys.filterMap fun key => assocGet x.cache key
  let s := pmcAdd (336 + c.val) hits.length s
  let s := keys.foldl (fun s key => touchLeaf c key s) s
  if inside && hits.length = keys.length && !keys.isEmpty then
    emit (.platReply c (fromLeaves (testAddr x k) k.len hits)) s
  else
    let s := emit (.flashPass c cs1 k.opcode k.addr []) s
    let (full, s) := (keys.filter fun key => (assocGet x.cache key).isNone).foldl (fun p key =>
      let (ok, s) := queueLeaf c key p.2
      (p.1 || !ok, s)) (false, s)
    if full then modCh c (fun x => { x with unchecked := bvSat x.unchecked 1, uncheckedFrame := x.uncheckedFrame + 1 }) s
    else s

/-- An allowed read class (R289). -/
def allowRead (c : Fin 16) (k : FlashCmd) (d : Decided) (s : State) : State :=
  let staged := (d.rule.map (·.readStaged)).getD false
  let opened := match pairedObj s c (testAddr s.sdl.ch[c] k) with
    | some o => staged && s.ldg.objs[o].redir
    | none => false
  let cs1 := routeCs1 s c k staged
  match d.rule with
  | some r =>
    if r.contver && s.sdl.ch[c].cvOn && !opened then checkedRead c cs1 r k s
    else emit (.flashPass c cs1 k.opcode k.addr []) s
  | none => emit (.flashPass c cs1 k.opcode k.addr []) s

/-- A command answered by EMULATE (R289, R290). -/
def emulate (c : Fin 16) (k : FlashCmd) (d : Decided) (s : State) : State :=
  let x := s.sdl.ch[c]
  let cls := opClass x k.opcode
  let r := opEreg x k.opcode
  let s := pmcAdd (304 + c.val) 1 (modCh c (fun x => { x with emu := bvSat x.emu 1 }) s)
  if cls = 5 then eregRead c r k.len s
  else if readClass cls then emit (.platFill c d.fill) s
  else
    modCh c (fun x => { x with
      wel := false, wipOnce := true,
      eregs := if cls ≠ 6 then x.eregs
        else if k.data.isEmpty then
          (if r = 1 then x.eregs.set 1 (bvPut (bvPut x.eregs[1] 4 false) 5 false) else x.eregs)
        else x.eregs.set r (eregPut x.eregs[r] k.data) }) s

/-- Orders 5 to 7 of R284, for classes 1 to 8. -/
def decideAction (c : Fin 16) (k : FlashCmd) (s : State) : State :=
  let x := s.sdl.ch[c]
  let cls := opClass x k.opcode
  let d := decide284 x k
  if d.stray then deny c k d.index 5 d.fill true s
  else if d.action = 2 && !s.glb.ready then denyEarly c k d.index d.fill s
  else if d.action = 1 then deny c k d.index 0 d.fill true s
  else if writeClass cls && !x.wel then deny c k d.index 0 d.fill false s
  else if d.action = 2 then emulate c k d s
  else if d.action = 3 && writeClass cls then redirect c k d s
  else if writeClass cls then
    issueWrite c (if cls = 4 && opAddr x k.opcode = 0 then false else routeCs1 s c k false) k s
  else allowRead c k d s

/-- A commit request (R293 to R295): the RESULT for SDL_CMD, and the state after. `src` is 1 mailbox, 2 host. -/
def commitReq (c : Fin 16) (o : Fin 64) (src : Nat) (s : State) : Nat × State :=
  let x := s.ldg.objs[o]
  if !(x.redir && x.redirCh == some c) then (3, setMbox c o 0 1 s)
  else if x.redirPhase ≠ 1 then (3, s)
  else
    let s := modObj o (fun x => { x with redirPhase := 2 }) s
    (0, leaveIdle (ev 0xA021#16 c.val o.val src (setMbox c o 2 0 s)))

/-- An abandon request (R295): not while a commit is in progress. -/
def abandonReq (c : Fin 16) (o : Fin 64) (src : Nat) (s : State) : Nat × State :=
  let x := s.ldg.objs[o]
  if !(x.redir && x.redirCh == some c) || x.redirPhase ≠ 1 then (3, s)
  else (0, abandonRedir o src s)

/-- The mailbox's page as read (R293). -/
def mboxBytes (x : Channel) (n : Nat) : Bytes :=
  (List.range n).map fun i =>
    match i % 16 with
    | 0 => BitVec.ofNat 8 x.mboxState | 1 => x.mboxObj.setWidth 8 | 2 => BitVec.ofNat 8 x.mboxRes | _ => 0#8

/-- A request programmed to the mailbox (R293): only a whole one acts. -/
def mboxProgram (c : Fin 16) (d : Bytes) (s : State) : State :=
  let o := leAt d 4 1
  if leAt d 0 4 = 0x54494D43 && (slice d 6 10).all (· == 0#8) then
    if h : o < 64 then
      match leAt d 5 1 with
      | 1 => (commitReq c ⟨o, h⟩ 1 s).2
      | 2 => (abandonReq c ⟨o, h⟩ 1 s).2
      | _ => s
    else s
  else s

/-- A command in the mailbox's page (R284 order 2, R293, R74). -/
def mailboxCmd (c : Fin 16) (k : FlashCmd) (s : State) : State :=
  let x := s.sdl.ch[c]
  let cls := opClass x k.opcode
  if !s.glb.ready then denyEarly c k 0xFF x.cfg.fill s
  else if readClass cls then emit (.platReply c (mboxBytes x k.len)) s
  else if writeClass cls && !x.wel then deny c k 0xFF 0 x.cfg.fill false s
  else if cls = 3 && testAddr x k % 4096 = 0 && k.data.length = 16 then
    mboxProgram c k.data (modCh c (fun x => { x with wel := false }) s)
  else deny c k 0xFF 0 x.cfg.fill true s

/-- A presented device's reset (R292): once the issued operation has ended, the registers are loaded again. -/
def presentedReset (c : Fin 16) (src : Nat) (s : State) : State :=
  if s.sdl.ch[c].writeBusy.isSome then
    let s := modCh c (fun x => { x with rstPend := true, rstArmed := false, wip := true }) s
    let (w, s) := drawFree 32 s
    raise 0xA040#16 (p32 c.val) (p32 src) w s
  else ev 0xA040#16 c.val src 0 (eregLoad c (modCh c (fun x => { x with wip := false }) s))

/-- What DISCOVERY opcodes answer (R290, R288): the identity, the unique ID, and of the SFDP, whose bytes the device does not
hold, free bytes. -/
def discoveryReply (c : Fin 16) (k : FlashCmd) (s : State) : State :=
  let x := s.sdl.ch[c]
  let id := if presCs1 x then x.jedec1 else x.jedec0
  let uid := if presCs1 x then x.uid1 else x.uid0
  if k.opcode == 0x9F#8 then emit (.platReply c (beBytes 3 id.toNat)) s
  else if k.opcode == 0x5A#8 then
    let (v, s) := drawFree (8 * k.len) s
    emit (.platReply c (leBytes k.len v.toNat)) s
  else emit (.platReply c (beBytes 8 uid)) s

/-- Fixed emulation of classes 9 to 13 (R290). -/
def fixedCmd (c : Fin 16) (k : FlashCmd) (armed : Bool) (s : State) : State :=
  match opClass s.sdl.ch[c] k.opcode with
  | 9 => discoveryReply c k s
  | 10 =>
    if k.opcode == 0x06#8 then modCh c (fun x => { x with wel := true }) s
    else if k.opcode == 0x04#8 then modCh c (fun x => { x with wel := false }) s
    else s
  | 11 =>
    if k.opcode == 0x66#8 then modCh c (fun x => { x with rstArmed := true }) s
    else if k.opcode == 0x99#8 && armed then presentedReset c 2 s
    else s
  | _ => s

/-- A platform command on a FILTERING channel (R284). -/
def filterCmd (c : Fin 16) (k : FlashCmd) (s : State) : State :=
  let armed := s.sdl.ch[c].rstArmed
  let s := modCh c (fun x => { x with rstArmed := false }) s
  let x := s.sdl.ch[c]
  let cls := opClass x k.opcode
  if malformed x k ≠ 0 then deny c k 0xFF (malformed x k) x.cfg.fill true s
  else if x.wip && (readClass cls || writeClass cls) then
    if cls = 5 && decide ((opEreg x k.opcode).val ≤ 1) then emit (.platReply c (eregBytes x (opEreg x k.opcode) k.len)) s
    else if readClass cls then emit (.platFill c x.cfg.fill) s
    else s
  else if decide (1 ≤ cls ∧ cls ≤ 8) && inMailbox x k then mailboxCmd c k s
  else if cls = 0 || decide (14 ≤ cls) then deny c k 0xFF 0 x.cfg.fill true s
  else if decide (9 ≤ cls) then fixedCmd c k armed s
  else decideAction c k s

/-- A platform command on a PASS channel: forwarded unaltered (R279, R304). -/
def passCmd (c : Fin 16) (k : FlashCmd) (s : State) : State :=
  let cs1 := s.sdl.ch[c].passCs1
  emit (.flashPass c cs1 k.opcode k.addr k.data) (reachCmd c cs1 k s)

/-- A command of a class arrives at a channel's platform port; one that is closed or isolated sees none (R25, R279). A command
whose opcode is of another class is none of this row's. -/
def platCmd (want : Nat → Bool) (c : Fin 16) (k : FlashCmd) (s : State) : State :=
  let x := s.sdl.ch[c]
  if x.isolated || !want (opClass x k.opcode) then s
  else match x.mode with
    | .filtering => filterCmd c k (pmcAdd (288 + c.val) 1 s)
    | .pass => passCmd c k (pmcAdd (288 + c.val) 1 s)
    | _ => s

end Sys2Proof.Machine
end

