-- ==== Sys2Proof/Machine/Release.lean ====
section
/-! DEFINITION. The meanings of the commands of the release sequencer (chapter 12): slot checks, delays, holds and readback. -/

namespace Sys2Proof.Machine

/-- A slot check is due (R317, R319): a domain in VERIFYING requires the object, the ledger has been read, and the slot has no
standing check. -/
def checkDue (s : State) (o : Fin 64) (b : Bool) : Bool :=
  let x := s.ldg.objs[o]
  x.cfg.isSome && ledRead s && !(if b then x.doneB else x.doneA) &&
    allDoms.any fun d => requires s d o && s.prs.dom[d].st == .verifying

/-- The slot's channel lets it be read now, or its discovery has failed (R318): VERIFYING, or the idle time of FILTERING for an
object of several domains. -/
def checkReads (s : State) (o : Fin 64) (f : SlotFacts) : Bool :=
  match s.ldg.objs[o].cfg with
  | some e =>
    let x := s.sdl.ch[e.ch]
    ((x.mode == .verifying && (x.discovered || (x.fault ≠ 0 && f.fault))) || x.mode == .filtering) && x.devOp.isNone &&
      x.writeBusy.isNone
  | none => false

/-- SLOT_CHECK_DONE (R318, R319): a slot's check, or that of a golden copy, which a recovery boot may await (R333). -/
def doSlotCheckDone (o : Fin 64) (w : SlotSel) (f : SlotFacts) (s : State) : State :=
  let slot (b : Bool) (s : State) : State :=
    if checkDue s o b && checkReads s o f then
      let (code, m) := slotCode ⟨true, true, true⟩ o b f s
      let s := keepCheck o (if b then .b else .a) code m s
      let s := if code = 0 then s else ev 0xB023#16 (o.val * 2 + (if b then 1 else 0)) code 0 s
      settle (chooseSlot o s)
    else s
  match w with
  | .a => slot false s
  | .b => slot true s
  | .golden =>
    if ((s.ldg.objs[o].cfg.map (·.goldOff)).getD 0xFFFFFFFF#32) == 0xFFFFFFFF#32 || !chPresent s 15 then s
    else
      let (code, _, s) := checkGolden o f s
      if s.ldg.rcvSrc = 2 && s.ldg.rcvStage = 2 && s.boot.eff.agentObj == some o then agentGolden code s else s

/-- RELEASE_DELAY_EXPIRY (R316): the delay runs from the last predecessor's release. -/
def doReleaseDelayExpiry (d : Fin 32) (s : State) : State :=
  let x := s.prs.dom[d]
  let preds := (bitsOf (predsOf s d)).all fun e => if h : e < 32 then s.prs.dom[e].st == .released else true
  if x.st == .verifying && !x.delayDone && preds then settle (modDom d (fun x => { x with delayDone := true }) s) else s

/-- PRS_CMD (R335): the key and the plan, then the operation; a refusal is logged. -/
def prsCmd (a : Agent) (key : BitVec 16) (op : Nat) (d : Fin 32) (k : State → Nat × State) (s : State) : State :=
  access a 0xB00010 (fun s =>
    let (r, s) := if key ≠ 0x3A71#16 then (1, s) else if s.prs.dom[d].plan.isNone then (2, s) else k s
    let s := s.modPrs fun p => { p with result := BitVec.ofNat 4 r }
    if r = 0 then s else ev 0xB010#16 op r 0 s) s

/-- PRS_HOLD (R308). -/
def doPrsHold (a : Agent) (key : BitVec 16) (d : Fin 32) (s : State) : State :=
  prsCmd a key 1 d (fun s => (0, settle (hold d 0 s))) s

/-- PRS_RELEASE (R308). -/
def doPrsRelease (a : Agent) (key : BitVec 16) (d : Fin 32) (s : State) : State :=
  prsCmd a key 2 d (fun s => if s.prs.dom[d].hold.getLsbD 0 then (0, settle (unhold d 0 s)) else (3, s)) s

/-- PRS_RESTART (R308). -/
def doPrsRestart (a : Agent) (key : BitVec 16) (d : Fin 32) (s : State) : State :=
  prsCmd a key 3 d (fun s => (0, settle (hold d 7 s))) s

/-- HOLD_CAUSE_TIMER (R308): WDOG and RESTART end after 1 ms of DOM_RST# asserted, PG after 1 ms of DOM_PG good. -/
def doHoldCauseTimer (d : Fin 32) (bit : Fin 8) (s : State) : State :=
  let ended := s.prs.dom[d].hold.getLsbD bit.val &&
    (((bit.val = 2 || bit.val = 7) && s.pins.domRst.getLsbD d.val) || (bit.val = 4 && s.pins.domPg.getLsbD d.val))
  if ended then settle (unhold d bit.val s) else s

/-- DOM_PG_CHANGE (R308, R62). -/
def doDomPgChange (d : Fin 32) (good : Bool) (s : State) : State :=
  let s := s.modPins fun p => { p with domPg := bvPut p.domPg d.val good }
  if !pgEnabled s d then s
  else if good then s.modPwr fun p => { p with retainRefused := false }
  else settle (hold d 4 s)

/-- READBACK_LOW (R309): a line reads low; a released one for longer than 1 ms is logged once an episode. -/
def doReadbackLow (d : Fin 32) (ms : BitVec 32) (s : State) : State :=
  let s := modDom d (fun x => { x with rbHigh := false }) s
  if !s.pins.domRst.getLsbD d.val && decide (1 ≤ ms.toNat) && !s.prs.dom[d].rbLogged then
    ev 0xB012#16 d.val ms.toNat 0 (modDom d (fun x => { x with rbLogged := true }) s)
  else s

/-- READBACK_HIGH (R309): a line reads high, which an asserted one should not; a released one's episode ends. -/
def doReadbackHigh (d : Fin 32) (s : State) : State :=
  let s := modDom d (fun x => { x with rbHigh := true, rbLogged := false }) s
  if s.pins.domRst.getLsbD d.val then ev 0xB013#16 d.val 0 0 s else s

/-- SLOT_CHECK_DONE. -/
def execSlotCheckDone (o : Fin 64) (w : SlotSel) (f : SlotFacts) (s : State) : Host.Outcome State Fault Refusal :=
  .next (doSlotCheckDone o w f s)

/-- RELEASE_DELAY_EXPIRY. -/
def execReleaseDelayExpiry (d : Fin 32) (s : State) : Host.Outcome State Fault Refusal :=
  .next (doReleaseDelayExpiry d s)

/-- PRS_HOLD. -/
def execPrsHold (a : Agent) (key : BitVec 16) (d : Fin 32) (s : State) : Host.Outcome State Fault Refusal :=
  .next (doPrsHold a key d s)

/-- PRS_RELEASE. -/
def execPrsRelease (a : Agent) (key : BitVec 16) (d : Fin 32) (s : State) : Host.Outcome State Fault Refusal :=
  .next (doPrsRelease a key d s)

/-- PRS_RESTART. -/
def execPrsRestart (a : Agent) (key : BitVec 16) (d : Fin 32) (s : State) : Host.Outcome State Fault Refusal :=
  .next (doPrsRestart a key d s)

/-- HOLD_CAUSE_TIMER. -/
def execHoldCauseTimer (d : Fin 32) (bit : Fin 8) (s : State) : Host.Outcome State Fault Refusal :=
  .next (doHoldCauseTimer d bit s)

/-- DOM_PG_CHANGE. -/
def execDomPgChange (d : Fin 32) (good : Bool) (s : State) : Host.Outcome State Fault Refusal :=
  .next (doDomPgChange d good s)

/-- READBACK_LOW. -/
def execReadbackLow (d : Fin 32) (ms : BitVec 32) (s : State) : Host.Outcome State Fault Refusal :=
  .next (doReadbackLow d ms s)

/-- READBACK_HIGH. -/
def execReadbackHigh (d : Fin 32) (s : State) : Host.Outcome State Fault Refusal := .next (doReadbackHigh d s)

end Sys2Proof.Machine
end

