-- ==== Sys2Proof/Machine/Saddle.lean ====
section
/-! DEFINITION. The meanings of the Saddle's own commands (chapter 11): discovery, staged checks, continuous verification,
SDL_CMD, flash power and isolation. -/

namespace Sys2Proof.Machine

/-- The first opcode of a channel's table that a test finds, in opcode order. -/
def firstOpcode (f : BitVec 8 → Bool) : Option (BitVec 8) := ((List.range 256).map (BitVec.ofNat 8)).find? f

/-- The opcode whose dummy count is below the flash's minimum (R282 step 2). -/
def shortDummy (x : Channel) (g : FlashId) : Option (BitVec 8) :=
  firstOpcode fun op => readClass (opClass x op) &&
    g.minDummy.any fun e => e.1 == op && decide ((opcEntry x.cfg op).toNat / 64 % 32 < e.2)

/-- The addressed ERASE opcode whose size the flash does not declare (R282 step 2, R466). -/
def noEraseSize (x : Channel) (g : FlashId) : Option (BitVec 8) :=
  firstOpcode fun op => opClass x op = 4 && opAddr x op ≠ 0 && !g.erases.any fun e => e.1 == op

/-- The failing check of one flash (R282 steps 1 and 2): the cause, with the opcode it names. -/
def flashCheck (x : Channel) (g : FlashId) : Option (Nat × Option (BitVec 8)) :=
  if !g.sfdpOk then some (2, none)
  else if !g.modeOk then some (3, none)
  else match shortDummy x g with
    | some op => some (5, some op)
    | none => match noEraseSize x g with
      | some op => some (6, some op)
      | none => none

/-- What is wrong at a chip select (R282): the cause of event 0xA003, with the opcode it names. -/
def csCheck (x : Channel) (cs1 : Bool) (r : DiscIn) : Option (Nat × Option (BitVec 8)) :=
  match (if cs1 then r.cs1 else r.cs0) with
  | some g => match flashCheck x g with
    | some e => some e
    | none =>
      if cs1 && x.cfg.layout == 1#2 && (r.cs0.map fun h => !(h.jedec == g.jedec) || h.dens ≠ g.dens).getD true then some (4, none)
      else none
  | none =>
    if !cs1 && x.cfg.layout != 2#2 then some (1, none)
    else if cs1 && x.cfg.layout == 1#2 then some (4, none)
    else none

/-- One chip select's flash, or its permitted absence, is recorded (R282, R304). -/
def csFound (c : Fin 16) (cs1 : Bool) (g : Option FlashId) (s : State) : State :=
  let j := (g.map (·.jedec)).getD 0#24
  let d := (g.map (·.dens)).getD 0
  let u := (g.map (·.uid)).getD 0
  let s := modCh c (fun x => if cs1 then { x with jedec1 := j, dens1 := d, uid1 := u }
    else { x with jedec0 := j, dens0 := d, uid0 := u }) s
  ev 0xA002#16 (2 * c.val + (if cs1 then 1 else 0)) j.toNat d s

/-- A discovery fails (R282): the channel stays in VERIFYING. An opcode that the cause does not name is a free value. -/
def discFails (c : Fin 16) (cs1 : Bool) (e : Nat × Option (BitVec 8)) (s : State) : State :=
  let s := modCh c (fun x => { x with fault := e.1 }) s
  let n := c.val * 2 + (if cs1 then 1 else 0)
  match e.2 with
  | some op => ev 0xA003#16 n e.1 op.toNat s
  | none => evFree2 0xA003#16 n e.1 s

/-- One chip select's turn in a discovery: whether it goes on, and the state after. -/
def discTurn (c : Fin 16) (cs1 : Bool) (r : DiscIn) (s : State) : Bool × State :=
  let g := if cs1 then r.cs1 else r.cs0
  match csCheck s.sdl.ch[c] cs1 r with
  | some e => (false, discFails c cs1 e (if g.isSome then csFound c cs1 g s else s))
  | none => (true, csFound c cs1 g s)

/-- The rediscovery that ends a power cycle (R302). -/
def cycleDone (c : Fin 16) (s : State) : State :=
  if s.sdl.ch[c].cycled then
    let s := modCh c (fun x => { x with cycled := false }) s
    ev 0xA042#16 c.val 0 0 (s.modSdl fun d => { d with busy := false })
  else s

/-- After channel 15's discovery the ledger and the spill area are read (R325, R327, R433). -/
def after15 (s : State) : State :=
  let s := if ledRead s then s else sweep (readLedger s)
  if s.evr.spillOn then s else spillScan s

/-- DISCOVERY (R282): of a channel in VERIFYING, powered, with nothing under way on its flashes. -/
def doDiscovery (c : Fin 16) (r : DiscIn) (s : State) : State :=
  let x := s.sdl.ch[c]
  if x.mode == .verifying && !x.discovered && s.pwr.vflashOn && !x.pwrCycle && x.fault = 0 && x.devOp.isNone &&
      x.writeBusy.isNone then
    let (ok, s) := discTurn c false r s
    let (ok, s) := if ok then discTurn c true r s else (false, s)
    let es := ((if x.cfg.layout == 2#2 then r.cs1 else r.cs0).map (·.erases)).getD []
    let s := if ok then modCh c (fun x => { x with discovered := true, eraseSizes := es }) s else s
    let s := cycleDone c s
    settle (if c = 15 then after15 s else s)
  else s

/-- IMAGE_CHECK's checks of a staged slot, then the ledger floor (R294 step 7, R270): the first that fails, in the order of the
results; a read fault's result is not stated. -/
def stagedCode (o : Fin 64) (f : SlotFacts) (s : State) : Nat × Option ManInfo :=
  let len := ((s.ldg.objs[o].cfg.map (·.len)).getD 0#32).toNat
  match parseMan o.val f.man with
  | none => (1, none)
  | some m =>
    let g := manSigs s f.man
    (if g ≠ 0 then g
    else if !manFits f.man len then 5
    else if !rootOk f.man f.root then 6
    else if decide (m.secver.toNat < fusedFloor s o.val) then 7
    else if decide (m.secver.toNat < ledFloor s o.val) then 8
    else 0, some m)

/-- A redirection closes. -/
def closeRedir (o : Fin 64) (s : State) : State :=
  modObj o (fun x => { x with redir := false, redirCh := none, redirPhase := 0 }) s

/-- Step 8 of a failed update (R294, R295): S′ is erased and RETIRED; an append that is not possible gives result 9. -/
def stagedFails (c : Fin 16) (o : Fin 64) (res : Nat) (s : State) : State :=
  let b := stagingB s o
  let (ok, s) := ledRestate o b 4 (some 1) (eraseSlot o b s)
  let r := if ok then res else 9
  ev 0xA023#16 o.val (if b then 1 else 0) r (setMbox c o 4 r (closeRedir o s))

/-- Step 8 of an update that passed (R294, R295). The check stands as this start's check of S′ (DEDUCED, R319). -/
def stagedPasses (c : Fin 16) (o : Fin 64) (m : ManInfo) (s : State) : State :=
  let b := stagingB s o
  let (ok, s) := ledAppend o b 2 1 m.version m.secver (digestOf m) s
  if !ok then ev 0xA023#16 o.val (if b then 1 else 0) 9 (setMbox c o 4 9 (closeRedir o s))
  else
    let s := keepCheck o (if b then .b else .a) 0 (some m) s
    ev 0xA022#16 o.val (if b then 1 else 0) m.version.toNat (setMbox c o 3 0 (closeRedir o s))

/-- STAGED_CHECK_DONE (R294 steps 7 and 8): after device ready, no issued operation on the channel (R80, R295). -/
def doStagedCheckDone (o : Fin 64) (f : SlotFacts) (s : State) : State :=
  let x := s.ldg.objs[o]
  match x.redirCh with
  | none => s
  | some c =>
    if x.redir && x.redirPhase = 2 && s.glb.ready && s.sdl.ch[c].writeBusy.isNone then
      if f.fault then
        let (v, s) := drawFree 4 s
        stagedFails c o v.toNat s
      else match (stagedCode o f s).2 with
        | some m => if (stagedCode o f s).1 = 0 then stagedPasses c o m s else stagedFails c o (stagedCode o f s).1 s
        | none => stagedFails c o (stagedCode o f s).1 s
    else s

/-- DEVICE_READ_STARVED (R296): once an episode, of a device read that waits on a FILTERING channel. -/
def doDeviceReadStarved (c : Fin 16) (kind : BitVec 3) (s : State) : State :=
  let x := s.sdl.ch[c]
  if x.mode == .filtering && !x.starved && decide (1 ≤ kind.toNat ∧ kind.toNat ≤ 4) then
    ev 0xA052#16 c.val kind.toNat 0 (modCh c (fun x => { x with starved := true }) s)
  else s

/-- The slot and leaf that a queue entry names: chip select 1, address, object, its manifest and the leaf's index (R298). -/
def queuedLeaf (s : State) (c : Fin 16) (key : Nat) : Option (Bool × Nat × Fin 64 × ManInfo × Nat) :=
  let cs1 := decide (2 ^ 32 ≤ key)
  let a := key % 2 ^ 32
  match copyAt s c cs1 a with
  | none => none
  | some p => match (if cs1 then s.ldg.objs[p.obj].manB else s.ldg.objs[p.obj].manA) with
    | none => none
    | some m => some (cs1, a, p.obj, m, (a - p.start) / 4096)

/-- The slots of an object whose active image has failed a leaf: the active one fails check 6, and one that has no standing
check and no usable record check 9 (DEDUCED, R299, R319). -/
def leafJudged (o : Fin 64) (s : State) : State :=
  let x := s.ldg.objs[o]
  let gone (b : Bool) : Bool := latestSt s o.val b ≠ 2 && latestSt s o.val b ≠ 3
  let lost (b : Bool) (s : State) : State := modObj o (fun x =>
    if b then { x with checkB := 9#4, doneB := true, okB := false } else { x with checkA := 9#4, doneA := true, okA := false }) s
  let s := modObj o (fun x =>
    if x.sel then { x with checkB := 6#4, doneB := true, okB := false }
    else { x with checkA := 6#4, doneA := true, okA := false }) s
  let other := !x.sel
  if !(if other then x.doneB else x.doneA) && gone other then lost other s else s

/-- A leaf of continuous verification fails (R299, R307): under CV_ACT 1 the owning domain leaves RELEASED for QUARANTINED.
Where another slot of the object is eligible, the recovery has nothing to restore and verification begins again (DEDUCED). -/
def cvFails (c : Fin 16) (o : Fin 64) (a : Nat) (s : State) : State :=
  let s := leafFails c o a s
  match s.sdl.ch[c].cfg.domain with
  | some d =>
    if s.sdl.ch[c].cfg.cvHold && s.prs.dom[d].st == .released then
      let s := cascadeFrom d (quarantine d o (leafJudged o (leaveReleased d .held s)))
      settle (if objFailed s o then s else recovered (modDom d (fun x => { x with st := .recovering }) s))
    else s
  | none => s

/-- CV_LEAF_CHECK (R298, R299): the oldest queued leaf is read in the platform's idle time and checked. -/
def doCvLeafCheck (c : Fin 16) (l : LeafIn) (s : State) : State :=
  let x := s.sdl.ch[c]
  match x.cvQueue with
  | [] => s
  | key :: rest =>
    if x.mode == .filtering && x.cvOn && x.devOp.isNone then
      let s := pmcAdd (320 + c.val) l.leaf.length (modCh c (fun x => { x with cvQueue := rest, starved := false }) s)
      match queuedLeaf s c key with
      | none => s
      | some (cs1, a, o, m, i) => if leafOk m i l then cacheLeaf c cs1 o a i m l s else cvFails c o a s
    else s

/-- SDL_CMD (R304): the key, BUSY and the channel, then the operation; a refusal is logged. -/
def sdlCmd (a : Agent) (key : BitVec 16) (op : Nat) (c : Option (Fin 16)) (k : State → Nat × State) (s : State) : State :=
  access a 0xA00008 (fun s =>
    let (r, s) := if key ≠ 0x5D1E#16 then (1, s)
      else if s.sdl.busy then (5, s)
      else if (c.map fun c => !chPresent s c).getD false then (2, s)
      else k s
    let s := s.modSdl fun d => { d with result := BitVec.ofNat 4 r }
    if r = 0 then s else ev 0xA060#16 op r 0 s) s

/-- SDL_COMMIT (R293, R304). -/
def doSdlCommit (a : Agent) (key : BitVec 16) (c : Fin 16) (o : Fin 64) (s : State) : State :=
  sdlCmd a key 1 (some c) (fun s => if s.sdl.ch[c].mode == .filtering then commitReq c o 2 s else (4, s)) s

/-- SDL_ABANDON (R295, R304). -/
def doSdlAbandon (a : Agent) (key : BitVec 16) (c : Fin 16) (o : Fin 64) (s : State) : State :=
  sdlCmd a key 2 (some c) (fun s => if s.sdl.ch[c].mode == .filtering then abandonReq c o 2 s else (4, s)) s

/-- PWR_CYCLE (R302): FL_PWR_EN falls, and whatever ran on the flashes with it. -/
def doPwrCycle (a : Agent) (key : BitVec 16) (c : Fin 16) (s : State) : State :=
  sdlCmd a key 3 (some c) (fun s =>
    let x := s.sdl.ch[c]
    if x.mode == .filtering || x.mode == .pass || !s.pwr.vflashOn then (4, s)
    else
      let s := modCh c (fun x => { x with pwrCycle := true, discovered := false, writeBusy := none, devOp := none, wip := false }) s
      let s := s.modPins fun p => { p with flPwr := bvPut p.flPwr c.val false }
      (0, s.modSdl fun d => { d with busy := true })) s

/-- PWR_CYCLE_END (R302): FL_PWR_EN rises again, and the channel is to be rediscovered in VERIFYING. -/
def doPwrCycleEnd (c : Fin 16) (s : State) : State :=
  if s.sdl.ch[c].pwrCycle then
    let s := s.modPins fun p => { p with flPwr := bvPut p.flPwr c.val true }
    let s := modCh c (fun x => { x with pwrCycle := false, cycled := true }) s
    if s.pwr.vflashOn then chVerify c s else s.modSdl fun d => { d with busy := false }
  else s

/-- GOLDEN_VIEW_OFF (R304, R305, R333). -/
def doGoldenViewOff (a : Agent) (key : BitVec 16) (s : State) : State :=
  sdlCmd a key 4 none (fun s => if s.sdl.ch[15].golden then (0, endSession 3 1 s) else (3, s)) s

/-- CONTVER_APPLY (R305): at the channel's idle point; the cache is empty then. -/
def doContverApply (c : Fin 16) (s : State) : State :=
  let x := s.sdl.ch[c]
  match x.cvPend with
  | some on =>
    if x.mode == .filtering && x.cvQueue.isEmpty then
      let s := modCh c (fun x => { x with cvOn := on, cvPend := none, cache := [], cvNodes := [], cvQueue := [] }) s
      ev 0x5017#16 0xA00010 s.sdl.contver.toNat 0 s
    else s
  | none => s

/-- SDL_CH_CLR (R304). -/
def doSdlChClr (a : Agent) (c : Fin 16) (s : State) : State :=
  access a (0xA01004 + 0x40 * c.val)
    (modCh c fun x => { x with deny := 0#32, emu := 0#32, unchecked := 0#16 }) s

/-- VIO_PLAT_LOW (R25, R456): below 1.45 V the platform port is isolated. -/
def doVioPlatLow (c : Fin 16) (mv : BitVec 16) (s : State) : State :=
  let x := s.sdl.ch[c]
  if decide (mv.toNat < 1450) && !x.isolated then
    let s := modCh c (fun x => { x with isolated := true, isoSince := s.tbs.tick.toNat, vioMv := mv }) s
    if chPresent s c then ev 0xA030#16 c.val mv.toNat 0 s else s
  else s

/-- VIO_PLAT_VALID (R25, R456): at 1.55 V or above for 1 ms; the bank level is sensed, here between the two banks' ranges
(DESIGN CHOICE). -/
def doVioPlatValid (c : Fin 16) (mv : BitVec 16) (s : State) : State :=
  let x := s.sdl.ch[c]
  if decide (1550 ≤ mv.toNat) && x.isolated then
    let us := usOf (s.tbs.tick.toNat - x.isoSince)
    let s := modCh c (fun x => { x with isolated := false, vioMv := mv, bankHigh := decide (2510 ≤ mv.toNat) }) s
    if chPresent s c then ev 0xA031#16 c.val us 0 s else s
  else s

/-- DISCOVERY. -/
def execDiscovery (c : Fin 16) (r : DiscIn) (s : State) : Host.Outcome State Fault Refusal := .next (doDiscovery c r s)

/-- STAGED_CHECK_DONE. -/
def execStagedCheckDone (o : Fin 64) (f : SlotFacts) (s : State) : Host.Outcome State Fault Refusal :=
  .next (doStagedCheckDone o f s)

/-- DEVICE_READ_STARVED. -/
def execDeviceReadStarved (c : Fin 16) (kind : BitVec 3) (s : State) : Host.Outcome State Fault Refusal :=
  .next (doDeviceReadStarved c kind s)

/-- CV_LEAF_CHECK. -/
def execCvLeafCheck (c : Fin 16) (l : LeafIn) (s : State) : Host.Outcome State Fault Refusal :=
  .next (doCvLeafCheck c l s)

/-- SDL_COMMIT. -/
def execSdlCommit (a : Agent) (key : BitVec 16) (c : Fin 16) (o : Fin 64)
    (s : State) : Host.Outcome State Fault Refusal :=
  .next (doSdlCommit a key c o s)

/-- SDL_ABANDON. -/
def execSdlAbandon (a : Agent) (key : BitVec 16) (c : Fin 16) (o : Fin 64)
    (s : State) : Host.Outcome State Fault Refusal :=
  .next (doSdlAbandon a key c o s)

/-- PWR_CYCLE. -/
def execPwrCycle (a : Agent) (key : BitVec 16) (c : Fin 16) (s : State) : Host.Outcome State Fault Refusal :=
  .next (doPwrCycle a key c s)

/-- PWR_CYCLE_END. -/
def execPwrCycleEnd (c : Fin 16) (s : State) : Host.Outcome State Fault Refusal := .next (doPwrCycleEnd c s)

/-- GOLDEN_VIEW_OFF. -/
def execGoldenViewOff (a : Agent) (key : BitVec 16) (s : State) : Host.Outcome State Fault Refusal :=
  .next (doGoldenViewOff a key s)

/-- CONTVER_WRITE. -/
def execContverWrite (a : Agent) (v : BitVec 32) (s : State) : Host.Outcome State Fault Refusal :=
  .next (access a 0xA00010 (fieldWrite 0xA00010 v) s)

/-- CONTVER_APPLY. -/
def execContverApply (c : Fin 16) (s : State) : Host.Outcome State Fault Refusal := .next (doContverApply c s)

/-- SDL_CH_CLR. -/
def execSdlChClr (a : Agent) (c : Fin 16) (s : State) : Host.Outcome State Fault Refusal := .next (doSdlChClr a c s)

/-- VIO_PLAT_LOW. -/
def execVioPlatLow (c : Fin 16) (mv : BitVec 16) (s : State) : Host.Outcome State Fault Refusal :=
  .next (doVioPlatLow c mv s)

/-- VIO_PLAT_VALID. -/
def execVioPlatValid (c : Fin 16) (mv : BitVec 16) (s : State) : Host.Outcome State Fault Refusal :=
  .next (doVioPlatValid c mv s)

end Sys2Proof.Machine
end

