-- ==== Sys2Proof/Machine/Tamper.lean ====
section
/-! DEFINITION. The meanings of the tamper monitors' commands (chapter 15, R381 to R393, R402). -/

namespace Sys2Proof.Machine

/-- The detectors of a physical source as they now stand (R402). -/
def setTrips (src : Nat) (trips : Nat) (s : State) : State :=
  s.modTmp fun t => { t with
    tripA := bvPut t.tripA src (trips % 2 = 1), tripB := bvPut t.tripB src (trips / 2 % 2 = 1) }

/-- The cell's state follows source 14: below 2.2 V it is no cell (R48, R385). -/
def cellGone (cause : BitVec 32) (s : State) : State :=
  if cause = 1 then s.modPwr fun p => { p with batPresent := false, batLow := false } else s

/-- A physical source's detectors trip (R382, R383): its alarm, once for its condition (R385). -/
def physTrips (src : Fin 17) (trips : Nat) (cause : BitVec 32) (s : State) : State :=
  let s := setTrips src.val trips s
  if !s.tmp.active.getLsbD src.val && tripsAlarm s src.val trips then alarm src trips cause s else s

/-- A source's condition qualifies (R382 to R386). -/
def condition (src : Fin 17) (det : BitVec 2) (cause : BitVec 32) (s : State) : State :=
  if !watched s src.val then s
  else if decide (src.val < 6) then physTrips src det.toNat cause s
  else if decide (src.val ≤ 14) && s.tmp.active.getLsbD src.val then s
  else alarm src 0 cause (if src = 14 then cellGone cause s else s)

/-- TAMPER_ALARM (R386): jobs whose key result an ERASE abandoned end (R346). -/
def doTamperAlarm (src : Fin 17) (det : BitVec 2) (cause : BitVec 32) (s : State) : State := endIdle (condition src det cause s)

/-- TAMPER_CONDITION_END (R385). -/
def doTamperConditionEnd (src : Fin 17) (s : State) : State :=
  if !s.tmp.active.getLsbD src.val then s
  else
    let ms := calMs s - (assocGet s.tmp.began src.val).getD (calMs s)
    let s := if decide (src.val < 6) then setTrips src.val 0 s else s
    let s := if src = 14 then s.modPwr fun p => { p with batPresent := true } else s
    let s := s.modTmp fun t => { t with
      active := bvPut t.active src.val false, began := assocDel t.began src.val,
      ended := assocPut t.ended src.val s.aon.calSecs.toNat }
    ev 0xE011#16 src.val ms 0 s

/-- The sources that L4 and L5 sample (R382). -/
def sampled : List (Fin 17) := [0, 1, 3, 5]

/-- TAMPER_SAMPLE (R382): the two detectors of each sampled source. -/
def doTamperSample (a b : BitVec 6) (s : State) : State :=
  if s.aon.batteryOnly || !(s.pwr.rung == .rest || s.pwr.rung == .retain) then s
  else endIdle (sampled.foldl (fun s i =>
    physTrips i ((if a.getLsbD i.val then 1 else 0) + (if b.getLsbD i.val then 2 else 0)) 1#32 s) s)

/-- A refusal of TMP_ACK or TMP_CMD (R402): TMP_ACK has no OP field, and its OP in event 0xE030 is 0 (DEDUCED). -/
def tmpRefuse (op res : Nat) (s : State) : State :=
  ev 0xE030#16 op res 0 (s.modTmp fun t => { t with result := BitVec.ofNat 4 res })

/-- TMP_ACK (R389, R402): releases a latched source whose condition has ended; one not latched has nothing to release. -/
def doTmpAck (a : Agent) (key : BitVec 16) (src : BitVec 5) (s : State) : State :=
  access a 0x2000008 (fun s =>
    if key ≠ 0x7E3D#16 then tmpRefuse 0 1 s
    else if h : src.toNat < 17 then
      if s.tmp.active.getLsbD src.toNat then tmpRefuse 0 3 s
      else
        let s := s.modTmp fun t => { t with result := 0#4 }
        if s.aon.latched.getLsbD src.toNat then releaseLatch ⟨src.toNat, h⟩ 1 s else s
    else tmpRefuse 0 2 s) s

/-- HOLD_AUTO_RELEASE (R389). -/
def doHoldAutoRelease (src : Fin 17) (s : State) : State :=
  if s.tmp.holdAuto ≠ 0 && s.aon.latched.getLsbD src.val && !s.tmp.active.getLsbD src.val && !s.aon.batteryOnly then
    releaseLatch src 2 s
  else s

/-- TMP_CMD SELFTEST (R393, R402), in L0 only. -/
def doSelftest (a : Agent) (key : BitVec 16) (src : BitVec 5) (s : State) : State :=
  access a 0x200000C (fun s =>
    if key ≠ 0x7E3D#16 then tmpRefuse 1 1 s
    else if h : src.toNat < 6 then
      if s.tmp.selftest.isSome then tmpRefuse 1 4 s
      else if s.pwr.rung != .run then tmpRefuse 1 6 s
      else s.modTmp fun t => { t with selftest := some ⟨src.toNat, h⟩, result := 0#4 }
    else tmpRefuse 1 2 s) s

/-- A detector that failed its self-test (R393): event 0xE020 and its mark. -/
def testedBad (src : Fin 6) (b : Bool) (s : State) : State :=
  let s := if b && src = 4 then s.modTmp fun t => { t with selfFailB4 := true } else s
  failDet src b (ev 0xE020#16 src.val (if b then 2 else 1) 0 s)

/-- SELFTEST_DONE (R393). -/
def doSelftestDone (okA okB : Bool) (s : State) : State :=
  match s.tmp.selftest with
  | none => s
  | some src =>
    let s := s.modTmp fun t => { t with selftest := none, result := if okA && okB then 0#4 else 5#4 }
    let s := if okA then s else testedBad src false s
    let s := if okB then s else testedBad src true s
    if okA && okB then ev 0xE021#16 src.val 0 0 s else endIdle s

/-- TAMPER_ALARM. -/
def execTamperAlarm (src : Fin 17) (det : BitVec 2) (cause : BitVec 32) (s : State) : Host.Outcome State Fault Refusal :=
  .next (doTamperAlarm src det cause s)

/-- TAMPER_CONDITION_END. -/
def execTamperConditionEnd (src : Fin 17) (s : State) : Host.Outcome State Fault Refusal := .next (doTamperConditionEnd src s)

/-- TAMPER_SAMPLE. -/
def execTamperSample (a b : BitVec 6) (s : State) : Host.Outcome State Fault Refusal := .next (doTamperSample a b s)

/-- TMP_ACK. -/
def execTmpAck (a : Agent) (key : BitVec 16) (src : BitVec 5) (s : State) : Host.Outcome State Fault Refusal :=
  .next (doTmpAck a key src s)

/-- HOLD_AUTO_RELEASE. -/
def execHoldAutoRelease (src : Fin 17) (s : State) : Host.Outcome State Fault Refusal := .next (doHoldAutoRelease src s)

/-- SELFTEST. -/
def execSelftest (a : Agent) (key : BitVec 16) (src : BitVec 5) (s : State) : Host.Outcome State Fault Refusal :=
  .next (doSelftest a key src s)

/-- SELFTEST_DONE. -/
def execSelftestDone (okA okB : Bool) (s : State) : Host.Outcome State Fault Refusal := .next (doSelftestDone okA okB s)

end Sys2Proof.Machine
end

