-- ==== Sys2Proof/Machine/Vault.lean ====
section
/-! DEFINITION. The meanings of the key vault's commands (chapter 13): KVT_CMD, image writes, the restore and re-masking. -/

namespace Sys2Proof.Machine

/-- A refusal of KVT_CMD sets RESULT and SUB and logs event 0xC012 (R358). -/
def kvtRefuse (slot : Nat) (res sub : Nat) (s : State) : State :=
  ev 0xC012#16 slot 0 sub (s.modKvt fun k => { k with result := BitVec.ofNat 4 res, sub := BitVec.ofNat 4 sub })

/-- KVT_CMD (R358): the key and BUSY, then the operation. -/
def kvtCmd (a : Agent) (key : BitVec 16) (slot : Nat) (k : State → State) (s : State) : State :=
  access a 0xD00004 (fun s =>
    if key ≠ 0xE25B#16 then kvtRefuse slot 1 0 s
    else if s.kvt.busy then kvtRefuse slot 4 0 s
    else k s) s

/-- Bytes of a generated key (R339, R358). -/
def genLen (kt : Nat) : Nat :=
  match kt with
  | 1 => 32 | 2 => 2560 | 3 => 4032 | 4 => 4896 | 5 => 32 | 6 => 48 | 7 => 2400 | _ => 3168

/-- A generated key: random bytes, or a key pair's private key from a random seed (R345, R356). -/
def genKey (kt : Nat) (s : State) : Bytes × State :=
  if kt = 1 then drawRandom 32 s
  else
    let (seed, s) := drawRandom 64 s
    (Config.keyGen kt seed, s)

/-- Steps 2 and 3 of R346 for a command: a check that fails is step 3's failure, RESULT 2 with reason 6. -/
def kvtReplace (n : Fin 256) (kt : Nat) (a : BitVec 32) (owner : Nat) (key : Bytes) (checkOk : Bool) (pub : Nat) (s : State) :
    State :=
  if !checkOk then
    ev 0xC011#16 n.val kt 3 (s.modKvt fun k => { k with result := 2#4, sub := 6#4 })
  else
    let s := s.modKvt fun k => { k with busy := true }
    let (s, l) := beginReplace n kt a owner key true pub none s
    keyDone l s

/-- KVT_GENERATE (R345, R346, R357, R358). -/
def doKvtGenerate (a : Agent) (key : BitVec 16) (slot : BitVec 8) (checkOk dmaOk : Bool) (s : State) : State :=
  let n : Fin 256 := ⟨slot.toNat, slot.isLt⟩
  kvtCmd a key n.val (fun s =>
    if s.ent.st ≠ .running then kvtRefuse n.val 6 0 s
    else
      let kt := s.kvt.genType.toNat
      let owner := s.kvt.genOwner.toNat
      let at_ := s.kvt.genAttr
      let why := if kt = 0 || decide (8 < kt) then 4 else slotRefusal s n.val owner at_ kt (genLen kt) false
      if why ≠ 0 then kvtRefuse n.val 2 why s
      else
        let (b, s) := genKey kt s
        kvtReplace n kt (attrWith at_ 1) owner b checkOk (if kt = 1 then 0 else if dmaOk then 1 else 2) s) s

/-- KVT_ZEROISE (R340, R345, R347, R354): not of a device slot, nor of a persistent one in a restricted window. -/
def doKvtZeroise (a : Agent) (key : BitVec 16) (slot : BitVec 8) (s : State) : State :=
  kvtCmd a key slot.toNat (fun s =>
    let x := slotAt s slot.toNat
    if decide (slot.toNat < 16) || (x.ktype ≠ 0 && x.owner = 16) then kvtRefuse slot.toNat 2 2 s
    else if x.ktype ≠ 0 && attrPers x.attr && restricted s then kvtRefuse slot.toNat 2 3 s
    else endIdle (zeroSlot slot.toNat 1 (s.modKvt fun k => { k with result := 0#4, sub := 0#4 }))) s

/-- A message is refused (R348, R358): events 0xC021 and 0xC012; the row holds no SLOT field: a free value. -/
def kvtMsgRefuse (msg : Bytes) (code : Nat) (s : State) : State :=
  let s := kumRefuse msg code (s.modKvt fun k => { k with result := 3#4, sub := BitVec.ofNat 4 code })
  let (v, s) := drawFree 32 s
  raise 0xC012#16 v 0#32 (p32 code) s

/-- A type 1 message's key goes through R346 into its slot, whatever its owner (R348). -/
def importKey (msg : Bytes) (checkOk : Bool) (s : State) : State :=
  let p := kumPayload msg
  let n : Fin 256 := ⟨leAt p 0 1 % 256, Nat.mod_lt _ (by decide)⟩
  let kt := leAt p 2 1
  let at_ := BitVec.ofNat 32 (leAt p 4 4)
  let k := (kumKey s msg).getD []
  let s := kumAccept msg n.val s
  let why := slotRefusal s n.val (leAt p 1 1) at_ kt k.length true
  if why ≠ 0 then kvtRefuse n.val 2 why s
  else kvtReplace n kt (attrWith at_ 2) (leAt p 1 1) k checkOk 0 s

/-- A type 2 message zeroises every slot it names (R348). -/
def zeroNamed (msg : Bytes) (s : State) : State :=
  let p := kumPayload msg
  let named := (List.range 256).filter fun i => (p.getD (i / 8) 0#8).getLsbD (i % 8)
  endIdle (named.foldl (fun s n => zeroSlot n 2 s) (kumAccept msg 0 s))

/-- KVT_MSG (R347, R348, R358). -/
def doKvtMsg (a : Agent) (key : BitVec 16) (dmaOk checkOk : Bool) (msg : Bytes) (s : State) : State :=
  access a 0xD00004 (fun s =>
    let refuse (res : Nat) (s : State) : State :=
      let (v, s) := drawFree 32 (s.modKvt fun k => { k with result := BitVec.ofNat 4 res, sub := 0#4 })
      raise 0xC012#16 v 0#32 0#32 s
    if key ≠ 0xE25B#16 then refuse 1 s
    else if s.kvt.busy then refuse 4 s
    else if !dmaOk || !hostOpen s then refuse 5 s
    else
      let s := chargeDma 2 false msg.length s
      match kumCheck [1, 2] msg s with
      | 0 =>
        let s := s.modKvt fun k => { k with result := 0#4, sub := 0#4 }
        if leAt msg 6 1 = 1 then importKey msg checkOk s else zeroNamed msg s
      | code => kvtMsgRefuse msg code s) s

/-- KVT_PUBKEY (R358): of a slot of KTYPE 2 to 9; the reason of another's refusal is not stated: a free value. -/
def doKvtPubkey (a : Agent) (key : BitVec 16) (slot : BitVec 8) (dmaOk : Bool) (s : State) : State :=
  kvtCmd a key slot.toNat (fun s =>
    let x := slotAt s slot.toNat
    if decide (x.ktype < 2) then
      let (v, s) := drawFree 4 s
      kvtRefuse slot.toNat 2 v.toNat s
    else
      let s := writePub x.ktype (slotKey x) dmaOk (s.modKvt fun k => { k with sub := 0#4 })
      if s.kvt.result = 5#4 then ev 0xC012#16 slot.toNat 0 0 s else s) s

/-- The replacement that waits for an image write (R346, R352): the first begun. -/
def imageShadow (s : State) : Option Nat :=
  (List.range s.kvt.shadows.length).find? fun i =>
    shadowBegun s.kvt.shadows i && ((s.kvt.shadows[i]?).map (·.waitImage)).getD false

/-- The replacements that can go on do, and their jobs end. -/
def kvtGoOn (s : State) : State :=
  let (s, l) := kvtAdvance (s.kvt.shadows.length + 1) s
  keyDone l s

/-- An image write that carried a replacement (R346, R352). -/
def imageSwap (i : Nat) (x : Shadow) (ok : Bool) (cause : BitVec 32) (s : State) : State :=
  if ok then
    let es := imageEntries (swapShadow i x s)
    let s := swapShadow i x (writeImage es (s.modKvt fun k => { k with imgPend := false }))
    kvtGoOn (keyDone ((x.job.map fun j => [(j, true)]).getD []) s)
  else
    let s := raise 0xC041#16 (p32 (nextCopy s).1) cause 0#32 s
    let s := ev 0xC011#16 x.slot.val x.ktype 4 s
    let s := s.modKvt fun k => { k with
      shadows := k.shadows.eraseIdx i, busy := k.busy && !x.cmd, result := if x.cmd then 2#4 else k.result,
      sub := if x.cmd then 5#4 else k.sub }
    kvtGoOn (keyDone ((x.job.map fun j => [(j, false)]).getD []) s)

/-- IMAGE_WRITE_DONE (R349, R352): of the replacement that waits, else of a counter's mirror. -/
def doImageWriteDone (ok : Bool) (cause : BitVec 32) (s : State) : State :=
  if !s.kvt.ident || !s.kvt.restored then s
  else match imageShadow s with
    | some i => imageSwap i ((s.kvt.shadows[i]?).getD {}) (ok && recFlash s) cause s
    | none =>
      if !s.kvt.imgPend then s
      else
        let s := s.modKvt fun k => { k with imgPend := false }
        if ok && recFlash s then writeImage (imageEntries s) s
        else raise 0xC041#16 (p32 (nextCopy s).1) cause 0#32 s

/-- RESTORE_DONE (R353): once the identity is derived and channel 15 has been read. -/
def doRestoreDone (s : State) : State := if s.kvt.ident && !s.kvt.restored && ledRead s then restore s else s

/-- The re-masked bytes of a key: old and new masks folded into what is stored (R355). -/
def remaskKey (stored old new : Bytes) : Bytes := xorBytes (xorBytes stored old) new

/-- A pass over the slots, each mask the next bytes of the expansion. -/
def remaskSlots (m : Bytes) : Nat → List (Nat × Slot) → List (Nat × Slot) × Nat
  | o, [] => ([], o)
  | o, (n, x) :: t =>
    let new := slice m o x.stored.length
    let (l, e) := remaskSlots m (o + x.stored.length) t
    ((n, { x with stored := remaskKey x.stored x.mask new, mask := new }) :: l, e)

/-- A pass over the shadows. -/
def remaskShadows (m : Bytes) : Nat → List Shadow → List Shadow
  | _, [] => []
  | o, x :: t =>
    let b := if x.holdsOld then x.old else x.key
    let new := slice m o b.length
    let y : Shadow := if x.holdsOld then { x with old := remaskKey b x.mask new, mask := new }
      else { x with key := remaskKey b x.mask new, mask := new }
    y :: remaskShadows m (o + b.length) t

/-- REMASK_PASS (R355): the new masks are SHAKE256 of a fresh seed, in slot order (DESIGN CHOICE). -/
def doRemaskPass (delayUs : BitVec 32) (s : State) : State :=
  if lowRung s && !(s.pwr.rung == .nap) then s
  else if s.ent.st ≠ .running then
    let c := match s.ent.st with | .startup => 0 | .running => 1 | .recovering => 2 | .failed => 3
    if s.kvt.remaskStopped then s else ev 0xC031#16 c 0 0 (s.modKvt fun k => { k with remaskStopped := true })
  else
    let late := decide (s.kvt.remask.toNat * 1000 < delayUs.toNat)
    let s := if late then
        raise 0xC030#16 (p32 s.kvt.remask.toNat) delayUs 0#32 (s.modKvt fun k => { k with late := bvSat k.late 1 })
      else s
    let (seed, s) := drawRandom 32 s
    let total := s.kvt.slots.foldl (fun t e => t + e.2.stored.length) 0 +
      s.kvt.shadows.foldl (fun t x => t + x.key.length + x.old.length) 0
    let m := shake256 seed total
    let (l, o) := remaskSlots m 0 s.kvt.slots
    pmcAdd 475 1 (s.modKvt fun k => { k with slots := l, shadows := remaskShadows m o k.shadows, remaskStopped := false })

/-- KVT_GENERATE. -/
def execKvtGenerate (a : Agent) (key : BitVec 16) (slot : BitVec 8) (checkOk dmaOk : Bool)
    (s : State) : Host.Outcome State Fault Refusal :=
  .next (doKvtGenerate a key slot checkOk dmaOk s)

/-- KVT_ZEROISE. -/
def execKvtZeroise (a : Agent) (key : BitVec 16) (slot : BitVec 8) (s : State) : Host.Outcome State Fault Refusal :=
  .next (doKvtZeroise a key slot s)

/-- KVT_MSG. -/
def execKvtMsg (a : Agent) (key : BitVec 16) (dmaOk checkOk : Bool) (msg : Bytes)
    (s : State) : Host.Outcome State Fault Refusal :=
  .next (doKvtMsg a key dmaOk checkOk msg s)

/-- KVT_PUBKEY. -/
def execKvtPubkey (a : Agent) (key : BitVec 16) (slot : BitVec 8) (dmaOk : Bool)
    (s : State) : Host.Outcome State Fault Refusal :=
  .next (doKvtPubkey a key slot dmaOk s)

/-- IMAGE_WRITE_DONE. -/
def execImageWriteDone (ok : Bool) (cause : BitVec 32) (s : State) : Host.Outcome State Fault Refusal :=
  .next (doImageWriteDone ok cause s)

/-- RESTORE_DONE. -/
def execRestoreDone (s : State) : Host.Outcome State Fault Refusal := .next (doRestoreDone s)

/-- REMASK_PASS. -/
def execRemaskPass (delayUs : BitVec 32) (s : State) : Host.Outcome State Fault Refusal :=
  .next (doRemaskPass delayUs s)

end Sys2Proof.Machine
end

