-- ==== Sys2Proof/Machine/Watchdog.lean ====
section
/-! DEFINITION. The meanings of the watchdogs' commands (chapter 15, R397 to R401). -/

namespace Sys2Proof.Machine

/-- The required set (R398): until device ready the start sequencer stands in for task 0. -/
def required (s : State) : BitVec 16 :=
  (s.wdg.tasks &&& 0x00FF#16) ||| (s.wdg.tasks &&& s.wdg.armed &&& 0xFF00#16)

/-- A new period begins (R398). -/
def newPeriod (s : State) : State :=
  s.modWdg fun w => { w with startTick := s.tbs.tick.toNat, checked := 0#16, dup := 0#16, isOpen := w.n = 0 }

/-- The device watchdog expires (R399): the event, then the watchdog warm reset (R69). -/
def wdgExpire (cause : Nat) (s : State) : State :=
  let missing := required s &&& ~~~s.wdg.checked
  let s := ev 0xE110#16 cause missing.toNat s.wdg.dup.toNat s
  trigWarm 0 (s.modWdg fun w => { w with expiries := bvSat w.expiries 1 })

/-- WDG_DEV_START (R397): the first write of the key starts software mode. -/
def doWdgDevStart (a : Agent) (key : BitVec 16) (s : State) : State :=
  access a 0x2100004 (fun s =>
    if key ≠ 0xD06A#16 || s.wdg.running then s
    else ev 0xE101#16 2 s.wdg.k s.wdg.n (newPeriod (s.modWdg fun w => { w with running := true }))) s

/-- Who writes, as event 0xE112 says it. -/
def agentNo (a : Agent) : Nat := match a with | .mgmt => 0 | _ => 1

/-- A second check-in in one period (R399). -/
def dupCheckin (t : Nat) (s : State) : State :=
  let strict := s.wdg.strict.getLsbD t
  let s := ev 0xE111#16 t (if strict then 1 else 0) 0 (s.modWdg fun w => { w with dup := bvPut w.dup t true })
  if strict then wdgExpire 3 s else s

/-- A check-in that counts (R398, R399): a task from 8 on joins the required set. A watchdog that does not run has no
window and no period (DEDUCED). -/
def checkin (t : Nat) (s : State) : State :=
  let arm (s : State) : State :=
    if decide (8 ≤ t) && s.glb.ready then s.modWdg fun w => { w with armed := bvPut w.armed t true } else s
  if !s.wdg.running || s.wdg.paused then arm s
  else if !s.wdg.isOpen then wdgExpire 2 s
  else if s.wdg.checked.getLsbD t then dupCheckin t s
  else
    let s := (arm s).modWdg fun w => { w with checked := bvPut w.checked t true }
    if required s &&& ~~~s.wdg.checked = 0#16 then newPeriod s else s

/-- WDG_CHECKIN (R398, R399). -/
def doWdgCheckin (a : Agent) (key : BitVec 16) (task : BitVec 4) (s : State) : State :=
  access a 0x2100008 (fun s =>
    let t := task.toNat
    if key ≠ 0x5C4B#16 || (a == .pf0 && decide (t < 8)) || !s.wdg.tasks.getLsbD t then
      ev 0xE112#16 (key.toNat * 65536 + t) (agentNo a) 0 s
    else checkin t s) s

/-- WDG_WINDOW_OPEN (R398). -/
def doWdgWindowOpen (s : State) : State :=
  if s.wdg.running && !s.wdg.paused then s.modWdg fun w => { w with isOpen := true } else s

/-- WDG_PERIOD_END (R397, R399): before device ready the start sequencer has serviced it. -/
def doWdgPeriodEnd (s : State) : State :=
  if !s.wdg.running || s.wdg.paused then s
  else if s.glb.ready && required s &&& ~~~s.wdg.checked ≠ 0#16 then wdgExpire 1 s
  else newPeriod s

/-- The token after a token (R400). -/
def nextToken (t : BitVec 16) : BitVec 16 := (t >>> 1) ^^^ (if t.getLsbD 0 then 0xB400#16 else 0#16)

/-- A platform watchdog expires (R401). -/
def platExpire (d : Fin 32) (cause : Nat) (token : BitVec 16) (s : State) : State :=
  let s := ev 0xE120#16 d.val cause token.toNat (modPlat d (fun p => { p with expiries := bvSat p.expiries 1 }) s)
  settle (hold d 2 s)

/-- A kick (R400): the written period takes effect, 0 disabling the watchdog; a written seed waits for the next arming. -/
def kick (d : Fin 32) (token : BitVec 16) (s : State) : State :=
  let p := s.wdg.plat[d]
  if !p.armed then ev 0xE123#16 d.val token.toNat 0 s
  else if token ≠ p.token then platExpire d 2 token s
  else modPlat d (fun p => { p with
    token := nextToken p.token, periodNow := p.period, startTick := s.tbs.tick.toNat, armed := p.period ≠ 0 }) s

/-- PLAT_KICK (R400): by PF0. -/
def doPlatKick (a : Agent) (d : Fin 32) (token : BitVec 16) (s : State) : State :=
  accessPf0 a (0x2100200 + 4 * d.val) (kick d token) s

/-- PLAT_WDG_EXPIRY (R401): a period that ends without a kick. -/
def doPlatWdgExpiry (d : Fin 32) (s : State) : State :=
  let p := s.wdg.plat[d]
  if !p.armed || p.paused then s else platExpire d 1 0#16 s

/-- WDG_DEV_START. -/
def execWdgDevStart (a : Agent) (key : BitVec 16) (s : State) : Host.Outcome State Fault Refusal := .next (doWdgDevStart a key s)

/-- WDG_CHECKIN. -/
def execWdgCheckin (a : Agent) (key : BitVec 16) (task : BitVec 4) (s : State) : Host.Outcome State Fault Refusal :=
  .next (doWdgCheckin a key task s)

/-- WDG_WINDOW_OPEN. -/
def execWdgWindowOpen (s : State) : Host.Outcome State Fault Refusal := .next (doWdgWindowOpen s)

/-- WDG_PERIOD_END. -/
def execWdgPeriodEnd (s : State) : Host.Outcome State Fault Refusal := .next (doWdgPeriodEnd s)

/-- PLAT_KICK. -/
def execPlatKick (a : Agent) (d : Fin 32) (token : BitVec 16) (s : State) : Host.Outcome State Fault Refusal :=
  .next (doPlatKick a d token s)

/-- PLAT_WDG_EXPIRY. -/
def execPlatWdgExpiry (d : Fin 32) (s : State) : Host.Outcome State Fault Refusal := .next (doPlatWdgExpiry d s)

end Sys2Proof.Machine
end

