-- ==== Sys2Proof/Machine/Registers.lean ====
section
/-! DEFINITION. Reads of wide quantities, and what a write of each register does by its access code (R13, R229 to R235). A
register whose write has a row of its own acts here as that row does; one whose row brings bytes or facts of the world with
it (the operations of FUS_CMD, LDG_CMD, KVT_CMD, ATT_CMD and BOOT_CFG_UPD_CMD that do) is written by that row, and here
only its key is judged. -/

namespace Sys2Proof.Machine

/-- Change one function's holding register of a requester (R235). -/
def setHold (a : Agent) (h : Option (Nat × List (BitVec 32))) (s : State) : State :=
  match a with
  | .mgmt => modFn 0 (fun f => { f with holdM := h }) s
  | .pf0 => modFn 0 (fun f => { f with hold := h }) s
  | .vf n => modFn n (fun f => { f with hold := h }) s

/-- A requester's holding register. -/
def getHold (a : Agent) (s : State) : Option (Nat × List (BitVec 32)) :=
  match a with
  | .mgmt => s.hlk.fns[0].holdM
  | .pf0 => s.hlk.fns[0].hold
  | .vf n => s.hlk.fns[n].hold

/-- A low register is read (R235): its word is the reply, and the high word is latched. -/
def readLow (a : Agent) (off v : Nat) (s : State) : State :=
  setHold a (some (off, [p32 (v / 2 ^ 32)])) (emit (.readReply (leBytes 4 v)) s)

/-- The low register of a counter is read (R442): for a chained pair the other three words are latched, and the low word of
the pair's second counter comes from that latch. -/
def readCounter (a : Agent) (off i : Nat) (s : State) : State :=
  let v := pmcValue s i
  if i % 2 = 0 && s.pmc.chain.getLsbD (i / 2) then
    let w := pmcValue s (i + 1)
    setHold a (some (off, [p32 (v / 2 ^ 32), p32 w, p32 (w / 2 ^ 32)])) (emit (.readReply (leBytes 4 v)) s)
  else match getHold a s with
    | some (o, [_, lo, _]) =>
      if i % 2 = 1 ∧ o + 8 = off then emit (.readReply (leBytes 4 lo.toNat)) s else readLow a off v s
    | _ => readLow a off v s

/-- WIDE_LOW_READ (R235). An offset that is no low register of a wide quantity latches nothing. -/
def doWideLowRead (a : Agent) (off : BitVec 26) (s : State) : State :=
  let o := off.toNat
  match a with
  | .vf n =>
    accessBar n 0 o (fun s => match vfWide s n o with
      | some v => readLow a o v s
      | none => s) s
  | _ =>
    access a o (fun s => match pmcLow o with
      | some i => readCounter a o i s
      | none => match wideValue s o with
        | some v => readLow a o v s
        | none => s) s

/-- The function that a requester is, as events 0x9020 and 0x9021 say it; the management program shares PF0's (DEDUCED). -/
def agentFn (a : Agent) : Fin 16 := match a with | .vf n => n | _ => 0

/-- A write of a reserved or undefined offset (R230). -/
def undefWrite (a : Agent) (off : Nat) (s : State) : State := ev 0x9020#16 (agentFn a).val 0 off s

/-- A half of a 64-bit address. -/
def putHalf (hi : Bool) (v : BitVec 32) (x : BitVec 64) : BitVec 64 :=
  if hi then v ++ x.setWidth 32 else x.extractLsb' 32 32 ++ v

/-- The bits that the byte enables select. -/
def beMask (be : BitVec 4) : BitVec 32 :=
  (List.range 4).foldl (fun m i => if be.getLsbD i then m ||| (0xFF#32 <<< (8 * i)) else m) 0#32

/-- A word merged under byte enables. -/
def mergeBe (be : BitVec 4) (old v : BitVec 32) : BitVec 32 := (old &&& ~~~(beMask be)) ||| (v &&& beMask be)

/-- A word of a function's MSI-X table is written (R229, R233): unmasking a vector whose pending bit is set sends it (R243);
masks change no other thing. -/
def msixWrite (f : Fin 16) (w : Nat) (be : BitVec 4) (v : BitVec 32) (s : State) : State :=
  let vec := w / 4
  if w % 4 = 3 then
    if !be.getLsbD 0 then s
    else if v.getLsbD 0 then modFn f (fun x => { x with msixOpen := x.msixOpen.filter (· ≠ vec) }) s
    else
      let was := decide (vec ∈ s.hlk.fns[f].pba)
      let s := modFn f (fun x => { x with
        msixOpen := if vec ∈ x.msixOpen then x.msixOpen else vec :: x.msixOpen, pba := x.pba.filter (· ≠ vec) }) s
      if was then sendMsix f vec s else s
  else modFn f (fun x => { x with msixTab := cellSet 0#32 x.msixTab w (mergeBe be (cellGet 0#32 x.msixTab w) v) }) s

/-- A JOB block's register (R249, R273). -/
def jobWrite (f : Fin 16) (o : Nat) (v : BitVec 32) (s : State) : State :=
  if o = 4 then
    let ms := fld v 0 16
    if 10 ≤ ms ∧ ms ≤ 60000 then s.modJob fun b => { b with limits := b.limits.set f (BitVec.ofNat 16 ms) }
    else setupIgnored f 4 v s
  else if h : 0x1000 ≤ o ∧ o < 0x1800 then
    let q : Fin 64 := ⟨(o - 0x1000) / 32, by omega⟩
    let x := queue s f.val q.val
    let fixed := x.en || !(qJobs s f q).isEmpty
    match o % 32 with
    | 0 => if fixed then setupIgnored f o v s
      else modQueue f.val q.val (fun x => { x with sqBase := putHalf false (v &&& 0xFFFFF000#32) x.sqBase }) s
    | 4 => if fixed then setupIgnored f o v s
      else modQueue f.val q.val (fun x => { x with sqBase := putHalf true v x.sqBase }) s
    | 8 => if fixed then setupIgnored f o v s
      else modQueue f.val q.val (fun x => { x with cqBase := putHalf false (v &&& 0xFFFFF000#32) x.cqBase }) s
    | 12 => if fixed then setupIgnored f o v s
      else modQueue f.val q.val (fun x => { x with cqBase := putHalf true v x.cqBase }) s
    | 16 => qCtrlWrite f q v s
    | 28 => modQueue f.val q.val (fun x => { x with
        coalCount := BitVec.ofNat 8 (fld v 0 8), coalUs := BitVec.ofNat 16 (fld v 8 16) }) s
    | _ => s
  else s

/-- PWR registers (chapter 02). -/
def pwrWrite (o : Nat) (v : BitVec 32) (s : State) : State :=
  match o with
  | 0x08 => match fld v 0 3 with
    | 1 => reqIdle 1#3 s
    | 2 => reqIdle 2#3 s
    | 3 => reqLow .nap s
    | 4 => reqLow .rest s
    | 5 => reqLow .retain s
    | _ => s
  | 0x14 => s.modPwr fun p => { p with wakeCause := p.wakeCause &&& ~~~(v.setWidth 5) }
  | 0x18 =>
    let s := if v.getLsbD 0 = s.pwr.vfEn then s else vflashEn (v.getLsbD 0) s
    let s := if v.getLsbD 1 = s.pwr.keepDeep then s else fieldWrite 0x100018 v s
    if v.getLsbD 2 then faultClr s else s
  | 0x30 => s.modPwr fun p => { p with wakeTimer := v.setWidth 24 }
  | _ => fieldWrite (0x100000 + o) v s

/-- Every block that a write of RST_BLOCK asks for (R81), its window and what it resets. -/
def blockResets : List (Fin 11 × Nat × (State → State)) :=
  [(0, 4, resetFus), (1, 6, resetWsh), (2, 8, resetJob), (3, 10, resetSdl), (4, 12, resetLdg), (5, 13, resetKvt),
   (6, 14, resetEnt), (7, 15, resetAtt), (8, 34, resetChp), (9, 35, id), (10, 36, resetPmc)]

/-- RST registers (chapter 03). -/
def rstWrite (o : Nat) (v : BitVec 32) (s : State) : State :=
  match o with
  | 0x00 => s.modRst fun r => { r with warm := r.warm &&& ~~~(v.extractLsb' 8 4) }
  | 0x08 => blockResets.foldl (fun s b => if v.getLsbD b.1.val then blockReset b.1 b.2.1 b.2.2 s else s) s
  | 0x10 => s.modRst fun r => { r with refused := r.refused &&& ~~~(v.setWidth 11) }
  | _ => s

/-- FUS registers (chapter 04): the commands that need nothing but the fuse array, and every command's key. -/
def fusWrite (a : Agent) (o : Nat) (v : BitVec 32) (s : State) : State :=
  let key := v.extractLsb' 16 16
  let region : Fin 16 := BitVec.toFin (v.extractLsb' 4 4)
  match o with
  | 0x04 => match fld v 0 4 with
    | 1 => fusCmd a key 1 fusReadWord s
    | 2 => fusProg a key 2 planProgram s
    | 3 => fusProg a key 3 (planComplete region) s
    | 4 => fusProg a key 4 (planLock 4 region) s
    | 5 => fusProg a key 5 (planLock 5 region) s
    | 6 => fusProg a key 6 (planLock 6 region) s
    | 7 => fusProg a key 7 (planCtr (v.extractLsb' 8 8)) s
    | 8 => fusProg a key 8 (planRevoke (v.extractLsb' 8 8)) s
    | 9 => fusCmd a key 9 id s
    | 10 => fusCmd a key 10 id s
    | op => fusCmd a key op (fusRefuse op 7) s
  | 0x08 => s.modFus fun f => { f with addr := v.setWidth 11 }
  | 0x0C => s.modFus fun f => { f with data := v }
  | 0x1C => s.modFus fun f => { f with pkg := putHalf false v f.pkg }
  | 0x20 => s.modFus fun f => { f with pkg := putHalf true v f.pkg }
  | _ => s

/-- BOOT registers (chapter 05). -/
def bootWrite (o : Nat) (v : BitVec 32) (s : State) : State :=
  match o with
  | 0x240 => s.modBoot fun b => { b with updAddr := putHalf false v b.updAddr }
  | 0x244 => s.modBoot fun b => { b with updAddr := putHalf true v b.updAddr }
  | 0x248 => if v.extractLsb' 16 16 = 0x6C1F#16 then s else refuseUpd 8 0 s
  | _ => fieldWrite (0x500000 + o) v s

/-- PLN registers (chapter 07). -/
def plnWrite (o : Nat) (v : BitVec 32) (s : State) : State :=
  if o = 8 then (if v.getLsbD 31 then s.modPln fun p => { p with gradDv := 0#10, gradDt := 0#8 } else s)
  else if h : 0x300 ≤ o ∧ o < 0x400 then offline ⟨(o - 0x300) / 4, by omega⟩ (v.getLsbD 0) s
  else fieldWrite (0x700000 + o) v s

/-- HLK registers (chapter 09), with PF0's MSI-X table. -/
def hlkWrite (o : Nat) (v : BitVec 32) (s : State) : State :=
  match o with
  | 0x10 => ringBaseWrite false v s
  | 0x14 => ringBaseWrite true v s
  | 0x18 => ringCtrlWrite v s
  | 0x1C => ringHeadWrite v s
  | 0x30 => s.modHlk fun h => { h with policy := v.setWidth 3 }
  | _ => if 0x10000 ≤ o ∧ o < 0x10410 then msixWrite 0 ((o - 0x10000) / 4) 15#4 v s else s

/-- SDL registers (chapter 11). -/
def sdlWrite (a : Agent) (o : Nat) (v : BitVec 32) (s : State) : State :=
  let key := v.extractLsb' 16 16
  let c : Fin 16 := BitVec.toFin (v.extractLsb' 4 4)
  let ob : Fin 64 := BitVec.toFin (v.extractLsb' 8 6)
  if o = 8 then
    match fld v 0 4 with
    | 1 => doSdlCommit a key c ob s
    | 2 => doSdlAbandon a key c ob s
    | 3 => doPwrCycle a key c s
    | 4 => doGoldenViewOff a key s
    | op => sdlCmd a key op none (fun s => (6, s)) s
  else if h : 0x1000 ≤ o ∧ o < 0x1400 then
    let ch : Fin 16 := ⟨(o - 0x1000) / 64, by omega⟩
    if o % 64 = 4 then
      let s := if ch = 15 then s else modCh ch (fun x => { x with passCs1 := v.getLsbD 0 }) s
      if v.getLsbD 1 then modCh ch (fun x => { x with deny := 0#32, emu := 0#32, unchecked := 0#16 }) s else s
    else s
  else fieldWrite (0xA00000 + o) v s

/-- PRS registers (chapter 12). -/
def prsWrite (a : Agent) (o : Nat) (v : BitVec 32) (s : State) : State :=
  let key := v.extractLsb' 16 16
  let d : Fin 32 := BitVec.toFin (v.extractLsb' 4 5)
  if o = 0x10 then
    match fld v 0 4 with
    | 1 => doPrsHold a key d s
    | 2 => doPrsRelease a key d s
    | 3 => doPrsRestart a key d s
    | op =>
      let r := if key ≠ 0x3A71#16 then 1 else 4
      ev 0xB010#16 op r 0 (s.modPrs fun p => { p with result := BitVec.ofNat 4 r })
  else s

/-- LDG registers (chapter 12). -/
def ldgWrite (a : Agent) (o : Nat) (v : BitVec 32) (s : State) : State :=
  let key := v.extractLsb' 16 16
  match o with
  | 0x0C => match fld v 0 4 with
    | 3 => doRcvDone a key s
    | 4 => doRetry a key s
    | 5 => doCompact a key s
    | 1 => if key = 0xD47E#16 then s else ldgCmd a key 1 (fun s => (0, 0, s)) s
    | 2 => if key = 0xD47E#16 then s else ldgCmd a key 2 (fun s => (0, 0, s)) s
    | op => ldgCmd a key op (fun s => (9, 0, s)) s
  | 0x14 => s.modLdg fun l => { l with rcvAddr := putHalf false v l.rcvAddr }
  | 0x18 => s.modLdg fun l => { l with rcvAddr := putHalf true v l.rcvAddr }
  | _ => s

/-- KVT registers (chapter 13). -/
def kvtWrite (a : Agent) (o : Nat) (v : BitVec 32) (s : State) : State :=
  let key := v.extractLsb' 16 16
  let slot := v.extractLsb' 8 8
  if h : 0x100 ≤ o ∧ o < 0x140 then
    let f : Fin 16 := ⟨(o - 0x100) / 4, by omega⟩
    s.modKvt fun k => { k with
      first := k.first.set f (v.setWidth 8), last := k.last.set f (v.extractLsb' 8 8), en := bvPut k.en f.val (v.getLsbD 16) }
  else match o with
  | 0x04 => match fld v 0 4 with
    | 2 => doKvtZeroise a key slot s
    | 1 => if key = 0xE25B#16 then s else kvtRefuse slot.toNat 1 0 s
    | 3 => if key = 0xE25B#16 then s else kvtRefuse slot.toNat 1 0 s
    | 4 => if key = 0xE25B#16 then s else kvtRefuse slot.toNat 1 0 s
    | _ => kvtCmd a key slot.toNat (kvtRefuse slot.toNat 7 0) s
  | 0x10 => s.modKvt fun k => { k with sel := v.setWidth 8 }
  | 0x1C => s.modKvt fun k => { k with genType := v.setWidth 4, genOwner := v.extractLsb' 4 5 }
  | 0x20 => s.modKvt fun k => { k with genAttr := v }
  | 0x24 => s.modKvt fun k => { k with addr := putHalf false v k.addr }
  | 0x28 => s.modKvt fun k => { k with addr := putHalf true v k.addr }
  | _ => fieldWrite (0xD00000 + o) v s

/-- ATT_TX_CTRL (R373, R380): setting EN starts the ring at its first entry, as R241 has it for the event ring; a LOG2SIZE
outside 2 to 8 leaves EN clear (DEDUCED). -/
def txCtrlWrite (v : BitVec 32) (s : State) : State :=
  let k := fld v 4 4
  if !v.getLsbD 0 then s.modAtt fun t => { t with txEn := false, txK := k }
  else if s.att.txEn then s
  else if decide (k < 2) || decide (8 < k) then s.modAtt fun t => { t with txK := k }
  else txGoOn (s.modAtt fun t => { t with txEn := true, txK := k, txHead := 0, txTail := 0, txPhase := true })

/-- Inbox bytes: a write to an unclaimed slot is discarded (R374). -/
def inboxWrite (o : Nat) (v : BitVec 32) (s : State) : State :=
  if h : o < 0x10000 then
    let slot : Fin 4 := ⟨o / 0x4000, by omega⟩
    if s.att.inbox[slot] then s.modAtt fun t => { t with inboxBuf := bufPut t.inboxBuf o (leBytes 4 v.toNat) } else s
  else s

/-- ATT registers (chapter 14). -/
def attWrite (a : Agent) (o : Nat) (v : BitVec 32) (s : State) : State :=
  let key := v.extractLsb' 16 16
  if h : 0x40 ≤ o ∧ o < 0x50 then doInboxDoorbell a ⟨(o - 0x40) / 4, by omega⟩ (v.setWidth 15) s
  else if 0x80000 ≤ o then inboxWrite (o - 0x80000) v s
  else match o with
  | 0x04 => match fld v 0 4 with
    | 2 => doRejoin a key s
    | 1 => if key = 0x47A9#16 then s else attRefuse 1 1 s
    | 3 => if key = 0x47A9#16 then s else attRefuse 3 1 s
    | 4 => if key = 0x47A9#16 then s else attRefuse 4 1 s
    | op => attCmd a key op (attRefuse op 8) s
  | 0x0C => s.modAtt fun t => { t with aggAddr := putHalf false v t.aggAddr }
  | 0x10 => s.modAtt fun t => { t with aggAddr := putHalf true v t.aggAddr }
  | 0x14 => s.modAtt fun t => { t with aggCap := v }
  | 0x18 => if s.att.txEn then s else s.modAtt fun t => { t with txAddr := putHalf false v t.txAddr }
  | 0x1C => if s.att.txEn then s else s.modAtt fun t => { t with txAddr := putHalf true v t.txAddr }
  | 0x20 => txCtrlWrite v s
  | 0x24 => txHeadWrite v s
  | _ => s

/-- TMP registers (chapter 15). -/
def tmpWrite (a : Agent) (o : Nat) (v : BitVec 32) (s : State) : State :=
  let key := v.extractLsb' 16 16
  match o with
  | 0x08 => doTmpAck a key (v.setWidth 5) s
  | 0x0C =>
    if fld v 0 4 = 1 then doSelftest a key (v.extractLsb' 4 5) s
    else tmpRefuse (fld v 0 4) (if key = 0x7E3D#16 then 7 else 1) s
  | _ => fieldWrite (0x2000000 + o) v s

/-- WDG registers (chapter 15). -/
def wdgWrite (a : Agent) (o : Nat) (v : BitVec 32) (s : State) : State :=
  if h : 0x180 ≤ o ∧ o < 0x200 then modPlat ⟨(o - 0x180) / 4, by omega⟩ (fun p => { p with seed := v.setWidth 16 }) s
  else if h : 0x200 ≤ o ∧ o < 0x280 then doPlatKick a ⟨(o - 0x200) / 4, by omega⟩ (v.setWidth 16) s
  else match o with
  | 0x04 => doWdgDevStart a (v.setWidth 16) s
  | 0x08 => doWdgCheckin a (v.extractLsb' 16 16) (v.setWidth 4) s
  | _ => fieldWrite (0x2100000 + o) v s

/-- CHP registers and the transmit buffer (chapter 16). A LEN of 0 is out of its range (R410, R421). -/
def chpWrite (a : Agent) (o : Nat) (v : BitVec 32) (s : State) : State :=
  let key := v.extractLsb' 16 16
  match o with
  | 0x04 =>
    if fld v 0 4 = 1 then doChpStart a key s
    else
      let r := if key = 0x2C9E#16 then 7 else 1
      ev 0xF011#16 (fld v 0 4) r 0 (s.modChp fun c => { c with result := BitVec.ofNat 4 r })
  | 0x0C => if fld v 0 16 = 0 then chpIgnored 0x220000C v s else s.modChp fun c => { c with len := v.setWidth 16 }
  | 0x10 => s.modChp fun c => { c with outN := v.setWidth 16, turn := v.extractLsb' 16 4 }
  | 0x1C => doChpSelWrite a (v.setWidth 16) s
  | 0x20 => doChpGpioWrite a (v.extractLsb' 16 16) s
  | _ =>
    if 0x1000 ≤ o ∧ o < 0x3000 then s.modChp fun c => { c with tx := bufPut c.tx (o - 0x1000) (leBytes 4 v.toNat) }
    else fieldWrite (0x2200000 + o) v s

/-- EVR registers (chapter 17). -/
def evrWrite (a : Agent) (o : Nat) (v : BitVec 32) (s : State) : State :=
  let key := v.extractLsb' 16 16
  match o with
  | 0x14 => match fld v 0 4 with
    | 1 => doFreeze a key s
    | 2 => doThaw a key s
    | 3 => doSetCal a key s
    | _ => evrCmd a key (evrResult 2) s
  | 0x1C => doEvrCursorWrite a v s
  | 0x30 => s.modEvr fun e => { e with calSet := putHalf false v e.calSet }
  | 0x34 => s.modEvr fun e => { e with calSet := putHalf true v e.calSet }
  | _ => fieldWrite (0x2300000 + o) v s

/-- PMC_CTRL (R447): USER_EN, TAG_EN with its seed, TAG_CLR and TAG_N. -/
def pmcCtrlWrite (v : BitVec 32) (s : State) : State :=
  let n := fld v 8 5
  let s := if v.getLsbD 0 = s.pmc.userEn then s else fieldWrite 0x2400000 v s
  let s := if 4 ≤ n ∧ n ≤ 24 then s.modPmc fun p => { p with tagN := BitVec.ofNat 5 n } else rejectWrite 0x2400000 v 4 s
  let s := if v.getLsbD 1 then tagEnable s else s.modPmc fun p => { p with tagEn := false }
  if v.getLsbD 2 then tagClear s else s

/-- PMC registers (chapter 17). -/
def pmcWrite (o : Nat) (v : BitVec 32) (s : State) : State :=
  if o = 0 then pmcCtrlWrite v s
  else if inArr o 0x10 4 8 then
    let k := 32 * ((o - 0x10) / 4)
    s.modPmc fun p => { p with chain := (p.chain &&& ~~~(0xFFFFFFFF#256 <<< k)) ||| (v.setWidth 256 <<< k) }
  else if inArr o 0x40 4 16 then
    s.modPmc fun p => { p with ovf := p.ovf &&& ~~~(v.setWidth 512 <<< (32 * ((o - 0x40) / 4))) }
  else if h : 0x100 ≤ o ∧ o < 0x140 then
    if o % 16 = 0 then
      let m : Fin 4 := ⟨(o - 0x100) / 16, by omega⟩
      modBw m (fun b => { b with
        port := v.setWidth 4, dir := v.getLsbD 4, window := v.extractLsb' 8 24,
        peak := if v.getLsbD 5 then 0#32 else b.peak }) s
    else s
  else s

/-- A whole-word write of a register of PF0 BAR0 (R13, R229). -/
def regWrite (a : Agent) (off : Nat) (v : BitVec 32) (s : State) : State :=
  let o := off % 0x100000
  match off / 0x100000 with
  | 0 => if o = 0xC then swrst (v.setWidth 16) s else s
  | 1 => pwrWrite o v s
  | 3 => rstWrite o v s
  | 4 => fusWrite a o v s
  | 5 => bootWrite o v s
  | 6 =>
    if o = 0x1C then (if v.getLsbD 31 then s.modWsh fun w => { w with c0Max := 0#16 } else s)
    else fieldWrite off v s
  | 7 => plnWrite o v s
  | 8 =>
    if h : 0x10000 ≤ o ∧ o < 0x30000 then jobWrite ⟨(o - 0x10000) / 0x2000, by omega⟩ (o % 0x2000) v s else fieldWrite off v s
  | 9 => hlkWrite o v s
  | 10 => sdlWrite a o v s
  | 11 => prsWrite a o v s
  | 12 => ldgWrite a o v s
  | 13 => kvtWrite a o v s
  | 15 => attWrite a o v s
  | 32 => tmpWrite a o v s
  | 33 => wdgWrite a o v s
  | 34 => chpWrite a o v s
  | 35 => evrWrite a o v s
  | 36 => pmcWrite o v s
  | _ => s

/-- A write of PF0 BAR0 (R230): partial byte enables discard it, but in the MSI-X table. -/
def pfWrite (a : Agent) (off : Nat) (be : BitVec 4) (v : BitVec 32) (s : State) : State :=
  if 0x1000000 ≤ off ∧ off < 0x2000000 then doProgramStoreWrite a (BitVec.ofNat 26 off) s
  else if 0x3000000 ≤ off then doWindowWrite a (BitVec.ofNat 24 off) s
  else if !regDefined off then undefWrite a off s
  else if 0x910000 ≤ off ∧ off < 0x910410 then msixWrite 0 ((off - 0x910000) / 4) be v s
  else if be ≠ 15#4 then ev 0x9021#16 (agentFn a).val off be.toNat s
  else regWrite a off v s

/-- A write of a virtual function's BAR0 (R230, R233). -/
def vfRegWrite (n : Fin 16) (off : Nat) (be : BitVec 4) (v : BitVec 32) (s : State) : State :=
  if vfIgnored off then rejectWrite off v 1 s
  else if !vfRegDefined off then undefWrite (.vf n) off s
  else if 0xC0000 ≤ off ∧ off < 0xC0400 then msixWrite n ((off - 0xC0000) / 4) be v s
  else if be ≠ 15#4 then ev 0x9021#16 n.val off be.toNat s
  else if h : off < 0x40000 then
    let q : Fin 64 := ⟨off / 4096, by omega⟩
    if off % 4096 = 0 then doSqTailDoorbell n q v s else doCqHeadDoorbell n q v s
  else if 0xA0000 ≤ off ∧ off < 0xA2000 then jobWrite n (off % 0x2000) v s
  else s

/-- REGISTER_WRITE (R13, R229, R230, R233). -/
def doRegisterWrite (a : Agent) (off : BitVec 26) (be : BitVec 4) (v : BitVec 32) (s : State) : State :=
  match a with
  | .vf n => if n = 0 then s else accessBar n 0 off.toNat (vfRegWrite n off.toNat be v) s
  | _ => access a off.toNat (pfWrite a off.toNat be v) s

/-- WIDE_LOW_READ. -/
def execWideLowRead (a : Agent) (off : BitVec 26) (s : State) : Host.Outcome State Fault Refusal := .next (doWideLowRead a off s)

/-- REGISTER_WRITE. -/
def execRegisterWrite (a : Agent) (off : BitVec 26) (be : BitVec 4) (v : BitVec 32)
    (s : State) : Host.Outcome State Fault Refusal :=
  .next (doRegisterWrite a off be v s)

end Sys2Proof.Machine
end

