-- ==== Sys2Proof/Machine/SaddleCmd.lean ====
section
/-! DEFINITION. The meanings of the platform's commands on a flash channel's port, of its commit mailbox and of the flashes'
answers (chapter 11). -/

namespace Sys2Proof.Machine

/-- The operation issued to a channel's flash has ended (R291): the waits on it end. -/
def opEnded (c : Fin 16) (s : State) : State :=
  let pend := s.sdl.ch[c].rstPend
  let s := modCh c (fun x => { x with writeBusy := none, devOp := none, wip := false, rstPend := false }) s
  let s := if pend then eregLoad c s else s
  allObjs.foldl (fun s o =>
    let x := s.ldg.objs[o]
    if x.redir && x.redirCh == some c && decide (4 ≤ x.redirPhase) then endAbandon o (x.redirPhase - 3) s else s) s

/-- FLASH_READY (R291, R292, R295, R78). -/
def doFlashReady (c : Fin 16) (s : State) : State :=
  if s.sdl.ch[c].writeBusy.isSome || s.sdl.ch[c].devOp.isSome then settle (opEnded c s) else s

/-- PRESENTED_DEVICE_RESET (R292): P_RST# counts in FILTERING alone; the issued operation has ended by its time. -/
def doPresentedDeviceReset (c : Fin 16) (waitUs : BitVec 32) (s : State) : State :=
  let x := s.sdl.ch[c]
  if x.mode == .filtering && !x.isolated then
    let s := if x.writeBusy.isSome then opEnded c s else s
    raise 0xA040#16 (p32 c.val) 1#32 waitUs (eregLoad c s)
  else s

/-- A mailbox command of a FILTERING channel with a mailbox; before device ready it is denied, its opcode a free value (R74). -/
def mailbox (c : Fin 16) (write : Bool) (k : State → State) (s : State) : State :=
  let x := s.sdl.ch[c]
  if x.mode == .filtering && !x.isolated && x.cfg.commitAddr != 0xFFFFFFFF#32 && !x.wip && x.cfg.layout != 2#2 then
    let s := pmcAdd (288 + c.val) 1 (modCh c (fun x => { x with rstArmed := false }) s)
    if s.glb.ready then k s
    else
      let (op, s) := drawFree 8 s
      let a := x.cfg.commitAddr.toNat
      let s := s.modRst fun r => { r with emuHits := r.emuHits + 1 }
      let s := modCh c (fun x => { x with
        deny := bvSat x.deny 1, ldOpcode := op, ldRule := 0xFF#8, ldPage := BitVec.ofNat 16 (a / 65536),
        wel := x.wel && !write, eregs := if write then x.eregs.set 1 (bvPut x.eregs[1] 4 true) else x.eregs }) s
      let s := pmcAdd (304 + c.val) 1 s
      let s := if write then s else emit (.platFill c x.cfg.fill) s
      ev 0xA010#16 c.val (op.toNat * 256 + 0xFF) a s
  else s

/-- MAILBOX_COMMIT (R293, R294 step 6). -/
def doMailboxCommit (c : Fin 16) (o : Fin 64) (s : State) : State :=
  mailbox c true (fun s => (commitReq c o 1 (modCh c (fun x => { x with wel := false }) s)).2) s

/-- MAILBOX_ABANDON (R293, R295). -/
def doMailboxAbandon (c : Fin 16) (o : Fin 64) (s : State) : State :=
  mailbox c true (fun s => (abandonReq c o 1 (modCh c (fun x => { x with wel := false }) s)).2) s

/-- MAILBOX_READ (R293). -/
def doMailboxRead (c : Fin 16) (s : State) : State :=
  mailbox c false (fun s => emit (.platReply c (mboxBytes s.sdl.ch[c] 16)) s) s

/-- CMD_READ. -/
def execCmdRead (c : Fin 16) (k : FlashCmd) (s : State) : Host.Outcome State Fault Refusal :=
  .next (platCmd (· = 1) c k s)

/-- CMD_FAST_READ. -/
def execCmdFastRead (c : Fin 16) (k : FlashCmd) (s : State) : Host.Outcome State Fault Refusal :=
  .next (platCmd (· = 2) c k s)

/-- CMD_REG_READ. -/
def execCmdRegRead (c : Fin 16) (k : FlashCmd) (s : State) : Host.Outcome State Fault Refusal :=
  .next (platCmd (· = 5) c k s)

/-- CMD_SEC_READ. -/
def execCmdSecRead (c : Fin 16) (k : FlashCmd) (s : State) : Host.Outcome State Fault Refusal :=
  .next (platCmd (· = 7) c k s)

/-- CMD_PROGRAM. -/
def execCmdProgram (c : Fin 16) (k : FlashCmd) (s : State) : Host.Outcome State Fault Refusal :=
  .next (platCmd (· = 3) c k s)

/-- CMD_ERASE. -/
def execCmdErase (c : Fin 16) (k : FlashCmd) (s : State) : Host.Outcome State Fault Refusal :=
  .next (platCmd (· = 4) c k s)

/-- CMD_REG_WRITE. -/
def execCmdRegWrite (c : Fin 16) (k : FlashCmd) (s : State) : Host.Outcome State Fault Refusal :=
  .next (platCmd (· = 6) c k s)

/-- CMD_SEC_WRITE. -/
def execCmdSecWrite (c : Fin 16) (k : FlashCmd) (s : State) : Host.Outcome State Fault Refusal :=
  .next (platCmd (· = 8) c k s)

/-- CMD_DISCOVERY. -/
def execCmdDiscovery (c : Fin 16) (k : FlashCmd) (s : State) : Host.Outcome State Fault Refusal :=
  .next (platCmd (· = 9) c k s)

/-- CMD_WRITE_EN. -/
def execCmdWriteEn (c : Fin 16) (k : FlashCmd) (s : State) : Host.Outcome State Fault Refusal :=
  .next (platCmd (· = 10) c k s)

/-- CMD_RESET. -/
def execCmdReset (c : Fin 16) (k : FlashCmd) (s : State) : Host.Outcome State Fault Refusal :=
  .next (platCmd (· = 11) c k s)

/-- CMD_POWER. -/
def execCmdPower (c : Fin 16) (k : FlashCmd) (s : State) : Host.Outcome State Fault Refusal :=
  .next (platCmd (· = 12) c k s)

/-- CMD_SUSPEND. -/
def execCmdSuspend (c : Fin 16) (k : FlashCmd) (s : State) : Host.Outcome State Fault Refusal :=
  .next (platCmd (· = 13) c k s)

/-- CMD_UNDEFINED. -/
def execCmdUndefined (c : Fin 16) (k : FlashCmd) (s : State) : Host.Outcome State Fault Refusal :=
  .next (platCmd (fun n => n = 0 || decide (14 ≤ n)) c k s)

/-- FLASH_READY. -/
def execFlashReady (c : Fin 16) (s : State) : Host.Outcome State Fault Refusal := .next (doFlashReady c s)

/-- PRESENTED_DEVICE_RESET. -/
def execPresentedDeviceReset (c : Fin 16) (waitUs : BitVec 32) (s : State) : Host.Outcome State Fault Refusal :=
  .next (doPresentedDeviceReset c waitUs s)

/-- MAILBOX_COMMIT. -/
def execMailboxCommit (c : Fin 16) (o : Fin 64) (s : State) : Host.Outcome State Fault Refusal :=
  .next (doMailboxCommit c o s)

/-- MAILBOX_ABANDON. -/
def execMailboxAbandon (c : Fin 16) (o : Fin 64) (s : State) : Host.Outcome State Fault Refusal :=
  .next (doMailboxAbandon c o s)

/-- MAILBOX_READ. -/
def execMailboxRead (c : Fin 16) (s : State) : Host.Outcome State Fault Refusal := .next (doMailboxRead c s)

end Sys2Proof.Machine
end

