-- ==== Sys2Proof/Machine/Start.lean ====
section
/-! DEFINITION. The meanings of the commands that start the device (chapter 03). -/

namespace Sys2Proof.Machine

/-- SUPPLY_VALID (R37): VIN at or above 5.4 V; the cold start runs. -/
def doSupplyValid (i : StartIn) (s : State) : State :=
  if s.pwr.supplyValid || decide (i.vinMv.toNat < 5400) then s else coldStart i s

/-- SUPPLY_VALID. -/
def execSupplyValid (i : StartIn) (s : State) : Host.Outcome State Fault Refusal := .next (doSupplyValid i s)

/-- DEV_RST_RELEASE (R35): a start that waits at step 1 goes on. -/
def doDevRstRelease (i : StartIn) (s : State) : State :=
  let s := s.modPins fun p => { p with devRstLow := false }
  if s.rst.heldStart then resumeHeld i s else s

/-- DEV_RST_RELEASE. -/
def execDevRstRelease (i : StartIn) (s : State) : Host.Outcome State Fault Refusal := .next (doDevRstRelease i s)

/-- WARM_RESET_RELEASE (R75). -/
def doWarmResetRelease (i : StartIn) (s : State) : State := if s.rst.ph = .warmHeld then warmStart i s else s

/-- WARM_RESET_RELEASE. -/
def execWarmResetRelease (i : StartIn) (s : State) : Host.Outcome State Fault Refusal := .next (doWarmResetRelease i s)

/-- TRANSITION_RESUME (R114): once HOLD_RDY is set, the transition completes, the life-cycle state is decoded again, the
new root is selected, and the start goes on at step 9. -/
def doTransitionResume (i : StartIn) (s : State) : State :=
  if !s.rst.transHold || !s.pwr.holdRdy then s
  else
    let s := s.modRst fun r => { r with transHold := false }
    match lifeDecode (regWords s.fus 2) with
    | some (7, t) =>
      let (ok, s) := resumeTransition t s
      if !ok then steps9to12 i s
      else match lifeDecode (regWords s.fus 2) with
        | some (lc, _) =>
          let (rootOk, s) := loadRoot (s.modGlb fun g => { g with lc := BitVec.ofNat 3 lc })
          if rootOk then steps9to12 i s else failStart 8 s
        | none => failStart 7 s
    | _ => failStart 7 s

/-- TRANSITION_RESUME. -/
def execTransitionResume (i : StartIn) (s : State) : Host.Outcome State Fault Refusal := .next (doTransitionResume i s)

end Sys2Proof.Machine
end

