-- ==== Sys2Proof/Machine/Timebase.lean ====
section
/-! DEFINITION. The meanings of the timebase's commands (chapter 15, R395, R396). -/

namespace Sys2Proof.Machine

/-- TIMEBASE_LOSS (R395): ticks from the RC oscillator, event 0x2010, the trip of detector A of source 4, and the warm reset. -/
def doTimebaseLoss (s : State) : State :=
  if s.tbs.onRc || s.aon.batteryOnly || !s.pwr.supplyValid || s.pwr.rung == .retain then s
  else
    let s := s.modTbs fun t => { t with
      onRc := true, xtal := false, losses := bvSat t.losses 1, rcSince := t.tick.toNat }
    let s := ev 0x2010#16 (s.tbs.tick.toNat % 2 ^ 32) 0 0 s
    let b := if s.tmp.tripB.getLsbD 4 then 2 else 0
    let s := if watched s 4 then physTrips 4 (1 + b) 1#32 s else s
    trigWarm 2 (endIdle s)

/-- TIMEBASE_RESTORE (R396): after a loss the ticks return to the crystal. -/
def doTimebaseRestore (s : State) : State :=
  if !s.tbs.onRc || s.tbs.losses = 0 || s.aon.batteryOnly || !s.pwr.supplyValid || s.pwr.rung == .retain then s
  else
    let ms := (s.tbs.tick.toNat - s.tbs.rcSince) / 25000
    ev 0x2011#16 ms 0 0 (s.modTbs fun t => { t with onRc := false, xtal := true })

/-- REF32_LOSS (R396). -/
def doRef32Loss (s : State) : State :=
  if !s.tbs.ref32 || s.aon.batteryOnly || !s.pwr.supplyValid then s
  else
    let s := s.modTbs fun t => { t with ref32 := false, refSince := t.tick.toNat }
    endIdle (ev 0x2012#16 0 0 0 (failDet 4 true s))

/-- REF32_RESTORE (R396): the mark of the lost reference is removed; one that a self-test made stays (R393). -/
def doRef32Restore (s : State) : State :=
  if s.tbs.ref32 || s.aon.batteryOnly || !s.pwr.supplyValid then s
  else
    let ms := (s.tbs.tick.toNat - s.tbs.refSince) / 25000
    let s := s.modTmp fun t => { t with failB := bvPut t.failB 4 t.selfFailB4 }
    ev 0x2013#16 ms 0 0 (s.modTbs fun t => { t with ref32 := true })

/-- TIMEBASE_LOSS. -/
def execTimebaseLoss (s : State) : Host.Outcome State Fault Refusal := .next (doTimebaseLoss s)

/-- TIMEBASE_RESTORE. -/
def execTimebaseRestore (s : State) : Host.Outcome State Fault Refusal := .next (doTimebaseRestore s)

/-- REF32_LOSS. -/
def execRef32Loss (s : State) : Host.Outcome State Fault Refusal := .next (doRef32Loss s)

/-- REF32_RESTORE. -/
def execRef32Restore (s : State) : Host.Outcome State Fault Refusal := .next (doRef32Restore s)

end Sys2Proof.Machine
end

