-- ==== Sys2Proof/Machine/Dispatch.lean ====
section
/-! DEFINITION. The effect of every command: one arm per constructor. -/

namespace Sys2Proof.Machine

def exec (i : Instr) (s : State) : Host.Outcome State Fault Refusal :=
  match i with
  | .supplyValid x_i => Sys2Proof.Machine.execSupplyValid x_i s
  | .vinLoss choldMv => Sys2Proof.Machine.execVinLoss choldMv s
  | .vinReturn vinMv choldMv => Sys2Proof.Machine.execVinReturn vinMv choldMv s
  | .vinForceSet vinMv => Sys2Proof.Machine.execVinForceSet vinMv s
  | .vinForceClear vinMv => Sys2Proof.Machine.execVinForceClear vinMv s
  | .vinSurge peakMv durUs => Sys2Proof.Machine.execVinSurge peakMv durUs s
  | .holdUpExhausted => Sys2Proof.Machine.execHoldUpExhausted s
  | .vflashTrip ma => Sys2Proof.Machine.execVflashTrip ma s
  | .vflashRetry => Sys2Proof.Machine.execVflashRetry s
  | .vflashRetrySuccess => Sys2Proof.Machine.execVflashRetrySuccess s
  | .vflashFaultClr a => Sys2Proof.Machine.execVflashFaultClr a s
  | .vflashEnWrite a en => Sys2Proof.Machine.execVflashEnWrite a en s
  | .batteryOnlyEntry vbatMv => Sys2Proof.Machine.execBatteryOnlyEntry vbatMv s
  | .vbatCheck vbatMv => Sys2Proof.Machine.execVbatCheck vbatMv s
  | .autoIdleEntry => Sys2Proof.Machine.execAutoIdleEntry s
  | .autoDozeEntry => Sys2Proof.Machine.execAutoDozeEntry s
  | .rungReqIdle a => Sys2Proof.Machine.execRungReqIdle a s
  | .rungReqDoze a => Sys2Proof.Machine.execRungReqDoze a s
  | .rungReqNap a => Sys2Proof.Machine.execRungReqNap a s
  | .rungReqRest a => Sys2Proof.Machine.execRungReqRest a s
  | .rungReqRetain a => Sys2Proof.Machine.execRungReqRetain a s
  | .lowRungEntry => Sys2Proof.Machine.execLowRungEntry s
  | .rungReqTimeout => Sys2Proof.Machine.execRungReqTimeout s
  | .wake cause w => Sys2Proof.Machine.execWake cause w s
  | .wakeTimerExpiry w => Sys2Proof.Machine.execWakeTimerExpiry w s
  | .retainOnPgEntry => Sys2Proof.Machine.execRetainOnPgEntry s
  | .powerMeasurement pinMw loadMw vinMv choldMv restored => Sys2Proof.Machine.execPowerMeasurement pinMw loadMw vinMv choldMv restored s
  | .thermalForce tj => Sys2Proof.Machine.execThermalForce tj s
  | .thermalForceRelease tj => Sys2Proof.Machine.execThermalForceRelease tj s
  | .profileSelWrite a sel => Sys2Proof.Machine.execProfileSelWrite a sel s
  | .powerOnReset => Sys2Proof.Machine.execPowerOnReset s
  | .brownOut vinMv choldMv => Sys2Proof.Machine.execBrownOut vinMv choldMv s
  | .devRstLow => Sys2Proof.Machine.execDevRstLow s
  | .devRstRelease x_i => Sys2Proof.Machine.execDevRstRelease x_i s
  | .debugReset => Sys2Proof.Machine.execDebugReset s
  | .doubleBitError w => Sys2Proof.Machine.execDoubleBitError w s
  | .glbSwrst a key => Sys2Proof.Machine.execGlbSwrst a key s
  | .managementLockup cause => Sys2Proof.Machine.execManagementLockup cause s
  | .warmResetRelease x_i => Sys2Proof.Machine.execWarmResetRelease x_i s
  | .delayedReset => Sys2Proof.Machine.execDelayedReset s
  | .flashBusyPollTimeout c => Sys2Proof.Machine.execFlashBusyPollTimeout c s
  | .blockResetFus a => Sys2Proof.Machine.execBlockResetFus a s
  | .blockResetWsh a => Sys2Proof.Machine.execBlockResetWsh a s
  | .blockResetJob a => Sys2Proof.Machine.execBlockResetJob a s
  | .blockResetSdl a => Sys2Proof.Machine.execBlockResetSdl a s
  | .blockResetLdg a => Sys2Proof.Machine.execBlockResetLdg a s
  | .blockResetKvt a => Sys2Proof.Machine.execBlockResetKvt a s
  | .blockResetEnt a => Sys2Proof.Machine.execBlockResetEnt a s
  | .blockResetAtt a => Sys2Proof.Machine.execBlockResetAtt a s
  | .blockResetChp a => Sys2Proof.Machine.execBlockResetChp a s
  | .blockResetEvr a => Sys2Proof.Machine.execBlockResetEvr a s
  | .blockResetPmc a => Sys2Proof.Machine.execBlockResetPmc a s
  | .unservedBarAccess a bar off write => Sys2Proof.Machine.execUnservedBarAccess a bar off write s
  | .fusRead a key => Sys2Proof.Machine.execFusRead a key s
  | .fusProgram a key => Sys2Proof.Machine.execFusProgram a key s
  | .complete a key region => Sys2Proof.Machine.execComplete a key region s
  | .lockWrite a key region => Sys2Proof.Machine.execLockWrite a key region s
  | .lockRead a key region => Sys2Proof.Machine.execLockRead a key region s
  | .forceLockWrite a key region => Sys2Proof.Machine.execForceLockWrite a key region s
  | .ctrAdvance a key index => Sys2Proof.Machine.execCtrAdvance a key index s
  | .ownRevoke a key index => Sys2Proof.Machine.execOwnRevoke a key index s
  | .patchLoad a key pkg => Sys2Proof.Machine.execPatchLoad a key pkg s
  | .transition a key target msg => Sys2Proof.Machine.execTransition a key target msg s
  | .fusePulseDone tight loose => Sys2Proof.Machine.execFusePulseDone tight loose s
  | .transitionResume x_i => Sys2Proof.Machine.execTransitionResume x_i s
  | .configFieldWrite a off v => Sys2Proof.Machine.execConfigFieldWrite a off v s
  | .liveWriteApply off => Sys2Proof.Machine.execLiveWriteApply off s
  | .configUpdate a key go msg p => Sys2Proof.Machine.execConfigUpdate a key go msg p s
  | .configUpdateTimeout => Sys2Proof.Machine.execConfigUpdateTimeout s
  | .frameBoundary => Sys2Proof.Machine.execFrameBoundary s
  | .frameMidpoint => Sys2Proof.Machine.execFrameMidpoint s
  | .partitionExhausted p r use => Sys2Proof.Machine.execPartitionExhausted p r use s
  | .c0Request p r => Sys2Proof.Machine.execC0Request p r s
  | .wshC0MaxClr a => Sys2Proof.Machine.execWshC0MaxClr a s
  | .slicePoint e => Sys2Proof.Machine.execSlicePoint e s
  | .pinWaitEnd e => Sys2Proof.Machine.execPinWaitEnd e s
  | .jobDispatch id c lane io => Sys2Proof.Machine.execJobDispatch id c lane io s
  | .engineJoin id lane => Sys2Proof.Machine.execEngineJoin id lane s
  | .programStoreWrite a off => Sys2Proof.Machine.execProgramStoreWrite a off s
  | .accelCommandDone e => Sys2Proof.Machine.execAccelCommandDone e s
  | .supplyDifferenceFault c n mv second => Sys2Proof.Machine.execSupplyDifferenceFault c n mv second s
  | .temperatureDifference hot cool dt => Sys2Proof.Machine.execTemperatureDifference hot cool dt s
  | .plnGradClr a => Sys2Proof.Machine.execPlnGradClr a s
  | .offlineWrite a c v => Sys2Proof.Machine.execOfflineWrite a c v s
  | .clusterOffline c => Sys2Proof.Machine.execClusterOffline c s
  | .iAdd e gd ga gb => Sys2Proof.Machine.execIAdd e gd ga gb s
  | .iSub e gd ga gb => Sys2Proof.Machine.execISub e gd ga gb s
  | .iAnd e gd ga gb => Sys2Proof.Machine.execIAnd e gd ga gb s
  | .iOr e gd ga gb => Sys2Proof.Machine.execIOr e gd ga gb s
  | .iXor e gd ga gb => Sys2Proof.Machine.execIXor e gd ga gb s
  | .iShl e gd ga gb => Sys2Proof.Machine.execIShl e gd ga gb s
  | .iShr e gd ga gb => Sys2Proof.Machine.execIShr e gd ga gb s
  | .iSra e gd ga gb => Sys2Proof.Machine.execISra e gd ga gb s
  | .iSltu e gd ga gb => Sys2Proof.Machine.execISltu e gd ga gb s
  | .iCsel e gd ga gb => Sys2Proof.Machine.execICsel e gd ga gb s
  | .iAddi e gd ga imm => Sys2Proof.Machine.execIAddi e gd ga imm s
  | .iAndi e gd ga imm => Sys2Proof.Machine.execIAndi e gd ga imm s
  | .iOri e gd ga imm => Sys2Proof.Machine.execIOri e gd ga imm s
  | .iShli e gd ga imm => Sys2Proof.Machine.execIShli e gd ga imm s
  | .iShri e gd ga imm => Sys2Proof.Machine.execIShri e gd ga imm s
  | .iLdi e gd imm => Sys2Proof.Machine.execILdi e gd imm s
  | .iLdhi e gd imm => Sys2Proof.Machine.execILdhi e gd imm s
  | .iAddc e gd ga gb => Sys2Proof.Machine.execIAddc e gd ga gb s
  | .iAddcS e gd ga gb => Sys2Proof.Machine.execIAddcS e gd ga gb s
  | .iSubb e gd ga gb => Sys2Proof.Machine.execISubb e gd ga gb s
  | .iSubbS e gd ga gb => Sys2Proof.Machine.execISubbS e gd ga gb s
  | .iMullo e gd ga gb => Sys2Proof.Machine.execIMullo e gd ga gb s
  | .iMulhi e gd ga gb => Sys2Proof.Machine.execIMulhi e gd ga gb s
  | .iMmul e gd ga gb => Sys2Proof.Machine.execIMmul e gd ga gb s
  | .iMadd e gd ga gb => Sys2Proof.Machine.execIMadd e gd ga gb s
  | .iMsub e gd ga gb => Sys2Proof.Machine.execIMsub e gd ga gb s
  | .iBfly e gd ga gb => Sys2Proof.Machine.execIBfly e gd ga gb s
  | .iBflyI e gd ga gb => Sys2Proof.Machine.execIBflyI e gd ga gb s
  | .iLdw e gd ga off => Sys2Proof.Machine.execILdw e gd ga off s
  | .iStw e gd ga off => Sys2Proof.Machine.execIStw e gd ga off s
  | .iLdp e gd ga stp => Sys2Proof.Machine.execILdp e gd ga stp s
  | .iStp e gd ga stp => Sys2Proof.Machine.execIStp e gd ga stp s
  | .iSin e gd => Sys2Proof.Machine.execISin e gd s
  | .streamInWord e w last => Sys2Proof.Machine.execStreamInWord e w last s
  | .iSout e ga => Sys2Proof.Machine.execISout e ga s
  | .streamOutCredit e => Sys2Proof.Machine.execStreamOutCredit e s
  | .kckInit e ga => Sys2Proof.Machine.execKckInit e ga s
  | .kckAbsorb e ga gb => Sys2Proof.Machine.execKckAbsorb e ga gb s
  | .kckFinal e => Sys2Proof.Machine.execKckFinal e s
  | .kckSqueeze e gd gb => Sys2Proof.Machine.execKckSqueeze e gd gb s
  | .kckRelease e => Sys2Proof.Machine.execKckRelease e s
  | .shaInit e ga => Sys2Proof.Machine.execShaInit e ga s
  | .shaAbsorb e ga gb => Sys2Proof.Machine.execShaAbsorb e ga gb s
  | .shaFinal e gd => Sys2Proof.Machine.execShaFinal e gd s
  | .shaRelease e => Sys2Proof.Machine.execShaRelease e s
  | .aesInit e ga gb => Sys2Proof.Machine.execAesInit e ga gb s
  | .aesAad e ga gb => Sys2Proof.Machine.execAesAad e ga gb s
  | .aesEnc e gd ga gb => Sys2Proof.Machine.execAesEnc e gd ga gb s
  | .aesDec e gd ga gb => Sys2Proof.Machine.execAesDec e gd ga gb s
  | .aesTag e gd => Sys2Proof.Machine.execAesTag e gd s
  | .aesRelease e => Sys2Proof.Machine.execAesRelease e s
  | .iBeq e gd ga off => Sys2Proof.Machine.execIBeq e gd ga off s
  | .iBne e gd ga off => Sys2Proof.Machine.execIBne e gd ga off s
  | .iBlt e gd ga off => Sys2Proof.Machine.execIBlt e gd ga off s
  | .iBge e gd ga off => Sys2Proof.Machine.execIBge e gd ga off s
  | .iJmp e off => Sys2Proof.Machine.execIJmp e off s
  | .iCall e gd off => Sys2Proof.Machine.execICall e gd off s
  | .iRet e ga => Sys2Proof.Machine.execIRet e ga s
  | .iLoop e gd n => Sys2Proof.Machine.execILoop e gd n s
  | .iWaitc e ga b => Sys2Proof.Machine.execIWaitc e ga b s
  | .iSignal e b => Sys2Proof.Machine.execISignal e b s
  | .iMfs e gd x_s => Sys2Proof.Machine.execIMfs e gd x_s s
  | .iMts e x_s ga => Sys2Proof.Machine.execIMts e x_s ga s
  | .iKeyld e gd ga gb => Sys2Proof.Machine.execIKeyld e gd ga gb s
  | .iKeyldA e ga => Sys2Proof.Machine.execIKeyldA e ga s
  | .keyldComplete e => Sys2Proof.Machine.execKeyldComplete e s
  | .iDcl e gd => Sys2Proof.Machine.execIDcl e gd s
  | .iHalt e => Sys2Proof.Machine.execIHalt e s
  | .iTrap e code => Sys2Proof.Machine.execITrap e code s
  | .linkUp width reversed flit => Sys2Proof.Machine.execLinkUp width reversed flit s
  | .linkDown ltssm => Sys2Proof.Machine.execLinkDown ltssm s
  | .hotReset => Sys2Proof.Machine.execHotReset s
  | .perstAssert => Sys2Proof.Machine.execPerstAssert s
  | .perstRelease => Sys2Proof.Machine.execPerstRelease s
  | .functionLevelReset f => Sys2Proof.Machine.execFunctionLevelReset f s
  | .vfEnableWrite en numVf => Sys2Proof.Machine.execVfEnableWrite en numVf s
  | .functionReturnD0 f => Sys2Proof.Machine.execFunctionReturnD0 f s
  | .bar2Read off n l => Sys2Proof.Machine.execBar2Read off n l s
  | .bar2ReadTimeout off => Sys2Proof.Machine.execBar2ReadTimeout off s
  | .bar2Write off => Sys2Proof.Machine.execBar2Write off s
  | .atomicOp f bar off => Sys2Proof.Machine.execAtomicOp f bar off s
  | .wideLowRead a off => Sys2Proof.Machine.execWideLowRead a off s
  | .eventRingBaseWrite a hi v => Sys2Proof.Machine.execEventRingBaseWrite a hi v s
  | .eventRingCtrlWrite a v => Sys2Proof.Machine.execEventRingCtrlWrite a v s
  | .eventRingHeadWrite a v => Sys2Proof.Machine.execEventRingHeadWrite a v s
  | .messagePost => Sys2Proof.Machine.execMessagePost s
  | .msixHoldoffExpiry => Sys2Proof.Machine.execMsixHoldoffExpiry s
  | .ideIntegrityFailure st => Sys2Proof.Machine.execIdeIntegrityFailure st s
  | .idePolicyRefusal f bar off posted => Sys2Proof.Machine.execIdePolicyRefusal f bar off posted s
  | .ideKmKeyProg st kid key => Sys2Proof.Machine.execIdeKmKeyProg st kid key s
  | .ideKmKeySetStop st kid => Sys2Proof.Machine.execIdeKmKeySetStop st kid s
  | .spdmGetMeasurements index => Sys2Proof.Machine.execSpdmGetMeasurements index s
  | .spdmSetCertificate => Sys2Proof.Machine.execSpdmSetCertificate s
  | .doeAbort => Sys2Proof.Machine.execDoeAbort s
  | .pmeTurnOff => Sys2Proof.Machine.execPmeTurnOff s
  | .pmeTimeout => Sys2Proof.Machine.execPmeTimeout s
  | .queueEnable a f q v => Sys2Proof.Machine.execQueueEnable a f q v s
  | .queueDisable a f q => Sys2Proof.Machine.execQueueDisable a f q s
  | .queueAbort a f q => Sys2Proof.Machine.execQueueAbort a f q s
  | .sqTailDoorbell f q v => Sys2Proof.Machine.execSqTailDoorbell f q v s
  | .cqHeadDoorbell f q v => Sys2Proof.Machine.execCqHeadDoorbell f q v s
  | .descriptorFetch f q ds => Sys2Proof.Machine.execDescriptorFetch f q ds s
  | .descriptorReadFailure f q => Sys2Proof.Machine.execDescriptorReadFailure f q s
  | .opHash id => Sys2Proof.Machine.execOpHash id s
  | .opMerkleVerify id => Sys2Proof.Machine.execOpMerkleVerify id s
  | .opSigVerify id => Sys2Proof.Machine.execOpSigVerify id s
  | .opSigSign id => Sys2Proof.Machine.execOpSigSign id s
  | .opKemDecaps id => Sys2Proof.Machine.execOpKemDecaps id s
  | .opAeadSeal id => Sys2Proof.Machine.execOpAeadSeal id s
  | .opAeadOpen id => Sys2Proof.Machine.execOpAeadOpen id s
  | .opDerive id => Sys2Proof.Machine.execOpDerive id s
  | .opImageCheck id => Sys2Proof.Machine.execOpImageCheck id s
  | .opEvidence id => Sys2Proof.Machine.execOpEvidence id s
  | .opLoadProgram id img => Sys2Proof.Machine.execOpLoadProgram id img s
  | .opCustom id => Sys2Proof.Machine.execOpCustom id s
  | .coalescingTimer f q => Sys2Proof.Machine.execCoalescingTimer f q s
  | .jobTimeout id => Sys2Proof.Machine.execJobTimeout id s
  | .discovery c r => Sys2Proof.Machine.execDiscovery c r s
  | .cmdRead c k => Sys2Proof.Machine.execCmdRead c k s
  | .cmdFastRead c k => Sys2Proof.Machine.execCmdFastRead c k s
  | .cmdRegRead c k => Sys2Proof.Machine.execCmdRegRead c k s
  | .cmdSecRead c k => Sys2Proof.Machine.execCmdSecRead c k s
  | .cmdProgram c k => Sys2Proof.Machine.execCmdProgram c k s
  | .cmdErase c k => Sys2Proof.Machine.execCmdErase c k s
  | .cmdRegWrite c k => Sys2Proof.Machine.execCmdRegWrite c k s
  | .cmdSecWrite c k => Sys2Proof.Machine.execCmdSecWrite c k s
  | .cmdDiscovery c k => Sys2Proof.Machine.execCmdDiscovery c k s
  | .cmdWriteEn c k => Sys2Proof.Machine.execCmdWriteEn c k s
  | .cmdReset c k => Sys2Proof.Machine.execCmdReset c k s
  | .cmdPower c k => Sys2Proof.Machine.execCmdPower c k s
  | .cmdSuspend c k => Sys2Proof.Machine.execCmdSuspend c k s
  | .cmdUndefined c k => Sys2Proof.Machine.execCmdUndefined c k s
  | .flashReady c => Sys2Proof.Machine.execFlashReady c s
  | .presentedDeviceReset c waitUs => Sys2Proof.Machine.execPresentedDeviceReset c waitUs s
  | .mailboxCommit c o => Sys2Proof.Machine.execMailboxCommit c o s
  | .mailboxAbandon c o => Sys2Proof.Machine.execMailboxAbandon c o s
  | .mailboxRead c => Sys2Proof.Machine.execMailboxRead c s
  | .stagedCheckDone o f => Sys2Proof.Machine.execStagedCheckDone o f s
  | .deviceReadStarved c kind => Sys2Proof.Machine.execDeviceReadStarved c kind s
  | .cvLeafCheck c l => Sys2Proof.Machine.execCvLeafCheck c l s
  | .sdlCommit a key c o => Sys2Proof.Machine.execSdlCommit a key c o s
  | .sdlAbandon a key c o => Sys2Proof.Machine.execSdlAbandon a key c o s
  | .pwrCycle a key c => Sys2Proof.Machine.execPwrCycle a key c s
  | .pwrCycleEnd c => Sys2Proof.Machine.execPwrCycleEnd c s
  | .goldenViewOff a key => Sys2Proof.Machine.execGoldenViewOff a key s
  | .contverWrite a v => Sys2Proof.Machine.execContverWrite a v s
  | .contverApply c => Sys2Proof.Machine.execContverApply c s
  | .sdlChClr a c => Sys2Proof.Machine.execSdlChClr a c s
  | .vioPlatLow c mv => Sys2Proof.Machine.execVioPlatLow c mv s
  | .vioPlatValid c mv => Sys2Proof.Machine.execVioPlatValid c mv s
  | .slotCheckDone o w f => Sys2Proof.Machine.execSlotCheckDone o w f s
  | .releaseDelayExpiry d => Sys2Proof.Machine.execReleaseDelayExpiry d s
  | .prsHold a key d => Sys2Proof.Machine.execPrsHold a key d s
  | .prsRelease a key d => Sys2Proof.Machine.execPrsRelease a key d s
  | .prsRestart a key d => Sys2Proof.Machine.execPrsRestart a key d s
  | .holdCauseTimer d bit => Sys2Proof.Machine.execHoldCauseTimer d bit s
  | .domPgChange d good => Sys2Proof.Machine.execDomPgChange d good s
  | .readbackLow d ms => Sys2Proof.Machine.execReadbackLow d ms s
  | .readbackHigh d => Sys2Proof.Machine.execReadbackHigh d s
  | .ledgerAppend r bad => Sys2Proof.Machine.execLedgerAppend r bad s
  | .adopt a key o slotB f => Sys2Proof.Machine.execAdopt a key o slotB f s
  | .rcvWrite a key o dmaOk p => Sys2Proof.Machine.execRcvWrite a key o dmaOk p s
  | .rcvDone a key => Sys2Proof.Machine.execRcvDone a key s
  | .retry a key => Sys2Proof.Machine.execRetry a key s
  | .compact a key => Sys2Proof.Machine.execCompact a key s
  | .recoveryPackage p => Sys2Proof.Machine.execRecoveryPackage p s
  | .recoveryReadbackDone f => Sys2Proof.Machine.execRecoveryReadbackDone f s
  | .rcvTimeout => Sys2Proof.Machine.execRcvTimeout s
  | .retryMinExpiry => Sys2Proof.Machine.execRetryMinExpiry s
  | .kvtGenerate a key slot checkOk dmaOk => Sys2Proof.Machine.execKvtGenerate a key slot checkOk dmaOk s
  | .kvtZeroise a key slot => Sys2Proof.Machine.execKvtZeroise a key slot s
  | .kvtMsg a key dmaOk checkOk msg => Sys2Proof.Machine.execKvtMsg a key dmaOk checkOk msg s
  | .kvtPubkey a key slot dmaOk => Sys2Proof.Machine.execKvtPubkey a key slot dmaOk s
  | .imageWriteDone ok cause => Sys2Proof.Machine.execImageWriteDone ok cause s
  | .restoreDone => Sys2Proof.Machine.execRestoreDone s
  | .remaskPass delayUs => Sys2Proof.Machine.execRemaskPass delayUs s
  | .entStartupDone => Sys2Proof.Machine.execEntStartupDone s
  | .healthTestFailure adaptive n => Sys2Proof.Machine.execHealthTestFailure adaptive n s
  | .drbgReseed => Sys2Proof.Machine.execDrbgReseed s
  | .aggregate a key nonce dmaOk => Sys2Proof.Machine.execAggregate a key nonce dmaOk s
  | .rejoin a key => Sys2Proof.Machine.execRejoin a key s
  | .endorse a key dmaOk => Sys2Proof.Machine.execEndorse a key dmaOk s
  | .attEvidence a key nonce dmaOk => Sys2Proof.Machine.execAttEvidence a key nonce dmaOk s
  | .joinHello => Sys2Proof.Machine.execJoinHello s
  | .joinChal => Sys2Proof.Machine.execJoinChal s
  | .joinReq => Sys2Proof.Machine.execJoinReq s
  | .joinKey => Sys2Proof.Machine.execJoinKey s
  | .evidReq => Sys2Proof.Machine.execEvidReq s
  | .evid => Sys2Proof.Machine.execEvid s
  | .rcvReq data readFault => Sys2Proof.Machine.execRcvReq data readFault s
  | .rcvData => Sys2Proof.Machine.execRcvData s
  | .rcvEnd => Sys2Proof.Machine.execRcvEnd s
  | .nak => Sys2Proof.Machine.execNak s
  | .roundDeadline => Sys2Proof.Machine.execRoundDeadline s
  | .inboxClaim a => Sys2Proof.Machine.execInboxClaim a s
  | .inboxDoorbell a slot len => Sys2Proof.Machine.execInboxDoorbell a slot len s
  | .inboxClaimExpiry slot => Sys2Proof.Machine.execInboxClaimExpiry slot s
  | .peerTxTimeout => Sys2Proof.Machine.execPeerTxTimeout s
  | .attTxHeadWrite a v => Sys2Proof.Machine.execAttTxHeadWrite a v s
  | .tamperAlarm src det cause => Sys2Proof.Machine.execTamperAlarm src det cause s
  | .tamperConditionEnd src => Sys2Proof.Machine.execTamperConditionEnd src s
  | .tamperSample a b => Sys2Proof.Machine.execTamperSample a b s
  | .tmpAck a key src => Sys2Proof.Machine.execTmpAck a key src s
  | .holdAutoRelease src => Sys2Proof.Machine.execHoldAutoRelease src s
  | .selftest a key src => Sys2Proof.Machine.execSelftest a key src s
  | .selftestDone okA okB => Sys2Proof.Machine.execSelftestDone okA okB s
  | .timebaseLoss => Sys2Proof.Machine.execTimebaseLoss s
  | .timebaseRestore => Sys2Proof.Machine.execTimebaseRestore s
  | .ref32Loss => Sys2Proof.Machine.execRef32Loss s
  | .ref32Restore => Sys2Proof.Machine.execRef32Restore s
  | .wdgDevStart a key => Sys2Proof.Machine.execWdgDevStart a key s
  | .wdgCheckin a key task => Sys2Proof.Machine.execWdgCheckin a key task s
  | .wdgWindowOpen => Sys2Proof.Machine.execWdgWindowOpen s
  | .wdgPeriodEnd => Sys2Proof.Machine.execWdgPeriodEnd s
  | .platKick a d token => Sys2Proof.Machine.execPlatKick a d token s
  | .platWdgExpiry d => Sys2Proof.Machine.execPlatWdgExpiry d s
  | .chpStart a key => Sys2Proof.Machine.execChpStart a key s
  | .chpFrameEnd edges inBytes => Sys2Proof.Machine.execChpFrameEnd edges inBytes s
  | .chpSelWrite a v => Sys2Proof.Machine.execChpSelWrite a v s
  | .chpGpioWrite a v => Sys2Proof.Machine.execChpGpioWrite a v s
  | .windowRead a off n edges data => Sys2Proof.Machine.execWindowRead a off n edges data s
  | .windowWrite a off => Sys2Proof.Machine.execWindowWrite a off s
  | .windowReadTimeout off n => Sys2Proof.Machine.execWindowReadTimeout off n s
  | .slvData f => Sys2Proof.Machine.execSlvData f s
  | .slvEnd f => Sys2Proof.Machine.execSlvEnd f s
  | .slvStatus => Sys2Proof.Machine.execSlvStatus s
  | .eventRaised code p0 p1 p2 => Sys2Proof.Machine.execEventRaised code p0 p1 p2 s
  | .spillFlush bad => Sys2Proof.Machine.execSpillFlush bad s
  | .freeze a key => Sys2Proof.Machine.execFreeze a key s
  | .thaw a key => Sys2Proof.Machine.execThaw a key s
  | .freezeTimeLimit => Sys2Proof.Machine.execFreezeTimeLimit s
  | .setCal a key => Sys2Proof.Machine.execSetCal a key s
  | .evrCursorWrite a v => Sys2Proof.Machine.execEvrCursorWrite a v s
  | .evrWinAutoRead a => Sys2Proof.Machine.execEvrWinAutoRead a s
  | .spillSnapshotLoaded => Sys2Proof.Machine.execSpillSnapshotLoaded s
  | .pmcBwWindowEnd m moved => Sys2Proof.Machine.execPmcBwWindowEnd m moved s
  | .pmcBwClr a m => Sys2Proof.Machine.execPmcBwClr a m s
  | .pmcTagEnable a => Sys2Proof.Machine.execPmcTagEnable a s
  | .pmcTagClr a => Sys2Proof.Machine.execPmcTagClr a s
  | .registerWrite a off be v => Sys2Proof.Machine.execRegisterWrite a off be v s
  | .holdRdy choldMv => Sys2Proof.Machine.execHoldRdy choldMv s
  | .configurationWrite f w => Sys2Proof.Machine.execConfigurationWrite f w s
  | .linkSpeedChange speed width => Sys2Proof.Machine.execLinkSpeedChange speed width s
  | .dmaError id which => Sys2Proof.Machine.execDmaError id which s
  | .ideKmKeySetGo st set => Sys2Proof.Machine.execIdeKmKeySetGo st set s
  | .spdmRequest k session => Sys2Proof.Machine.execSpdmRequest k session s
  | .slaveFramingFault edges => Sys2Proof.Machine.execSlaveFramingFault edges s
  | .peerInboxClaimed slot => Sys2Proof.Machine.execPeerInboxClaimed slot s
  | .undefinedOpcode e w => Sys2Proof.Machine.execUndefinedOpcode e w s

end Sys2Proof.Machine
end

