-- ==== Sys2Proof/Safety.lean ====
section
/-! DEFINITION. The terms the statements use: what a safe state is, what a command's answer says, what it leaves as it was, and
who reaches a register. -/

namespace Sys2Proof.Safety

open Sys2Proof.Machine

/-- The block holds no more than the sizes the spec gives: the message queue (R242), the event ring (R428), the staging
queue (R429) and the battery buffer (R430). -/
def Bounded (s : State) : Prop :=
  s.hlk.msgs.length ≤ 512 ∧ s.evr.ring.length ≤ 8192 ∧ s.evr.staged.length ≤ 32 ∧ s.aon.buffer.length ≤ 16

/-- The addressed memories of the block are in their canonical form: the fuse words, the inbox, the Chain Port's buffers, the
counters and the clusters' data memories. -/
def MemOk (s : State) : Prop :=
  cellWf (0#39, 0#39) s.fus.array = true ∧ cellWf 0#8 s.att.inboxBuf = true ∧ cellWf 0#8 s.chp.tx = true ∧
    cellWf 0#8 s.chp.rx = true ∧ cellWf 0#48 s.pmc.cnt = true ∧ ∀ c : Fin 64, cellWf 0#27 s.pln.clusters[c].mem = true

/-- A platform reset line is asserted exactly where its domain is not RELEASED (00 R1, 12 R306). -/
def LinesFollow (s : State) : Prop := ∀ d : Fin 32, s.pins.domRst.getLsbD d.val = decide (s.prs.dom[d].st ≠ .released)

/-- A command answers a next state, and `P` holds of it. -/
def Does (c : Instr) (s : State) (P : State → Prop) : Prop := ∃ t, exec c s = .next t ∧ P t

/-- An access to PF0 BAR0 reaches its register (R51, R88, R229, R236): the management program's in L0 to L3; PF0's where it
decodes its BARs, above L3, in a window served now; a virtual function's never. -/
def Reach (a : Agent) (off : Nat) (s : State) : Prop :=
  match a with
  | .mgmt => s.pwr.rung ≠ .rest ∧ s.pwr.rung ≠ .retain
  | .pf0 => decodes s 0 = true ∧ lowRung s = false ∧ servedWin s (off / 0x100000) = true
  | .vf _ => False

/-- An engine issues an instruction (08 R196, R198, R204): it holds a job, runs, waits on nothing, and its program counter
lies in the program's range at a word of right parity. -/
def Issues (e : Fin 1024) (x : Engine) (j : Job) (s : State) : Prop :=
  eng? s e.val = some x ∧ x.st = .running ∧ x.blk = none ∧ job? s x.job = some j ∧ inRange s j x.pc = true ∧
    ¬ x.pc.toNat ∈ (cluster s (e.val / 16)).badParity

/-- An engine that completed an instruction with its registers as in `y` and `npc` next in sequence: the issue count, the
loop-back and the slice point at 256 (08 R181, R198, R203). -/
def issued (x y : Engine) (npc : BitVec 15) : Engine :=
  let z := loopBack { y with issued := x.issued + 1 } x.pc npc
  if 256 ≤ x.issued + 1 then { z with st := .atSlice } else z

/-- As above, for an instruction that transfers control. -/
def jumped (x y : Engine) (pc : BitVec 15) : Engine :=
  let z := { y with issued := x.issued + 1, pc := pc }
  if 256 ≤ x.issued + 1 then { z with st := .atSlice } else z

/-- What an instruction that works on its engine, its cluster and its job leaves as it was. -/
def EngineFrame (s t : State) : Prop :=
  t.glb = s.glb ∧ t.pwr = s.pwr ∧ t.pins = s.pins ∧ t.tbs = s.tbs ∧ t.rst = s.rst ∧ t.boot = s.boot ∧ t.nv = s.nv ∧
    t.fus = s.fus ∧ t.wsh = s.wsh ∧ t.sdl = s.sdl ∧ t.prs = s.prs ∧ t.ldg = s.ldg ∧ t.kvt = s.kvt ∧ t.ent = s.ent ∧
    t.att = s.att ∧ t.tmp = s.tmp ∧ t.wdg = s.wdg ∧ t.chp = s.chp ∧ t.pending = s.pending

/-- The instruction completes: its engine is then `z`, and no other engine, no cluster, no job and no other block of the
device has changed, event records, counters and the instruction tags (17 R445) apart. -/
def Completes (c : Instr) (e : Fin 1024) (z : Engine) (j : Job) (s : State) : Prop :=
  inRange s j z.pc = true →
    Does c s fun t => t.pln = { s.pln with engines := assocPut s.pln.engines e.val z } ∧ t.job = s.job ∧ EngineFrame s t

/-- The instruction traps (07 R167, R197, 10 R271): no engine works for the job any more, and what is left of the job, until
its record is written, has the trap's status and trap word. -/
def Traps (c : Instr) (x : Engine) (cause code status : Nat) (s : State) : Prop :=
  Does c s fun t => t.pln.traps = bvSat s.pln.traps 1 ∧ (∀ p ∈ t.pln.engines, p.2.job ≠ x.job) ∧
    ∀ k ∈ t.job.jobs, k.id = x.job → k.ph = .done ∧ k.status = BitVec.ofNat 8 status ∧
      k.result = trapWord cause x.eid.toNat code x.pc.toNat

/-- The instruction blocks its engine (08 R196): it waits with its operands, and no other engine, no cluster, no job and no
other block of the device has changed. -/
def Blocks (c : Instr) (e : Fin 1024) (x : Engine) (b : Blocked) (s : State) : Prop :=
  Does c s fun t => t.pln = { s.pln with engines := assocPut s.pln.engines e.val { x with issued := x.issued + 1, blk := some b } } ∧
    t.job = s.job ∧ EngineFrame s t

/-- An engine whose blocked instruction completed, with its registers as in `y` (08 R181, R198). -/
def unblocked (y : Engine) (s : State) : Engine :=
  loopBack { y with blk := none, issued := 0, sliceTick := s.tbs.tick.toNat } y.pc (y.pc + 1)

/-- A store (08 R178, R201): the engine is then `z`, the word at the job's address `a` reads as stored with its guard bit,
and every other word of every cluster's memory as before. -/
def Stores (c : Instr) (e : Fin 1024) (z : Engine) (j : Job) (a v : BitVec 24) (g : Bool) (s : State) : Prop :=
  ∀ (cl : Fin 64) (p : Fin 128) (gp : Bool), j.cluster = some cl → pageAt j a = some (p, gp) → (g = false ∨ gp = true) →
    cellWf 0#27 s.pln.clusters[cl].mem = true → inRange s j z.pc = true →
    Does c s fun t => eng? t e.val = some z ∧
      cellGet 0#27 t.pln.clusters[cl].mem (memKey p a.toNat) = wordOf v g ∧
      (∀ (d : Fin 64) k, d ≠ cl ∨ k ≠ memKey p a.toNat →
        cellGet 0#27 t.pln.clusters[d].mem k = cellGet 0#27 s.pln.clusters[d].mem k) ∧
      (∀ e', e' ≠ e.val → eng? t e' = eng? s e') ∧ t.job = s.job ∧ EngineFrame s t

/-- A job is over with a status and RESULT (10 R259, R271): no engine works for it, and it is done where its record is not
written yet. -/
def Ended (id status : Nat) (result : BitVec 32) (t : State) : Prop :=
  (∀ p ∈ t.pln.engines, p.2.job ≠ id) ∧
    ∀ k ∈ t.job.jobs, k.id = id → k.ph = .done ∧ k.status = BitVec.ofNat 8 status ∧ k.result = result

/-- Job numbers are distinct, and the next one is new. -/
def JobIds (s : State) : Prop :=
  (s.job.jobs.map (·.id)).Nodup ∧ ∀ j ∈ s.job.jobs, j.id < s.job.nextId

/-- An access reaches a function's JOB registers (09 R233, 10 R273): in the JOB window, or a virtual function's own in its
BAR0. -/
def ReachFn (a : Agent) (f : Fin 16) (off : Nat) (s : State) : Prop :=
  match a with
  | .vf n => n = f ∧ n ≠ 0 ∧ decodes s n = true ∧ lowRung s = false ∧ servedBars s = true
  | _ => Reach a (0x810000 + 0x2000 * f.val + off) s

/-- Check 1 of R252 for what every operation's descriptor obeys (10 R253). -/
def DescFits (d : Desc) : Prop :=
  d.flags.toNat < 16 ∧ d.progId.toNat < 4096 ∧ (d.keySlot.toNat ≤ 255 ∨ d.keySlot = 0xFFFF#16) ∧
    (d.dstSlot.toNat ≤ 255 ∨ d.dstSlot = 0xFFFF#16) ∧ (d.srcLen = 0#32 → d.src = 0#64) ∧ (d.dstLen = 0#32 → d.dst = 0#64) ∧
    (d.auxLen = 0#32 → d.aux = 0#64) ∧ d.auxLen.toNat ≤ 65536 ∧ d.zero = 0#32

/-- A fetched job of an operation whose descriptor fits, that has a place and the entropy it needs (10 R252, R253). -/
def Fetched (s : State) (id op : Nat) (j : Job) : Prop :=
  job? s id = some j ∧ j.ph = .fetched ∧ j.d.op.toNat = op ∧ DescFits j.d ∧ (part s (8 + j.fn.val)).cls ≠ 0 ∧ entropyOn s = true

/-- KEY_SLOT names a key that the function owns, that carries the use, and that the life-cycle state permits (06 R177,
10 R252). `extra` is a destination that it must also name. -/
def KeyFits (s : State) (j : Job) (use : Nat) (extra : BitVec 16) : Prop :=
  let x := slotAt s j.d.keySlot.toNat
  j.d.keySlot ≠ 0xFFFF#16 ∧ x.ktype ≠ 0 ∧ x.owner = j.fn.val ∧ (attrUse x.attr).getLsbD (use - 1) = true ∧
    attrMinLc x.attr ≤ s.glb.lc.toNat ∧ (attrDest x.attr).setWidth 8 ≠ 0#8 ∧ attrDest x.attr &&& extra = extra

/-- A well-formed command of a class on a FILTERING channel whose presented device is not busy and outside the commit
mailbox's page (11 R284). -/
def Filtered (s : State) (c : Fin 16) (k : FlashCmd) (cls : Nat) : Prop :=
  let x := s.sdl.ch[c]
  x.mode = .filtering ∧ x.isolated = false ∧ opClass x k.opcode = cls ∧ malformed x k = 0 ∧ x.wip = false ∧ inMailbox x k = false

/-- What a denial leaves (11 R289): the count, the last denial, WEL clear after a write class. -/
def Denied (s t : State) (c : Fin 16) (k : FlashCmd) (rule : Nat) : Prop :=
  let x := s.sdl.ch[c]
  let y := t.sdl.ch[c]
  y.deny = bvSat x.deny 1 ∧ y.ldOpcode = k.opcode ∧ y.ldRule = BitVec.ofNat 8 rule ∧
    y.ldPage = BitVec.ofNat 16 (testAddr x k / 65536) ∧ y.wel = (x.wel && !writeClass (opClass x k.opcode)) ∧
    y.writeBusy = x.writeBusy ∧ y.wip = x.wip

/-- A write class issued to a flash (11 R283, R291): the Saddle's WREN, then the command; the presented device is busy. -/
def Issued (s t : State) (c : Fin 16) (cs1 : Bool) (k : FlashCmd) : Prop :=
  t.out.log = .flashCmd c cs1 k.opcode k.addr k.data :: .flashCmd c cs1 0x06#8 0#32 [] :: s.out.log ∧
    t.sdl.ch[c].wip = true ∧ t.sdl.ch[c].wel = false ∧ t.sdl.ch[c].writeBusy = some (k.opcode, cs1)

/-- A request at the commit mailbox (11 R293): a FILTERING channel that has one, not busy, after device ready. -/
def Mailbox (s : State) (c : Fin 16) : Prop :=
  let x := s.sdl.ch[c]
  x.mode = .filtering ∧ x.isolated = false ∧ x.cfg.commitAddr ≠ 0xFFFFFFFF#32 ∧ x.wip = false ∧ x.cfg.layout ≠ 2#2 ∧
    s.glb.ready = true

/-- A command answers a next state that its domains have settled to, and `P` holds of the state before they do. -/
def Settles (c : Instr) (s : State) (P : State → Prop) : Prop := ∃ u, exec c s = .next (settle u) ∧ P u

/-- The ledger takes a record (12 R324). -/
def CanAppend (s : State) : Prop := ledCan s = true ∧ s.ldg.seq.toNat + 2 ≤ 0xFFFFFFF0

/-- A record of a slot in the ledger's view (12 R322). -/
def Recorded (t : State) (o : Fin 64) (b : Bool) (st origin : Nat) (ver : BitVec 32) (sec : BitVec 16) : Prop :=
  ∃ r ∈ t.ldg.recs, r.obj.toNat = o.val ∧ r.slot = b ∧ r.st = st ∧ r.origin = origin ∧ r.version = ver ∧ r.secver = sec

/-- A domain that a hold cause takes out of RELEASED or VERIFYING is HELD, its line asserted where it was released (12 R307,
R308). -/
def HeldBy (s u : State) (d : Fin 32) (cause : Nat) : Prop :=
  u.prs.dom[d].hold.getLsbD cause = true ∧
    (s.prs.dom[d].st = .released → u.prs.dom[d].st = .held ∧ u.pins.domRst.getLsbD d.val = true) ∧
    (s.prs.dom[d].st = .verifying → u.prs.dom[d].st = .held)

/-- A warm reset that is asked for now is taken now, and is not the fourth in a row (03 R72, R77). -/
def WarmNow (s : State) : Prop :=
  s.aon.batteryOnly = false ∧ s.pwr.supplyValid = true ∧ s.rst.ph = .none ∧ inColdStart s = false ∧ s.fus.prog = none ∧
    s.rst.consec.toNat < 3

/-- A warm reset was taken for bit `i` of the warm causes (03 R69, R73). -/
def WarmTaken (t : State) (i : Nat) : Prop :=
  t.rst.ph = .warmHeld ∧ t.rst.warm.getLsbD i = true ∧ t.rst.pendWarm = bit true i ∧ t.glb.ready = false ∧ t.glb.warmStart = true

/-- A condition that a tamper source takes as its alarm now (15 R382 to R385, R393). -/
def Alarms (s : State) (src : Fin 17) (det : BitVec 2) : Prop :=
  watched s src.val = true ∧ (src.val ≤ 14 → s.tmp.active.getLsbD src.val = false) ∧
    (src.val < 6 → tripsAlarm s src.val det.toNat = true)

/-- A programming command that is accepted: its first word that is not programmed yet is under its first pulse, the command
busy, its ERR 0 and the array unchanged (04 R116, R117). -/
def FuseStarts (c : Instr) (plan : State → Except Nat (FuseProg × List (Nat × BitVec 39))) (s : State) :
    Prop :=
  ∀ p ws w g rest, fusReady s = 0 → plan s = .ok (p, ws) → firstDue s ws = (w, g) :: rest →
    Does c s fun t =>
      t.fus.prog = some { p with word := w, target := g, pulses := 1, rest := rest } ∧ t.fus.busy = true ∧
        t.fus.err = 0#4 ∧ t.fus.array = s.fus.array

/-- Nothing fails in steps 2 to 8 of a start that has ended step 1, and no transition waits (03 R82, 04 R114). -/
def StartPasses (i : StartIn) (s : State) : Prop :=
  (steps2to4 i s).1 = 0 ∧ (steps5to8 i (steps2to4 i s).2).1 = 0 ∧ (steps5to8 i (steps2to4 i s).2).2.glb.lc ≠ 7#3

/-- The blocks of the state, by their fields. The queue is none of them. -/
inductive Blk where
  /-- `State.glb` -/
  | glb
  /-- `State.pwr` -/
  | pwr
  /-- `State.pins` -/
  | pins
  /-- `State.aon` -/
  | aon
  /-- `State.tbs` -/
  | tbs
  /-- `State.rst` -/
  | rst
  /-- `State.boot` -/
  | boot
  /-- `State.nv` -/
  | nv
  /-- `State.out` -/
  | out
  /-- `State.fus` -/
  | fus
  /-- `State.wsh` -/
  | wsh
  /-- `State.pln` -/
  | pln
  /-- `State.job` -/
  | job
  /-- `State.hlk` -/
  | hlk
  /-- `State.sdl` -/
  | sdl
  /-- `State.prs` -/
  | prs
  /-- `State.ldg` -/
  | ldg
  /-- `State.kvt` -/
  | kvt
  /-- `State.ent` -/
  | ent
  /-- `State.att` -/
  | att
  /-- `State.tmp` -/
  | tmp
  /-- `State.wdg` -/
  | wdg
  /-- `State.chp` -/
  | chp
  /-- `State.evr` -/
  | evr
  /-- `State.pmc` -/
  | pmc
deriving DecidableEq, Repr

/-- A block is as it was. -/
def Blk.same (b : Blk) (s t : State) : Prop :=
  match b with
  | .glb => t.glb = s.glb
  | .pwr => t.pwr = s.pwr
  | .pins => t.pins = s.pins
  | .aon => t.aon = s.aon
  | .tbs => t.tbs = s.tbs
  | .rst => t.rst = s.rst
  | .boot => t.boot = s.boot
  | .nv => t.nv = s.nv
  | .out => t.out = s.out
  | .fus => t.fus = s.fus
  | .wsh => t.wsh = s.wsh
  | .pln => t.pln = s.pln
  | .job => t.job = s.job
  | .hlk => t.hlk = s.hlk
  | .sdl => t.sdl = s.sdl
  | .prs => t.prs = s.prs
  | .ldg => t.ldg = s.ldg
  | .kvt => t.kvt = s.kvt
  | .ent => t.ent = s.ent
  | .att => t.att = s.att
  | .tmp => t.tmp = s.tmp
  | .wdg => t.wdg = s.wdg
  | .chp => t.chp = s.chp
  | .evr => t.evr = s.evr
  | .pmc => t.pmc = s.pmc

/-- What raising an event may change: its buffer and number, its message, its record, its counters (17 R426 to R442). -/
def evBlks : List Blk := [.aon, .hlk, .evr, .pmc]

/-- What an access to a register may change by itself: the link leaves L1 or L2 and the clusters return with it, and an access
that is not served is logged once (02 R54, 03 R88). -/
def accBlks : List Blk := [.glb, .pwr, .pins, .aon, .out, .pln, .hlk, .evr, .pmc]

/-- What the end of a job may change (10 R259, R271). -/
def jobBlks : List Blk := [.aon, .out, .wsh, .pln, .job, .hlk, .kvt, .evr, .pmc]

/-- What a change of the platform's objects and domains may change: the plans run again (12 R307, R316, R331). -/
def platBlks : List Blk := [.pins, .aon, .nv, .out, .wsh, .hlk, .sdl, .prs, .ldg, .att, .wdg, .chp, .evr, .pmc]

/-- Every block. -/
def allBlks : List Blk := [.glb, .pwr, .pins, .aon, .tbs, .rst, .boot, .nv, .out, .fus, .wsh, .pln, .job, .hlk, .sdl, .prs, .ldg, .kvt, .ent, .att, .tmp, .wdg, .chp, .evr, .pmc]

/-- The blocks that a command may change. -/
def touched : Instr → List Blk
  | .supplyValid .. | .holdUpExhausted .. | .batteryOnlyEntry .. | .powerOnReset .. | .brownOut .. | .devRstLow ..
    | .devRstRelease .. | .debugReset .. | .doubleBitError .. | .glbSwrst .. | .managementLockup .. | .warmResetRelease ..
    | .delayedReset .. | .blockResetFus .. | .transitionResume .. | .supplyDifferenceFault .. | .tamperAlarm ..
    | .tamperSample .. | .selftestDone .. | .timebaseLoss .. | .ref32Loss .. | .wdgCheckin .. | .wdgPeriodEnd ..
    | .registerWrite .. => allBlks
  | .vinLoss .. | .powerMeasurement .. => evBlks ++ [.pwr, .out, .pln]
  | .vinReturn .. | .vinForceSet .. | .vinForceClear .. | .thermalForce .. | .thermalForceRelease .. => evBlks ++ [.pwr, .pln]
  | .vinSurge .. | .ideIntegrityFailure .. | .freezeTimeLimit .. | .ideKmKeySetGo .. => evBlks
  | .vflashTrip .. | .vflashRetry .. | .domPgChange .. => platBlks ++ [.pwr]
  | .vflashRetrySuccess .. | .vbatCheck .. => evBlks ++ [.pwr]
  | .vflashFaultClr .. | .vflashEnWrite .. | .goldenViewOff .. | .prsHold .. | .prsRelease .. | .prsRestart ..
    | .rcvWrite .. | .rcvDone .. | .retry .. | .platKick .. => platBlks ++ accBlks
  | .autoIdleEntry .. | .autoDozeEntry .. | .lowRungEntry .. | .atomicOp .. | .idePolicyRefusal .. => evBlks ++ [.pwr, .pins, .out, .pln]
  | .rungReqIdle .. | .rungReqDoze .. | .unservedBarAccess .. | .programStoreWrite .. | .plnGradClr .. | .offlineWrite ..
    | .bar2ReadTimeout .. | .bar2Write .. | .wideLowRead .. | .eventRingBaseWrite .. | .eventRingCtrlWrite ..
    | .eventRingHeadWrite .. | .windowWrite .. | .freeze .. | .thaw .. | .setCal .. | .evrCursorWrite ..
    | .evrWinAutoRead .. | .pmcBwClr .. | .pmcTagClr .. => accBlks
  | .rungReqNap .. | .rungReqRest .. | .rungReqRetain .. => platBlks ++ accBlks ++ [.boot, .job, .kvt, .ent]
  | .rungReqTimeout .. => evBlks ++ [.pwr, .out]
  | .wake .. | .wakeTimerExpiry .. | .pmeTurnOff .. => platBlks ++ [.pwr, .boot, .pln, .kvt, .ent]
  | .retainOnPgEntry .. | .linkDown .. | .perstAssert .. | .pmeTimeout .. => platBlks ++ [.pwr, .boot, .pln, .job, .kvt, .ent]
  | .profileSelWrite .. => accBlks ++ [.boot]
  | .flashBusyPollTimeout .. | .deviceReadStarved .. | .contverApply .. | .vioPlatLow .. | .vioPlatValid .. => evBlks ++ [.sdl]
  | .blockResetWsh .. => accBlks ++ [.rst, .boot, .wsh]
  | .blockResetJob .. => accBlks ++ [.rst, .boot, .job]
  | .blockResetSdl .. => accBlks ++ [.rst, .boot, .sdl]
  | .blockResetLdg .. => accBlks ++ [.rst, .boot, .ldg]
  | .blockResetKvt .. => accBlks ++ [.rst, .boot, .job, .kvt, .ent, .att]
  | .blockResetEnt .. => accBlks ++ [.rst, .boot, .ent]
  | .blockResetAtt .. => accBlks ++ [.rst, .boot, .att]
  | .blockResetChp .. => accBlks ++ [.rst, .boot, .chp]
  | .blockResetEvr .. | .blockResetPmc .. => accBlks ++ [.rst, .boot]
  | .fusRead .. | .fusProgram .. | .complete .. | .lockWrite .. | .lockRead .. | .forceLockWrite .. | .ctrAdvance ..
    | .ownRevoke .. | .patchLoad .. => accBlks ++ [.fus, .wsh]
  | .transition .. => accBlks ++ jobBlks ++ [.fus, .ent, .att]
  | .fusePulseDone .. => evBlks ++ [.glb, .out, .fus, .ent]
  | .configFieldWrite .. | .contverWrite .. => accBlks ++ [.boot, .sdl, .kvt, .wdg, .chp]
  | .liveWriteApply .. => evBlks ++ [.boot, .job, .chp]
  | .configUpdate .. => platBlks ++ accBlks ++ [.rst, .boot, .job, .kvt, .ent, .tmp]
  | .configUpdateTimeout .. | .chpFrameEnd .. => evBlks ++ [.pins, .boot, .out, .ldg, .chp]
  | .frameBoundary .. => jobBlks ++ [.pwr, .boot, .sdl]
  | .frameMidpoint .. => evBlks ++ [.wsh]
  | .partitionExhausted .. => [.wsh, .pmc]
  | .c0Request .. => evBlks ++ [.pwr, .pins, .out, .wsh, .pln]
  | .wshC0MaxClr .. => accBlks ++ [.wsh]
  | .slicePoint .. | .jobDispatch .. | .streamInWord .. | .streamOutCredit .. | .keyldComplete .. | .hotReset ..
    | .functionLevelReset .. | .vfEnableWrite .. | .opHash .. | .opMerkleVerify .. | .opSigVerify .. | .opSigSign ..
    | .opKemDecaps .. | .opAeadSeal .. | .opAeadOpen .. | .opDerive .. | .opImageCheck .. | .opEvidence ..
    | .opLoadProgram .. | .opCustom .. | .jobTimeout .. | .eventRaised .. | .dmaError .. => jobBlks
  | .pinWaitEnd .. => [.pln, .pmc]
  | .engineJoin .. => [.pln, .job]
  | .accelCommandDone .. | .iAdd .. | .iSub .. | .iAnd .. | .iOr .. | .iXor .. | .iShl .. | .iShr .. | .iSra .. | .iSltu ..
    | .iCsel .. | .iAddi .. | .iAndi .. | .iOri .. | .iShli .. | .iShri .. | .iLdi .. | .iLdhi .. | .iAddc .. | .iAddcS ..
    | .iSubb .. | .iSubbS .. | .iMullo .. | .iMulhi .. | .iMmul .. | .iMadd .. | .iMsub .. | .iBfly .. | .iBflyI ..
    | .iLdw .. | .iStw .. | .iLdp .. | .iStp .. | .iSin .. | .iSout .. | .kckInit .. | .kckAbsorb .. | .kckFinal ..
    | .kckSqueeze .. | .kckRelease .. | .shaInit .. | .shaAbsorb .. | .shaFinal .. | .shaRelease .. | .aesInit ..
    | .aesAad .. | .aesEnc .. | .aesDec .. | .aesTag .. | .aesRelease .. | .iBeq .. | .iBne .. | .iBlt .. | .iBge ..
    | .iJmp .. | .iCall .. | .iRet .. | .iLoop .. | .iWaitc .. | .iSignal .. | .iMfs .. | .iMts .. | .iKeyld ..
    | .iKeyldA .. | .iDcl .. | .iHalt .. | .iTrap .. | .undefinedOpcode .. => jobBlks ++ [.ent]
  | .temperatureDifference .. => evBlks ++ [.out, .pln]
  | .clusterOffline .. => evBlks ++ [.pln]
  | .linkUp .. => evBlks ++ [.pins]
  | .perstRelease .. => [.pins]
  | .functionReturnD0 .. => evBlks ++ [.out, .wsh, .pln, .job]
  | .bar2Read .. => accBlks ++ [.wsh, .sdl]
  | .messagePost .. => evBlks ++ [.out, .wsh]
  | .msixHoldoffExpiry .. => [.out, .hlk, .pmc]
  | .ideKmKeyProg .. => evBlks ++ [.out, .job, .kvt, .ent]
  | .ideKmKeySetStop .. => evBlks ++ [.out, .job, .kvt]
  | .spdmGetMeasurements .. | .spdmSetCertificate .. => [.out]
  | .doeAbort .. | .linkSpeedChange .. | .spdmRequest .. => evBlks ++ [.out]
  | .queueEnable .. | .queueDisable .. | .queueAbort .. | .kvtZeroise .. => accBlks ++ jobBlks
  | .sqTailDoorbell .. | .cqHeadDoorbell .. => accBlks ++ [.job]
  | .descriptorFetch .. => jobBlks ++ [.pwr, .pins, .boot]
  | .descriptorReadFailure .. => evBlks ++ [.job]
  | .coalescingTimer .. => [.out, .job, .hlk, .pmc]
  | .discovery .. | .flashReady .. | .cvLeafCheck .. | .slotCheckDone .. | .releaseDelayExpiry .. | .holdCauseTimer ..
    | .recoveryPackage .. | .recoveryReadbackDone .. | .rcvTimeout .. | .retryMinExpiry .. | .rcvData .. | .rcvEnd ..
    | .platWdgExpiry .. | .slvData .. | .slvEnd .. => platBlks
  | .cmdRead .. | .cmdFastRead .. | .cmdRegRead .. | .cmdSecRead .. | .cmdProgram .. | .cmdErase .. | .cmdRegWrite ..
    | .cmdSecWrite .. | .cmdDiscovery .. | .cmdWriteEn .. | .cmdReset .. | .cmdPower .. | .cmdSuspend .. | .cmdUndefined .. => evBlks ++ [.pwr, .pins, .rst, .nv, .out, .pln, .sdl, .ldg]
  | .presentedDeviceReset .. | .stagedCheckDone .. => evBlks ++ [.nv, .out, .sdl, .ldg]
  | .mailboxCommit .. => evBlks ++ [.pwr, .pins, .rst, .out, .pln, .sdl, .ldg]
  | .mailboxAbandon .. => evBlks ++ [.rst, .nv, .out, .sdl, .ldg]
  | .mailboxRead .. => evBlks ++ [.rst, .out, .sdl]
  | .sdlCommit .. => accBlks ++ [.sdl, .ldg]
  | .sdlAbandon .. => accBlks ++ [.nv, .sdl, .ldg]
  | .pwrCycle .. | .sdlChClr .. => accBlks ++ [.sdl]
  | .pwrCycleEnd .. => evBlks ++ [.pins, .sdl]
  | .readbackLow .. | .readbackHigh .. => evBlks ++ [.prs]
  | .ledgerAppend .. => evBlks ++ [.nv, .ldg]
  | .adopt .. | .compact .. => accBlks ++ [.nv, .ldg]
  | .kvtGenerate .. | .kvtMsg .. => accBlks ++ jobBlks ++ [.ent]
  | .kvtPubkey .. => accBlks ++ [.wsh, .kvt]
  | .imageWriteDone .. => jobBlks ++ [.nv, .ent]
  | .restoreDone .. | .remaskPass .. | .entStartupDone .. => evBlks ++ [.out, .kvt, .ent]
  | .healthTestFailure .. | .drbgReseed .. => evBlks ++ [.ent]
  | .aggregate .. | .rejoin .. | .endorse .. | .attEvidence .. | .inboxDoorbell .. | .attTxHeadWrite .. => accBlks ++ [.wsh, .att]
  | .joinHello .. | .joinReq .. => evBlks ++ [.out, .wsh, .ent, .att]
  | .joinChal .. | .evidReq .. | .rcvReq .. | .nak .. | .roundDeadline .. | .peerTxTimeout .. | .peerInboxClaimed .. => evBlks ++ [.out, .wsh, .att]
  | .joinKey .. => jobBlks ++ [.ent, .att]
  | .evid .. | .inboxClaimExpiry .. => evBlks ++ [.att]
  | .inboxClaim .. => accBlks ++ [.att]
  | .tamperConditionEnd .. => evBlks ++ [.pwr, .tmp]
  | .tmpAck .. => platBlks ++ accBlks ++ [.tmp]
  | .holdAutoRelease .. => platBlks ++ [.tmp]
  | .selftest .. => accBlks ++ [.tmp]
  | .timebaseRestore .. => evBlks ++ [.tbs]
  | .ref32Restore .. => evBlks ++ [.tbs, .tmp]
  | .wdgDevStart .. => accBlks ++ [.wdg]
  | .wdgWindowOpen .. => [.wdg]
  | .chpStart .. | .chpSelWrite .. | .chpGpioWrite .. | .windowRead .. => accBlks ++ [.chp]
  | .windowReadTimeout .. => evBlks ++ [.out, .chp]
  | .slvStatus .. => [.out, .chp]
  | .spillFlush .. => evBlks ++ [.nv]
  | .spillSnapshotLoaded .. => [.evr]
  | .pmcBwWindowEnd .. => [.pmc]
  | .pmcTagEnable .. => accBlks ++ [.ent]
  | .holdRdy .. => [.pwr]
  | .configurationWrite .. => evBlks ++ [.pins, .out, .wsh, .pln, .job]
  | .slaveFramingFault .. => evBlks ++ [.chp]

/-- The sender of a command that is an access to a register of PF0 BAR0. -/
def bar0Sender : Instr → Option Agent
  | .vflashFaultClr a | .vflashEnWrite a _ | .rungReqIdle a | .rungReqDoze a | .rungReqNap a | .rungReqRest a
    | .rungReqRetain a | .profileSelWrite a _ | .glbSwrst a _ | .blockResetFus a | .blockResetWsh a | .blockResetJob a
    | .blockResetSdl a | .blockResetLdg a | .blockResetKvt a | .blockResetEnt a | .blockResetAtt a | .blockResetChp a
    | .blockResetEvr a | .blockResetPmc a | .fusRead a _ | .fusProgram a _ | .complete a _ _ | .lockWrite a _ _
    | .lockRead a _ _ | .forceLockWrite a _ _ | .ctrAdvance a _ _ | .ownRevoke a _ _ | .patchLoad a _ _
    | .transition a _ _ _ | .configUpdate a _ _ _ _ | .wshC0MaxClr a | .programStoreWrite a _ | .plnGradClr a
    | .offlineWrite a _ _ | .eventRingBaseWrite a _ _ | .eventRingCtrlWrite a _ | .eventRingHeadWrite a _
    | .sdlCommit a _ _ _ | .sdlAbandon a _ _ _ | .pwrCycle a _ _ | .goldenViewOff a _ | .contverWrite a _ | .sdlChClr a _
    | .prsHold a _ _ | .prsRelease a _ _ | .prsRestart a _ _ | .adopt a _ _ _ _ | .rcvWrite a _ _ _ _ | .rcvDone a _
    | .retry a _ | .compact a _ | .kvtGenerate a _ _ _ _ | .kvtZeroise a _ _ | .kvtMsg a _ _ _ _ | .kvtPubkey a _ _ _
    | .aggregate a _ _ _ | .rejoin a _ | .endorse a _ _ | .attEvidence a _ _ _ | .inboxClaim a | .inboxDoorbell a _ _
    | .attTxHeadWrite a _ | .tmpAck a _ _ | .selftest a _ _ | .wdgDevStart a _ | .wdgCheckin a _ _ | .platKick a _ _
    | .chpStart a _ | .chpSelWrite a _ | .chpGpioWrite a _ | .windowRead a _ _ _ _ | .windowWrite a _ | .freeze a _
    | .thaw a _ | .setCal a _ | .evrCursorWrite a _ | .evrWinAutoRead a | .pmcBwClr a _ | .pmcTagEnable a | .pmcTagClr a => some a
  | _ => none

end Sys2Proof.Safety
end

