-- ==== Sys2Proof/Certificates/Slice0/Obligations.lean ====
section
/-! DEFINITION. The statements about the model. A clause that rests on a reading or a choice of the model is marked by the log
entries its docstring names; what a free value decides is stated for every value of it. -/

open Sys2Proof Sys2Proof.Machine Sys2Proof.Safety

/-- A step with a command waiting is that command's meaning on the state with the rest of the queue; with none waiting it
is one tick of the timebase (the model's choice, log entry 6). Readings and choices of the model: log entry 6. -/
def Obligations.StepRunsFront : Prop :=
  ∀ (c : Instr) (rest : List Instr) (s : State), step { s with pending := c :: rest } = exec c { s with pending := rest } ∧
    step { s with pending := [] } = .next (tickStep { s with pending := [] })

/-- What the spec says of the state after power-on, block by block. -/
def Obligations.ResetValues : Prop :=
  let s := State.reset
  (s.glb.ready = false ∧ s.glb.startFail = false ∧ s.glb.sealedDefaults = false ∧ s.glb.phase = 1#4) ∧
  (s.pwr.rung = .run ∧ s.pwr.holdRdy = false ∧ s.pwr.vflashOn = false ∧ s.pwr.idleEn = true ∧ s.pwr.dozeEn = false ∧
    s.pwr.fastEn = true ∧ s.pwr.idleDwell = 10#8 ∧ s.pwr.dozeDwell = 100#16 ∧ s.pwr.tjHigh = 115#8 ∧ s.pwr.hyst = 10#8) ∧
  (s.pins.domRst = BitVec.allOnes 32 ∧ s.pins.domPg = 0#32 ∧ s.pins.flPwr = 0#16 ∧ s.pins.txIdle = true ∧
    ∀ c : Fin 16, s.pins.fWp[c] = .hiz ∧ s.pins.gpio[c] = .hiz) ∧
  (s.aon.nextSeq = 0#24 ∧ s.aon.calSecs = 0#40 ∧ s.aon.calValid = false ∧ s.aon.coldCount = 0#16 ∧ s.aon.buffer = []) ∧
  (s.tbs.onRc = true ∧ s.tbs.xtal = false ∧ s.tbs.tick = 0#64 ∧ s.tbs.losses = 0#16) ∧
  (s.fus.busy = false ∧ s.fus.err = 0#4 ∧ s.fus.result = 0#5 ∧ s.fus.shadow = [] ∧ s.boot.valid = 0#8) ∧
  (s.wsh.started = false ∧ s.wsh.no = 0#32 ∧ s.wsh.riskN = 3 ∧ s.wsh.reason = 5 ∧ s.pln.traps = 0#32) ∧
  (∀ f : Fin 16, s.job.limits[f] = 2000#16) ∧
  (s.hlk.speed = 0#3 ∧ s.hlk.ringEn = false ∧ s.hlk.phase = true ∧ s.hlk.pm = 6#3 ∧ s.hlk.msgs = []) ∧
  (∀ c : Fin 16, s.sdl.ch[c].mode = .sealed) ∧ (∀ d : Fin 32, s.prs.dom[d].st = .held ∧ s.prs.dom[d].plan = none) ∧
  (s.ldg.gen = 0#32 ∧ s.ldg.empty = false ∧ s.ldg.fail = false ∧ s.kvt.slots = [] ∧ s.kvt.ident = false ∧ s.kvt.remask = 4#7) ∧
  (s.ent.st = .startup ∧ s.att.joined = false ∧ s.att.txPhase = true ∧ s.tmp.pinMode = 0x5555#16 ∧ s.tmp.andMask = 0#6) ∧
  (s.wdg.tasks = 1#16 ∧ s.chp.mode = .masterIdle ∧ s.chp.khz = 12500 ∧ s.chp.winOpcode = 3#8 ∧ s.chp.winAddr = 3) ∧
  (s.evr.ring = [] ∧ s.evr.winReady = true ∧ s.evr.frozen = false ∧ s.evr.notifySev = 4 ∧ s.pmc.cnt = [] ∧ s.pmc.tagN = 16#5) ∧
  s.pending = []

/-- The invariants hold at reset. -/
def Obligations.InvariantsAtReset : Prop :=
  LinesFollow State.reset ∧ Bounded State.reset ∧ MemOk State.reset ∧ JobIds State.reset

/-- Every step keeps DOM_RST# asserted on exactly the domains that are not RELEASED (00 R1, 12 R306 to R308). -/
def Obligations.StepKeepsResetLines : Prop :=
  ∀ s t : State, LinesFollow s → step s = .next t → LinesFollow t

/-- Every step keeps the queues and rings within the sizes of the spec (09 R242, 17 R428 to R430). -/
def Obligations.StepKeepsSizes : Prop :=
  ∀ s t : State, Bounded s → step s = .next t → Bounded t

/-- Every step keeps the addressed memories in their canonical form. -/
def Obligations.StepKeepsMemories : Prop :=
  ∀ s t : State, MemOk s → step s = .next t → MemOk t

/-- Every step keeps job numbers distinct and below the next one. Readings and choices of the model: log entry 3. -/
def Obligations.StepKeepsJobNumbers : Prop :=
  ∀ s t : State, JobIds s → step s = .next t → JobIds t

/-- What no command changes: the queue, and the blocks that the command does not work on, account for an event, an access,
a job's end or the platform's plans included. -/
def Obligations.CommandFrames : Prop :=
  ∀ (i : Instr) (s t : State), exec i s = .next t → t.pending = s.pending ∧ ∀ b, b ∉ touched i → b.same s t

/-- Only PF0 reaches BAR0 (09 R229), and only where it is decoded and the link is up (02 R58, 09 R236); in L4 and L5 no
management program runs (02 R51): a command that is an access to a register, from any other sender, changes nothing. -/
def Obligations.RegistersOutOfReach : Prop :=
  ∀ (i : Instr) (a : Agent) (s : State), bar0Sender i = some a →
    (∃ n, a = .vf n) ∨ (a = .pf0 ∧ (decodes s 0 = false ∨ lowRung s = true)) ∨
      (a = .mgmt ∧ (s.pwr.rung = .rest ∨ s.pwr.rung = .retain)) → exec i s = .next s

/-- Supply, hold-up and forces (02 R36 to R42, R66 to R68): each command of the supply in its own conditions. Readings and
choices of the model: log entries 13 and 62. -/
def Obligations.SupplyCommands : Prop :=
  ∀ s : State,
    (∀ mv, s.pwr.vinPresent = true → s.pwr.onHoldup = false → s.pwr.supplyValid = true →
      Does (.vinLoss mv) s fun t => t.pwr.onHoldup = true ∧ t.pwr.forceHoldup = true ∧ t.pwr.vinPresent = false ∧
        t.pwr.vinMv.toNat < 5200 ∧ t.pwr.lossTick = s.tbs.tick.toNat ∧ t.pwr.holdRdy = decide (38000 ≤ mv.toNat)) ∧
    (∀ vin mv, s.pwr.onHoldup = true → 5400 ≤ vin.toNat →
      Does (.vinReturn vin mv) s fun t => t.pwr.onHoldup = false ∧ t.pwr.forceHoldup = false ∧
        t.pwr.vinPresent = true ∧ t.pwr.vinMv = vin) ∧
    (∀ vin, onVin s = true → vin.toNat < 11000 →
      Does (.vinForceSet vin) s fun t => t.pwr.forceVin = true ∧ t.pwr.vinMv = vin) ∧
    (∀ vin, onVin s = true → s.pwr.forceVin = true → 12000 < vin.toNat →
      Does (.vinForceClear vin) s fun t => t.pwr.forceVin = false ∧ t.pwr.vinMv = vin) ∧
    (∀ peak dur, s.pwr.supplyValid = true → 50000 < peak.toNat →
      exec (.vinSurge peak dur) s = .next (raise 0x1014#16 peak dur 0#32 s)) ∧
    (s.pwr.onHoldup = true → s.rst.ph ≠ .coldHeld →
      Does .holdUpExhausted s fun t => t.rst.ph = .coldHeld ∧ t.rst.cold.getLsbD 1 = true ∧ t.glb.ready = false ∧
        t.pins.domRst = BitVec.allOnes 32 ∧ t.evr.ph = .battery) ∧
    (∀ mv, s.pwr.supplyValid = true →
      Does (.holdRdy mv) s fun t => t.pwr.choldV = choldOf mv ∧ t.pwr.holdRdy = decide (38000 ≤ mv.toNat)) ∧
    (∀ mv, s.aon.batteryOnly = false → s.pwr.supplyValid = false → 2200 ≤ mv.toNat →
      Does (.batteryOnlyEntry mv) s fun t => t.aon.batteryOnly = true ∧ t.pwr.supplyValid = false ∧
        t.pwr.retValid = false ∧ t.evr.ph = .battery) ∧
    (∀ mv, s.pwr.supplyValid = true →
      Does (.vbatCheck mv) s fun t => t.pwr.vbatMv = mv ∧ t.pwr.batPresent = decide (2200 ≤ mv.toNat) ∧
        t.pwr.batLow = (decide (2200 ≤ mv.toNat) && decide (mv.toNat < 2700))) ∧
    (∀ pin load vin mv, s.pwr.supplyValid = true →
      Does (.powerMeasurement pin load vin mv false) s fun t => t.pwr.pinMw = pin ∧ t.pwr.vinMv = vin ∧
        (capMw s < load.toNat → t.pwr.capThrottle = true)) ∧
    (∀ pin load vin mv, s.pwr.supplyValid = true → load.toNat ≤ capMw s →
      Does (.powerMeasurement pin load vin mv true) s fun t => t.pwr.pinMw = pin ∧ t.pwr.capThrottle = false) ∧
    (∀ tj : Int, s.pwr.supplyValid = true → (s.pwr.tjHigh.toNat : Int) ≤ tj →
      Does (.thermalForce tj) s fun t => t.pwr.forceTherm = true ∧ t.pwr.tj = tj) ∧
    (∀ tj : Int, s.pwr.forceTherm = true → tj < (s.pwr.tjHigh.toNat : Int) - s.pwr.hyst.toNat →
      Does (.thermalForceRelease tj) s fun t => t.pwr.forceTherm = false ∧ t.pwr.tj = tj)

/-- VFLASH_OUT and the profile (02 R44, R45, R64): each command of the rail and the selection in its own conditions.
Readings and choices of the model: log entries 35 and 62. -/
def Obligations.RailCommands : Prop :=
  ∀ s : State,
    (∀ ma, s.pwr.vflashOn = true →
      Does (.vflashTrip ma) s fun t => t.pwr.vflashOn = false ∧ t.pwr.trips = bvSat s.pwr.trips 1 ∧
        (s.pwr.vfRetry = .retrying → t.pwr.vflashFault = true)) ∧
    (s.pwr.vfRetry = .tripped → s.pwr.vfEn = true → lowRung s = false → s.pwr.vflashFault = false →
      Does .vflashRetry s fun t => t.pwr.vflashOn = true ∧ t.pwr.vfRetry = .retrying) ∧
    (s.pwr.vfRetry = .retrying → s.pwr.vflashOn = true →
      Does .vflashRetrySuccess s fun t => t.pwr.vfRetry = .fresh ∧ t.pwr.vflashOn = true) ∧
    (∀ a, Reach a 0x100018 s →
      Does (.vflashFaultClr a) s fun t => t.pwr.trips = 0#2 ∧ t.pwr.vflashFault = false) ∧
    (∀ a, Reach a 0x100018 s → lowRung s = false → s.pwr.vfEn = false → s.pwr.vflashFault = false →
      Does (.vflashEnWrite a true) s fun t => t.pwr.vfEn = true ∧ t.pwr.vflashOn = true) ∧
    (∀ a, Reach a 0x100018 s → unsealedMask s = 0#16 →
      Does (.vflashEnWrite a false) s fun t => t.pwr.vfEn = false ∧ t.pwr.vflashOn = false) ∧
    (∀ a sel, Reach a 0x100004 s → writeCause .live 0x10 s = 0 → sel ≠ 3#2 →
      Does (.profileSelWrite a sel) s fun t => t.pwr.sel = sel ∧
        assocGet t.boot.live 0x100004 = some ((profClamp s sel).setWidth 32))

/-- The power-state ladder (02 R51 to R58, R62): entries, requests and wakes, each in its own conditions. Readings and
choices of the model: log entries 35 and 62. -/
def Obligations.RungCommands : Prop :=
  ∀ s : State,
    (s.pwr.idleEn = true → s.pwr.rung = .run → canIdle s false = true →
      Does .autoIdleEntry s fun t => t.pwr.rung = .idle) ∧
    (s.pwr.dozeEn = true → s.pwr.rung = .run ∨ s.pwr.rung = .idle → canIdle s true = true →
      Does .autoDozeEntry s fun t => t.pwr.rung = .doze) ∧
    (∀ a, Reach a 0x100008 s → s.hlk.pmeWait = none →
      Does (.rungReqIdle a) s fun t => t.pwr.rungTarget = 1#3 ∧ t.pwr.rungResult = 1#2) ∧
    (∀ a, Reach a 0x100008 s → s.hlk.pmeWait = none →
      Does (.rungReqDoze a) s fun t => t.pwr.rungTarget = 2#3 ∧ t.pwr.rungResult = 1#2) ∧
    (idlePending s = true → canIdle s (s.pwr.rungTarget == 2#3) = true →
      Does .lowRungEntry s fun t => t.pwr.rung = if s.pwr.rungTarget = 2#3 then .doze else .idle) ∧
    (idlePending s = true →
      Does .rungReqTimeout s fun t => t.pwr.rungResult = 3#2 ∧ t.pwr.rung = s.pwr.rung) ∧
    (∀ a, Reach a 0x100008 s → s.hlk.pmeWait = none → s.pwr.wakePend = none → canSleep (leaveIdle s) = true →
      Does (.rungReqNap a) s fun t => t.pwr.rung = .nap ∧ t.pwr.rungTarget = 3#3 ∧ t.pwr.retValid = true ∧
        ∀ c : Fin 16, t.sdl.ch[c].mode = .sealed) ∧
    (∀ a, Reach a 0x100008 s → s.hlk.pmeWait = none → s.pwr.wakePend = none → canSleep (leaveIdle s) = true →
      s.hlk.speed = 0#3 →
      Does (.rungReqRest a) s fun t => t.pwr.rung = .rest ∧ t.pwr.rungTarget = 4#3 ∧ t.pwr.retValid = true ∧
        t.evr.ph = .battery ∧ t.wdg.paused = true) ∧
    (∀ a, Reach a 0x100008 s → s.hlk.pmeWait = none → canSleep (leaveIdle s) = true → s.hlk.speed ≠ 0#3 →
      Does (.rungReqRest a) s fun t => t.hlk.pmeWait = some .rest ∧ t.pwr.retValid = true) ∧
    (∀ a, Reach a 0x100008 s → s.hlk.pmeWait = none → s.pwr.wakePend = none → canSleep (leaveIdle s) = true →
      s.hlk.speed = 0#3 →
      Does (.rungReqRetain a) s fun t => t.pwr.rung = .retain ∧ t.pwr.rungTarget = 5#3 ∧ t.pwr.retValid = true ∧
        t.evr.ph = .battery ∧ t.wdg.paused = true) ∧
    (∀ c w, lowRung s = true → wakeEnabled c s = true →
      Does (.wake c w) s fun t => t.pwr.rung = .run ∧ t.pwr.wakeCause.getLsbD c.val = true ∧
        t.pwr.fromRung.toNat = rungNo s.pwr.rung) ∧
    (∀ w, s.pwr.wakeTimer ≠ 0#24 → lowRung s = true → wakeEnabled 2 s = true →
      Does (.wakeTimerExpiry w) s fun t => t.pwr.rung = .run ∧ t.pwr.wakeCause.getLsbD 2 = true) ∧
    (s.pwr.retainOnPg = true → lowRung s = false → s.hlk.pmeWait = none → s.glb.ready = true →
      (∃ d : Fin 32, pgEnabled s d = true) →
      (∀ d : Fin 32, pgEnabled s d = true → s.pins.domPg.getLsbD d.val = false) →
      canSleep s = true → s.pwr.wakePend = none → s.hlk.speed = 0#3 →
      Does .retainOnPgEntry s fun t => t.pwr.rung = .retain ∧ t.pwr.retValid = true)

/-- The start's commands (03 R35, R37, R75, R82, R87, 04 R114): the cold start to device ready, its wait at step 1, its
failures, the warm start, and the resumed transition. Readings and choices of the model: log entries 32 and 33. -/
def Obligations.StartCommands : Prop :=
  ∀ (s : State) (i : StartIn),
    (s.pwr.supplyValid = false → 5400 ≤ i.vinMv.toNat → i.devRstLow = true → s.tmp.starting = true →
      Does (.supplyValid i) s fun t => t.rst.heldStart = true ∧ t.rst.ph = .none ∧ t.pins.devRstLow = true ∧
        t.pwr.supplyValid = true ∧ t.pwr.vinPresent = true ∧ t.pwr.vinMv = i.vinMv ∧ t.glb.ready = s.glb.ready) ∧
    (s.pwr.supplyValid = false → 5400 ≤ i.vinMv.toNat → i.devRstLow = false →
      StartPasses i (step1Done i (supplyFound i s)) →
      Does (.supplyValid i) s fun t => t.glb.ready = true ∧ t.rst.coldStartDone = true ∧ t.rst.consec = 0#3 ∧
        t.aon.startRetry = false ∧ t.glb.phase = 15#4) ∧
    (s.pwr.supplyValid = false → 5400 ≤ i.vinMv.toNat → i.devRstLow = false →
      (steps2to4 i (step1Done i (supplyFound i s))).1 ≠ 0 →
      (steps2to4 i (step1Done i (supplyFound i s))).2.aon.startRetry = true →
      Does (.supplyValid i) s fun t => t.glb.startFail = true ∧ t.rst.ph = .none ∧ t.pwr.vflashOn = false ∧
        t.glb.failCode = BitVec.ofNat 4 (steps2to4 i (step1Done i (supplyFound i s))).1) ∧
    (s.pwr.supplyValid = false → 5400 ≤ i.vinMv.toNat → i.devRstLow = false →
      (steps2to4 i (step1Done i (supplyFound i s))).1 ≠ 0 →
      (steps2to4 i (step1Done i (supplyFound i s))).2.aon.startRetry = false →
      Does (.supplyValid i) s fun t => t.rst.ph = .coldHeld ∧ t.aon.startRetry = true ∧ t.glb.ready = false) ∧
    (s.rst.heldStart = true →
      StartPasses i (step1Done i (ev 0x3010#16 i.holdMs.toNat 0 0 (s.modPins fun p => { p with devRstLow := false }))) →
      Does (.devRstRelease i) s fun t => t.glb.ready = true ∧ t.rst.coldStartDone = true ∧ t.rst.heldStart = false ∧
        t.pins.devRstLow = false) ∧
    (s.rst.ph = .warmHeld → (warmSteps1to4 s.fus.pass i (warmLoad s)).1 = true →
      retainedCheck (warmSteps1to4 s.fus.pass i (warmLoad s)).2 = 0 →
      Does (.warmResetRelease i) s fun t => t.glb.ready = true ∧ t.rst.pendWarm = 0#4 ∧ t.rst.consec = 0#3 ∧
        t.rst.emuHits = 0 ∧ t.glb.phase = 15#4) ∧
    (∀ n lc x, s.rst.transHold = true → s.pwr.holdRdy = true → lifeDecode (regWords s.fus 2) = some (7, n) →
      (resumeTransition n (s.modRst fun r => { r with transHold := false })).1 = true →
      lifeDecode (regWords (resumeTransition n (s.modRst fun r => { r with transHold := false })).2.fus 2) = some (lc, x) →
      (loadRoot ((resumeTransition n (s.modRst fun r => { r with transHold := false })).2.modGlb fun g =>
        { g with lc := BitVec.ofNat 3 lc })).1 = true →
      Does (.transitionResume i) s fun t => t.glb.ready = true ∧ t.glb.lc = BitVec.ofNat 3 lc ∧ t.rst.transHold = false)

/-- The device's resets (03 R69, R70, R72, R73, R77, R78): what each cause leaves in RST_CAUSE, and where the block is
then. Readings and choices of the model: log entry 32. -/
def Obligations.ResetCommands : Prop :=
  ∀ s : State,
    Does .powerOnReset s (fun t => t.rst.ph = .coldHeld ∧ t.rst.cold = 1#6 ∧ t.rst.warm = 0#4 ∧ t.aon = {} ∧
      t.glb.ready = false ∧ t.pins.domRst = BitVec.allOnes 32 ∧ t.fus.shadow = [] ∧ t.kvt.slots = [] ∧ t.nv = s.nv) ∧
    (∀ v h, s.aon.batteryOnly = false →
      Does (.brownOut v h) s fun t => t.rst.ph = .coldHeld ∧ t.rst.cold.getLsbD 1 = true ∧ t.evr.ph = .battery ∧
        (s.rst.ph ≠ .coldHeld → t.pwr.vinMv = v ∧ t.pwr.choldV = choldOf h)) ∧
    (s.pins.devRstLow = false → s.aon.batteryOnly = false → s.pwr.supplyValid = true → s.rst.ph = .none → s.fus.prog = none →
      Does .devRstLow s fun t => t.rst.ph = .coldHeld ∧ t.rst.cold = 4#6 ∧ t.pins.devRstLow = true ∧ t.glb.ready = false ∧
        t.pwr.vinMv = s.pwr.vinMv ∧ t.fus.array = s.fus.array ∧ t.nv = s.nv) ∧
    (s.glb.lc = 1#3 ∨ s.glb.lc = 3#3 → s.fus.lcDone = false → s.aon.batteryOnly = false → s.pwr.supplyValid = true →
      s.rst.ph = .none → s.fus.prog = none →
      Does .debugReset s fun t => t.rst.ph = .coldHeld ∧ t.rst.cold = 8#6 ∧ t.glb.ready = false) ∧
    (∀ w, s.aon.batteryOnly = false → s.pwr.supplyValid = true → s.rst.ph = .none → s.fus.prog = none →
      Does (.doubleBitError w) s fun t => t.rst.ph = .coldHeld ∧ t.rst.cold = 16#6 ∧ t.glb.ready = false ∧
        t.aon.coldCount = bvSat s.aon.coldCount 1) ∧
    (∀ w, s.aon.batteryOnly = false → s.pwr.supplyValid = true → s.rst.ph = .none → s.fus.prog.isSome = true →
      Does (.doubleBitError w) s fun t => t.rst.ph = .waitingCold ∧ t.rst.pendCold = 16#6 ∧
        t.pins.domRst = BitVec.allOnes 32 ∧ t.fus = s.fus ∧ ∀ c : Fin 16, t.sdl.ch[c].mode = .sealed) ∧
    (∀ a, Reach a 0xC s → s.aon.batteryOnly = false → s.pwr.supplyValid = true → s.rst.ph = .none → inColdStart s = false →
      s.fus.prog = none → s.rst.consec.toNat < 3 →
      Does (.glbSwrst a 0x7A5C#16) s fun t => t.rst.ph = .warmHeld ∧ t.rst.warm = s.rst.warm ||| 2#4 ∧ t.rst.pendWarm = 2#4 ∧
        t.rst.consec = s.rst.consec + 1 ∧ t.glb.ready = false ∧ t.glb.warmStart = true ∧ t.pins.domRst = s.pins.domRst ∧
        t.prs.dom = s.prs.dom ∧ t.fus.array = s.fus.array ∧ t.fus.shadow = s.fus.shadow ∧ t.kvt.slots = [] ∧
        t.job.jobs = [] ∧ t.aon.coldCount = s.aon.coldCount) ∧
    (∀ a, Reach a 0xC s → s.aon.batteryOnly = false → s.pwr.supplyValid = true → s.rst.ph = .none → inColdStart s = false →
      s.fus.prog = none → 3 ≤ s.rst.consec.toNat →
      Does (.glbSwrst a 0x7A5C#16) s fun t => t.rst.ph = .coldHeld ∧ t.rst.cold = 0#6 ∧ t.rst.warm = s.rst.pendWarm ||| 2#4) ∧
    (∀ v, clusterOn s 0 = true → s.aon.batteryOnly = false → s.pwr.supplyValid = true → s.rst.ph = .none →
      inColdStart s = false → s.fus.prog = none → s.rst.consec.toNat < 3 →
      Does (.managementLockup v) s fun t => t.rst.ph = .warmHeld ∧ t.rst.warm = s.rst.warm ||| 8#4 ∧ t.glb.ready = false) ∧
    (s.fus.prog = none → s.rst.ph = .waitingCold →
      Does .delayedReset s fun t => t.rst.ph = .coldHeld ∧ t.rst.cold = s.rst.pendCold ∧ t.rst.warm = s.rst.pendWarm) ∧
    (s.fus.prog = none → s.rst.ph = .waitingWarm → s.rst.consec.toNat < 3 →
      Does .delayedReset s fun t => t.rst.ph = .warmHeld ∧ t.rst.pendWarm = s.rst.pendWarm) ∧
    (∀ (c : Fin 16) op cs1, s.sdl.ch[c].devOp = some (op, cs1) → s.glb.ready = true →
      Does (.flashBusyPollTimeout c) s fun t => t.sdl.ch[c].devOp = none ∧ t.sdl.ch[c].mode = s.sdl.ch[c].mode)

/-- RST_BLOCK (03 R81, R136): an idle block returns to its reset state, what each keeps being named; a block that is not
idle refuses, and only its refused bit and an event tell it. Readings and choices of the model: log entries 12 and 32. -/
def Obligations.BlockResetCommands : Prop :=
  ∀ (s : State) (a : Agent), Reach a 0x300008 s → s.rst.ph = .none →
    (blockIdle s 0 = true → Does (.blockResetFus a) s fun t =>
      t.fus.addr = 0#11 ∧ t.fus.data = 0#32 ∧ t.fus.pkg = 0#64 ∧ t.fus.busy = false ∧ t.fus.array = s.fus.array) ∧
    (blockIdle s 1 = true → s.wsh.started = true → Does (.blockResetWsh a) s fun t =>
      t.wsh.tick = 0 ∧ t.wsh.no = 0#32 ∧ ∀ p : Fin 24, t.wsh.parts[p].use = {}) ∧
    (blockIdle s 2 = true → Does (.blockResetJob a) s fun t =>
      t.job.jobs = [] ∧ t.job.queues = [] ∧ t.pln.progs = [] ∧ t.job.limits = Vector.replicate 16 2000#16 ∧
        ∀ c : Fin 64, t.pln.clusters[c].resident = []) ∧
    (blockIdle s 3 = true → Does (.blockResetSdl a) s fun t => t.sdl.result = 0#4 ∧ t.sdl.contver = s.sdl.contver ∧
      ∀ c : Fin 16, t.sdl.ch[c].cache = [] ∧ t.sdl.ch[c].cvNodes = [] ∧ t.sdl.ch[c].cvQueue = [] ∧
        t.sdl.ch[c].mode = s.sdl.ch[c].mode ∧ t.sdl.ch[c].cfg = s.sdl.ch[c].cfg) ∧
    (blockIdle s 4 = true → Does (.blockResetLdg a) s fun t =>
      t.ldg.result = 0#4 ∧ t.ldg.check = 0#4 ∧ t.ldg.rcvAddr = 0#64) ∧
    (blockIdle s 5 = true → Does (.blockResetKvt a) s fun t => t.kvt.shadows = [] ∧ t.kvt.addr = 0#64 ∧
      t.kvt.restored = false ∧ t.kvt.result = 0#4 ∧ (lcClosed s = true ∨ s.glb.ready = false → t.kvt.slots = [])) ∧
    (blockIdle s 6 = true → Does (.blockResetEnt a) s fun t => t.ent = {}) ∧
    (blockIdle s 7 = true → Does (.blockResetAtt a) s fun t => t.att.txEn = false ∧ t.att.inboxBuf = [] ∧
      t.att.joined = s.att.joined ∧ t.att.up = s.att.up ∧ t.att.children = s.att.children ∧
      t.att.bootseed = s.att.bootseed) ∧
    (blockIdle s 8 = true → Does (.blockResetChp a) s fun t => t.chp.mode = .masterIdle ∧ t.chp.sel = 0#16 ∧
      t.chp.result = 0#4 ∧ t.chp.tx = [] ∧ t.chp.rx = [] ∧ t.chp.rxValid = false) ∧
    (blockIdle s 9 = true → s.evr.ph = .running → s.evr.frozen = false → s.boot.live = [] →
      Does (.blockResetEvr a) s fun t => t.evr.cursor = s.evr.cursor ∧ t.evr.win = s.evr.win ∧
        ∃ r ∈ t.evr.ring, r.code = 0x3021#16 ∧ r.p0 = 9#32) ∧
    (Does (.blockResetPmc a) s fun t => t.pmc.chain = 0#256 ∧ t.pmc.tagEn = false ∧ t.pmc.tags = [] ∧
      t.pmc.bw = Vector.replicate 4 {} ∧ t.pmc.on = s.pmc.on) ∧
    (blockIdle s 0 = false → Does (.blockResetFus a) s fun t => t.rst.refused = bvPut s.rst.refused 0 true ∧ t.fus = s.fus) ∧
    (blockIdle s 2 = false → Does (.blockResetJob a) s fun t => t.rst.refused = bvPut s.rst.refused 2 true ∧ t.job = s.job) ∧
    (blockIdle s 5 = false → Does (.blockResetKvt a) s fun t => t.rst.refused = bvPut s.rst.refused 5 true ∧ t.kvt = s.kvt)

/-- The fuse controller's commands (04 R91, R92, R112, R116, R117): READ and its zeros for a root secret, each programming
command up to its first pulse, a transition up to its first pulse, and a pulse's write. A program pulse ends (04 R117):
the word holds what the verifying read sensed at both margins, and no other word changes; a word that fails its third
pulse fails its command, one that fails an earlier pulse takes another, and a waiting reset lets nothing follow the pulse
(R77). Readings and choices of the model: log entries 30 and 31. -/
def Obligations.FuseCommands : Prop :=
  (∀ (s : State) (a : Agent), Reach a 0x400004 s → s.fus.busy = false →
     (s.fus.addr.toNat < 0x580 → regRoot (regOf s.fus.addr.toNat) = true ∨ s.fus.lockR.getLsbD (regOf s.fus.addr.toNat) = true →
       Does (.fusRead a 0x9B3D#16) s fun t => t.fus.data = 0#32 ∧ t.fus.result = 0x10#5 ∧ t.fus.err = 0#4) ∧
     (s.fus.addr.toNat < 0x580 → regRoot (regOf s.fus.addr.toNat) = false →
       s.fus.lockR.getLsbD (regOf s.fus.addr.toNat) = false →
       readReason s s.fus.addr.toNat (fuseRead s.fus s.fus.addr.toNat) = 0 →
       Does (.fusRead a 0x9B3D#16) s fun t => t.fus.err = 0#4 ∧ t.fus.array = s.fus.array ∧
         t.fus.data = if (fuseRead s.fus s.fus.addr.toNat).marginal || (fuseRead s.fus s.fus.addr.toNat).uncorr then 0#32
           else (fuseRead s.fus s.fus.addr.toNat).data) ∧
     FuseStarts (.fusProgram a 0x9B3D#16) planProgram s ∧
     (∀ r, FuseStarts (.complete a 0x9B3D#16 r) (planComplete r) s) ∧
     (∀ r, FuseStarts (.lockWrite a 0x9B3D#16 r) (planLock 4 r) s) ∧
     (∀ r, FuseStarts (.lockRead a 0x9B3D#16 r) (planLock 5 r) s) ∧
     (∀ r, FuseStarts (.forceLockWrite a 0x9B3D#16 r) (planLock 6 r) s) ∧
     (∀ i, FuseStarts (.ctrAdvance a 0x9B3D#16 i) (planCtr i) s) ∧
     (∀ i, FuseStarts (.ownRevoke a 0x9B3D#16 i) (planRevoke i) s) ∧
     (∀ p, FuseStarts (.patchLoad a 0x9B3D#16 p) (planPatch p) s) ∧
     (∀ (dst : BitVec 8) msg lc w g rest, a = .pf0 → fusLc s = some lc → trReady lc dst.toNat s = 0 →
       (lc = 2 → (trAuth dst.toNat msg (leaveIdle s)).1 = true) → firstDue s (firstWords dst.toNat) = (w, g) :: rest →
       Does (.transition a 0x9B3D#16 dst msg) s fun t =>
         t.fus.prog = some { op := 10, toLc := dst.toNat, phase := 3, word := w, target := g, pulses := 1, rest := rest } ∧
           t.fus.busy = true ∧ t.fus.err = 0#4 ∧ t.kvt.slots = [] ∧ t.kvt.sk = 0#256)) ∧
  (∀ (s : State) (p : FuseProg) (tight loose : BitVec 39), s.fus.prog = some p → cellWf (0#39, 0#39) s.fus.array = true →
     Does (.fusePulseDone tight loose) s fun t =>
       fuseCell t.fus p.word = (tight, loose) ∧ (∀ w, w ≠ p.word → fuseCell t.fus w = fuseCell s.fus w) ∧
       (s.rst.ph = .waitingCold ∨ s.rst.ph = .waitingWarm → t.fus.prog = none ∧ t.fus.busy = false) ∧
       (s.rst.ph = .none → tight ≠ p.target ∨ loose ≠ p.target → p.pulses < 3 →
         t.fus.prog = some { p with pulses := p.pulses + 1 } ∧ t.fus.busy = true) ∧
       (s.rst.ph = .none → tight ≠ p.target ∨ loose ≠ p.target → 3 ≤ p.pulses → p.op ≠ 10 →
         t.fus.prog = none ∧ t.fus.busy = false ∧ t.fus.err = 8#4))

/-- Runtime writes of configuration fields (05 R133 to R136): which are refused and with what cause, which wait for their
block's idle point, and which are applied at once. Readings and choices of the model: log entry 34. -/
def Obligations.FieldWrites : Prop :=
  ∀ (s : State) (a : Agent) (v : BitVec 32),
    (Reach a 0x10001C s → s.glb.sealedDefaults = true →
      Does (.configFieldWrite a 0x10001C#26 v) s fun t => t.boot.rejCause = 3#3 ∧ t.boot.rejOffset = 0x10001C#26 ∧
        t.pwr.tjHigh = s.pwr.tjHigh) ∧
    (Reach a 0x10001C s → s.glb.sealedDefaults = false → s.boot.rwl.getLsbD 1 = false →
      Does (.configFieldWrite a 0x10001C#26 v) s fun t => t.boot.rejCause = 2#3 ∧ t.boot.rejOffset = 0x10001C#26 ∧
        t.pwr.tjHigh = s.pwr.tjHigh) ∧
    (Reach a 0x700004 s → s.glb.sealedDefaults = false →
      Does (.configFieldWrite a 0x700004#26 v) s fun t => t.boot.rejCause = 1#3 ∧ t.boot.rejOffset = 0x700004#26) ∧
    (Reach a 0x600018 s → s.glb.sealedDefaults = false → 0x30 ∈ s.boot.freeze →
      Does (.configFieldWrite a 0x600018#26 v) s fun t => t.boot.rejCause = 1#3 ∧ t.boot.live = s.boot.live) ∧
    (Reach a 0x10001C s → s.glb.sealedDefaults = false → s.boot.rwl.getLsbD 1 = true →
      Does (.configFieldWrite a 0x10001C#26 v) s fun t =>
        t.pwr.tjHigh = BitVec.ofNat 8 (min 120 (max 90 (v.toNat % 256))) ∧
        t.pwr.hyst = BitVec.ofNat 8 (min 20 (max 5 (v.toNat / 256 % 256)))) ∧
    (Reach a 0x100010 s → s.glb.sealedDefaults = false →
      Does (.configFieldWrite a 0x100010#26 v) s fun t => t.pwr.wakeEn = v.setWidth 5 ||| 8#5) ∧
    (Reach a 0x600018 s → s.glb.sealedDefaults = false → ¬ 0x30 ∈ s.boot.freeze →
      Does (.configFieldWrite a 0x600018#26 v) s fun t =>
        assocGet t.boot.live 0x600018 = some (BitVec.ofNat 32 (v.toNat % 16)) ∧ t.wsh.riskN = s.wsh.riskN) ∧
    (Reach a 0xA00010 s → s.glb.sealedDefaults = false → s.boot.rwl.getLsbD 5 = true →
      Does (.configFieldWrite a 0xA00010#26 v) s fun t =>
        t.sdl.contver = if ceilOpt s 0 then v.setWidth 16 else 0#16) ∧
    (Reach a 0x2300038 s → s.glb.sealedDefaults = false → ¬ 0xC0 ∈ s.boot.freeze → v.toNat % 16 ≤ 8 →
      Does (.configFieldWrite a 0x2300038#26 v) s fun t => t.evr.notifySev = v.toNat % 16) ∧
    (∀ d : Fin 32, Reach a (0x2100100 + 4 * d.val) s → s.glb.sealedDefaults = false → s.boot.rwl.getLsbD 10 = true →
      v.toNat % 2 ^ 20 ≤ 600000 →
      Does (.configFieldWrite a (BitVec.ofNat 26 (0x2100100 + 4 * d.val)) v) s fun t =>
        t.wdg.plat[d].period = BitVec.ofNat 20 (v.toNat % 2 ^ 20) ∧ t.wdg.plat[d].periodNow = s.wdg.plat[d].periodNow)

/-- What a waiting LIVE write and a configuration update do (05 R133, R137 to R140, R272). Readings and choices of the
model: log entries 15 and 34. -/
def Obligations.ConfigCommands : Prop :=
  ∀ s : State,
    (∀ (n : Fin 16) v, assocGet s.boot.live (0x800100 + 4 * n.val) = some v →
      Does (.liveWriteApply (BitVec.ofNat 26 (0x800100 + 4 * n.val))) s fun t =>
        t.job.want[n] = v.toNat ∧ assocGet t.boot.live (0x800100 + 4 * n.val) = none) ∧
    (∀ msg c, Reach .pf0 0x500248 s → s.glb.ready = true → s.glb.startFail = false → lcClosed s = false →
      s.boot.updBusy = false → regPass s 9 = true → ((List.range 4).any fun k => ownUsable s k) = true →
      kumCheck [3] msg (leaveIdle s) = 0 → 4 ≤ (kumPayload msg).length →
      leAt (kumPayload msg) 0 4 = (kumPayload msg).length - 4 →
      judgeCopy false (serialNo s) ((kumPayload msg).drop 4) = .ok c → s.glb.sealedDefaults = false →
      s.boot.seq.toNat < copySeq c.1 →
      Does (.configUpdate .pf0 0x6C1F#16 true msg .completes) s fun t =>
        (if s.boot.src = 1#2 then t.nv.cfgB = c.1 ∧ t.nv.cfgA = s.nv.cfgA else t.nv.cfgA = c.1 ∧ t.nv.cfgB = s.nv.cfgB) ∧
        t.boot.updBusy = false ∧ t.boot.pendingUpd = true ∧ t.boot.updResult = 0#4 ∧ t.aon.marker = none ∧
        t.boot.eff = s.boot.eff ∧ t.aon.msgCtr = BitVec.ofNat 64 (leAt msg 8 8)) ∧
    (∀ a key msg p, Reach a 0x500248 s → a = .pf0 → key ≠ 0x6C1F#16 →
      Does (.configUpdate a key true msg p) s fun t => t.boot.updResult = 8#4 ∧ t.nv = s.nv) ∧
    (s.boot.updBusy = true →
      Does .configUpdateTimeout s fun t => t.boot.updBusy = false ∧ t.boot.updResult = 6#4 ∧ t.aon.marker = none)

/-- The Watershed's commands (06 R142, R143, R150, R153, R154, R158). Readings and choices of the model: log entry 37. -/
def Obligations.WatershedCommands : Prop :=
  ∀ s : State,
    (s.wsh.started = true → s.pwr.rung ≠ .rest → s.pwr.rung ≠ .retain →
      Does .frameBoundary s fun t => t.wsh.no = s.wsh.no + 1 ∧ t.wsh.tick = 0 ∧ t.wsh.len = s.wsh.len) ∧
    (∀ (p : Fin 24) (r : Fin 3), s.wsh.started = true → s.wsh.riskN ≠ 0 →
      Does .frameMidpoint s fun t =>
        (uncapped (s.wsh.parts[p].eff.get r) = false → (s.wsh.parts[p].eff.get r).toNat < 2 * s.wsh.parts[p].use.get r →
          t.wsh.parts[p].runs.get r = s.wsh.parts[p].runs.get r + 1 ∧
          (s.wsh.riskN ≤ s.wsh.parts[p].runs.get r + 1 → t.wsh.parts[p].risk.get r = true)) ∧
        (uncapped (s.wsh.parts[p].eff.get r) = true ∨ 2 * s.wsh.parts[p].use.get r ≤ (s.wsh.parts[p].eff.get r).toNat →
          t.wsh.parts[p].runs.get r = 0 ∧
          (s.wsh.riskN ≤ s.wsh.parts[p].clean.get r + 1 → t.wsh.parts[p].risk.get r = false)) ∧
        t.wsh.parts[p].use = s.wsh.parts[p].use) ∧
    (∀ (p : Fin 24) (r : Fin 3) use, s.wsh.started = true → uncapped (s.wsh.parts[p].eff.get r) = false →
      (s.wsh.parts[p].eff.get r).toNat ≤ use → s.wsh.parts[p].use.get r ≤ use →
      Does (.partitionExhausted p r use) s fun t => t.wsh.parts[p].exh.get r = true ∧ t.wsh.parts[p].use.get r = use ∧
        ∀ q : Fin 24, q ≠ p → t.wsh.parts[q] = s.wsh.parts[q]) ∧
    (∀ (p : Fin 24) r, s.wsh.started = true → s.wsh.parts[p].cls = 0 → lowRung s = false →
      Does (.c0Request p r) s fun t =>
        t.wsh.parts[p].confCount + t.wsh.parts[p].nonconfCur = s.wsh.parts[p].confCount + s.wsh.parts[p].nonconfCur + 1 ∧
        (s.wsh.parts[p].rate ≤ s.wsh.parts[p].confCount + s.wsh.parts[p].nonconfCur →
          t.wsh.parts[p].nonconfCur = s.wsh.parts[p].nonconfCur + 1)) ∧
    (∀ a, Reach a 0x60001C s → Does (.wshC0MaxClr a) s fun t => t.wsh.c0Max = 0#16 ∧ t.wsh.c0Late = s.wsh.c0Late)

/-- Slice points, the pin, dispatch and joining (07 R165, R169, R181, R187, 08 R198, 10 R255, R263, R264). Readings and
choices of the model: log entries 38 and 54. -/
def Obligations.ArrayCommands : Prop :=
  ∀ s : State,
    (∀ (e : Fin 1024) x j, eng? s e.val = some x → x.st = .atSlice → job? s x.job = some j → j.ph = .running →
      clusterLost s (clOf e.val) = false → mustPreempt s e.val j = false →
      (pinHolds s x = false → Does (.slicePoint e) s fun t =>
        eng? t e.val = some { x with st := .running, issued := 0, sliceTick := s.tbs.tick.toNat }) ∧
      (pinHolds s x = true → Does (.slicePoint e) s fun t => eng? t e.val = some { x with st := .pinWait })) ∧
    (∀ (e : Fin 1024) x j, eng? s e.val = some x → x.st = .atSlice → job? s x.job = some j → j.ph = .running →
      clusterLost s (clOf e.val) = false → mustPreempt s e.val j = true →
      (∃ p ∈ s.pln.engines, p.1 ≠ e.val ∧ p.1 / 16 = e.val / 16) →
      Does (.slicePoint e) s fun t => eng? t e.val = none ∧
        (assocGet t.pln.ctx e.val).map (·.eng) = some { x with blk := none, st := .running, issued := 0 }) ∧
    (∀ (e : Fin 1024) x j, eng? s e.val = some x → x.st = .atSlice → job? s x.job = some j → j.ph = .stopping →
      (∀ p ∈ s.pln.engines, p.1 ≠ e.val → p.2.job ≠ j.id) → j.discard = false →
      Does (.slicePoint e) s fun t => Ended j.id j.status.toNat j.result t) ∧
    (∀ (e : Fin 1024) x, eng? s e.val = some x → x.st = .pinWait → Does (.pinWaitEnd e) s fun t =>
      eng? t e.val = some { x with st := .running, issued := 0, sliceTick := s.tbs.tick.toNat }) ∧
    (∀ (id : Nat) (c : Fin 64) (lane : Fin 16) io j, job? s id = some j → canDispatch s c lane io j = true →
      (needsEntropy j = true → entropyOn s = true) → j.d.flags.getLsbD 0 = false →
      Does (.jobDispatch id c lane io) s fun t =>
        (∃ k, job? t id = some k ∧ k.ph = .running ∧ k.cluster = some c ∧ k.joined = 1 ∧ k.src = io.src ∧ k.aux = io.aux ∧
          k.d = j.d ∧ k.pages.length = (progShape s j).2.1 ∧ k.gpages.length = (progShape s j).2.2.1) ∧
        (∃ y, eng? t (c.val * 16 + lane.val) = some y ∧ y.job = id ∧ y.eid = 0#4 ∧ y.g = Vector.replicate 32 0#24 ∧
          y.gg = 0#32 ∧ y.pc = BitVec.ofNat 15 (progShape s j).2.2.2.2) ∧
        t.pln.clusters[c].part = 8 + j.fn.val) ∧
    (∀ (id : Nat) (lane : Fin 16) (c : Fin 64) j, job? s id = some j → j.cluster = some c → j.ph = .running → j.halted = 0 →
      j.joined < j.width → mayUse s c (8 + j.fn.val) = true →
      laneFree s (c.val * 16 + lane.val) (isC0 s (8 + j.fn.val)) = true →
      Does (.engineJoin id lane) s fun t => (job? t id).map (·.joined) = some (j.joined + 1) ∧
        ∃ y, eng? t (c.val * 16 + lane.val) = some y ∧ y.job = id ∧ y.eid = BitVec.ofNat 4 j.joined ∧
          y.g = Vector.replicate 32 0#24 ∧ y.gg = 0#32)

/-- Clusters in and out of service, their gradients and the program store's windows (07 R173, R174, R182, R183, R190,
R191). Jobs that end from outside their engines (10 R263, R271). Readings and choices of the model: log entries 38 and 40.
-/
def Obligations.ClusterCommands : Prop :=
  (∀ s : State,
     (∀ off : BitVec 26, Reach .pf0 off.toNat s → 0x1000000 ≤ off.toNat → off.toNat < 0x2000000 →
       exec (.programStoreWrite .pf0 off) s = .next (ev 0x7040#16 off.toNat 0 0 (leaveIdle s))) ∧
     (∀ (c n : Fin 64) (mv : BitVec 10), neighbours c n = true → 150 < mv.toNat → s.pln.clusters[c].st ≠ 0 →
       s.pln.clusters[n].st ≠ 0 → c ≠ 0 → s.pln.clusters[c].outCause = 0 →
       Does (.supplyDifferenceFault c n mv false) s fun t => t.pln.clusters[c].outCause = 3 ∧
         t.pln.gradDv = if s.pln.gradDv.toNat < mv.toNat then mv else s.pln.gradDv) ∧
     (∀ (hot cool : Fin 64) (dt : BitVec 8), 30 < dt.toNat → Does (.temperatureDifference hot cool dt) s fun t =>
       t.pln.dtEpisode = true ∧ (t.pln.gradDt = if s.pln.gradDt.toNat < dt.toNat then dt else s.pln.gradDt) ∧
       t.pln.clusters[hot].vcore.toNat ≤ s.pln.clusters[hot].vcore.toNat ∧
       s.pln.clusters[hot].vcore.toNat ≤ t.pln.clusters[hot].vcore.toNat + 60) ∧
     (∀ (hot cool : Fin 64) (dt : BitVec 8), dt.toNat ≤ 30 → Does (.temperatureDifference hot cool dt) s fun t =>
       t.pln.dtEpisode = false ∧ t.pln.clusters = s.pln.clusters) ∧
     (∀ a, Reach a 0x700008 s → Does (.plnGradClr a) s fun t => t.pln.gradDv = 0#10 ∧ t.pln.gradDt = 0#8) ∧
     (∀ a (c : Fin 64), Reach a (0x700300 + 4 * c.val) s → c ≠ 0 → othersUsable (leaveIdle s) c = true →
       Does (.offlineWrite a c true) s fun t => t.pln.clusters[c].offline = true) ∧
     (∀ a (c : Fin 64), Reach a (0x700300 + 4 * c.val) s → c = 0 ∨ othersUsable (leaveIdle s) c = false →
       Does (.offlineWrite a c true) s fun t => t.pln.clusters[c].offline = s.pln.clusters[c].offline) ∧
     (∀ a (c : Fin 64), Reach a (0x700300 + 4 * c.val) s → c ≠ 0 → s.pln.clusters[c].outCause = 1 →
       Does (.offlineWrite a c false) s fun t => t.pln.clusters[c].offline = false ∧ t.pln.clusters[c].outCause = 0) ∧
     (∀ c : Fin 64, s.pln.clusters[c].offline = true → s.pln.clusters[c].outCause = 0 → clusterHeld s c.val = false →
       Does (.clusterOffline c) s fun t => t.pln.clusters[c].outCause = 1)) ∧
  (∀ (s : State) (id : Nat) (j : Job), JobIds s → job? s id = some j → j.discard = false →
     (j.ph = .running → (∃ p ∈ s.pln.engines, p.2.job = id) →
       Does (.jobTimeout id) s fun t => (job? t id).map (fun k => (k.ph, k.status, k.result)) =
         some (.stopping, 0x32#8, (s.job.limits[j.fn]).setWidth 32)) ∧
     (j.ph = .running → (∀ p ∈ s.pln.engines, p.2.job ≠ id) →
       Does (.jobTimeout id) s fun t => Ended id 0x32 ((s.job.limits[j.fn]).setWidth 32) t) ∧
     (∀ w : BitVec 2, w ≠ 0#2 → j.ph = .running ∨ j.ph = .waiting →
       Does (.dmaError id w) s fun t => Ended id 0x15 (w.setWidth 32) t))

/-- The general registers (08 R192): g0 reads as zero with a clear guard bit and discards writes; a write of any other
register is read back with its guard bit and changes no other. Where the arithmetic instructions and the fetch trap (08
R193, R195, R199, R200, R204): the cause of each. Readings and choices of the model: log entry 39. -/
def Obligations.RegisterFile : Prop :=
  (∀ (x : Engine) (r q : BitVec 5) (v : BitVec 24) (g : Bool),
     rg x 0#5 = 0#24 ∧ rgG x 0#5 = false ∧ wr 0#5 v g x = x ∧
     (r ≠ 0#5 → rg (wr r v g x) r = v ∧ rgG (wr r v g x) r = g) ∧
     (q ≠ r → rg (wr r v g x) q = rg x q ∧ rgG (wr r v g x) q = rgG x q) ∧
     (wr r v g x).pc = x.pc ∧ (wr r v g x).mq = x.mq ∧ (wr r v g x).lc = x.lc ∧ (wr r v g x).la = x.la ∧
     (wr r v g x).c = x.c) ∧
  (∀ (e : Fin 1024) (x : Engine) (j : Job) (s : State) (gd ga gb : BitVec 5), j.discard = false → j.ph ≠ .done →
     (Issues e x j s →
       (∀ i : BitVec 8, 32 ≤ i.toNat → Traps (.iShli e gd ga i) x 8 0 0x30 s ∧ Traps (.iShri e gd ga i) x 8 0 0x30 s) ∧
       (x.mq = 0#24 → Traps (.iMmul e gd ga gb) x 8 0 0x30 s ∧ Traps (.iMadd e gd ga gb) x 8 0 0x30 s ∧
         Traps (.iMsub e gd ga gb) x 8 0 0x30 s ∧ Traps (.iBfly e gd ga gb) x 8 0 0x30 s) ∧
       (gd = ga → gd ≠ 0#5 → Traps (.iBfly e gd ga gb) x 8 0 0x30 s ∧ Traps (.iBflyI e gd ga gb) x 8 0 0x30 s) ∧
       (∀ code, Traps (.iTrap e code) x 9 code.toNat 0x30 s) ∧
       (∀ w, wordDecodes w = false → Traps (.undefinedOpcode e w) x 8 0 0x30 s)) ∧
     (eng? s e.val = some x → x.st = .running → x.blk = none → job? s x.job = some j → inRange s j x.pc = false →
       Traps (.iAdd e gd ga gb) x 11 0 0x30 s) ∧
     (eng? s e.val = some x → x.st = .running → x.blk = none → job? s x.job = some j → inRange s j x.pc = true →
       x.pc.toNat ∈ (cluster s (e.val / 16)).badParity → Traps (.iAdd e gd ga gb) x 5 0 0x31 s))

/-- The arithmetic and logic instructions (08 R178, R198, R199): gd and its guard bit are written, C by the chain
instructions alone, and nothing else of the engine but its place in the program. The modular instructions (08 R178, R193,
R198, R200): their results under MQ, the Montgomery product stated by the equation that defines it. Readings and choices
of the model: log entries 39 and 58. -/
def Obligations.ArithmeticInstructions : Prop :=
  (∀ (e : Fin 1024) (x : Engine) (j : Job) (s : State) (gd ga gb : BitVec 5), Issues e x j s →
     let a := rg x ga
     let b := rg x gb
     let g := rgG x ga || rgG x gb
     let put (c : Instr) (v : BitVec 24) (g : Bool) : Prop := Completes c e (issued x (wr gd v g x) (x.pc + 1)) j s
     let cin := if x.c then 1 else 0
     let chain (c : Instr) (v : BitVec 24) (k g : Bool) : Prop :=
       Completes c e (issued x (wr gd v g { x with c := k, cG := g }) (x.pc + 1)) j s
     put (.iAdd e gd ga gb) (a + b) g ∧ put (.iSub e gd ga gb) (a - b) g ∧ put (.iAnd e gd ga gb) (a &&& b) g ∧
     put (.iOr e gd ga gb) (a ||| b) g ∧ put (.iXor e gd ga gb) (a ^^^ b) g ∧
     put (.iShl e gd ga gb) (a <<< (b.toNat % 32)) g ∧ put (.iShr e gd ga gb) (a >>> (b.toNat % 32)) g ∧
     put (.iSra e gd ga gb) (a.sshiftRight (b.toNat % 32)) g ∧
     put (.iSltu e gd ga gb) (if a < b then 1#24 else 0#24) g ∧
     put (.iCsel e gd ga gb) (if x.c then a else b) (g || x.cG) ∧
     put (.iMullo e gd ga gb) (a * b) g ∧
     put (.iMulhi e gd ga gb) (BitVec.ofNat 24 (a.toNat * b.toNat / 2 ^ 24)) g ∧
     (∀ i : BitVec 8, put (.iAddi e gd ga i) (a + i.signExtend 24) (rgG x ga) ∧
       put (.iAndi e gd ga i) (a &&& i.setWidth 24) (rgG x ga) ∧ put (.iOri e gd ga i) (a ||| i.setWidth 24) (rgG x ga) ∧
       (i.toNat < 32 → put (.iShli e gd ga i) (a <<< i.toNat) (rgG x ga) ∧ put (.iShri e gd ga i) (a >>> i.toNat) (rgG x ga))) ∧
     (∀ i : BitVec 13, put (.iLdi e gd i) (i.setWidth 24) false ∧
       put (.iLdhi e gd i) (i ++ (rg x gd).setWidth 11) (rgG x gd)) ∧
     chain (.iAddc e gd ga gb) (a + b + BitVec.ofNat 24 cin) (decide (2 ^ 24 ≤ a.toNat + b.toNat + cin)) (g || x.cG) ∧
     chain (.iAddcS e gd ga gb) (a + b) (decide (2 ^ 24 ≤ a.toNat + b.toNat)) g ∧
     chain (.iSubb e gd ga gb) (a - b - BitVec.ofNat 24 cin) (decide (a.toNat < b.toNat + cin)) (g || x.cG) ∧
     chain (.iSubbS e gd ga gb) (a - b) (decide (a.toNat < b.toNat)) g) ∧
  (∀ (e : Fin 1024) (x : Engine) (j : Job) (s : State) (gd ga gb : BitVec 5), Issues e x j s → x.mq ≠ 0#24 →
     let m := x.mq.toNat
     let a := (rg x ga).toNat
     let b := (rg x gb).toNat
     let g := rgG x ga || rgG x gb || x.mqG
     let put (c : Instr) (v : Nat) : Prop := Completes c e (issued x (wr gd (BitVec.ofNat 24 v) g x) (x.pc + 1)) j s
     let two (c : Instr) (p q : Nat) : Prop := Completes c e
       (issued x (wr ga (BitVec.ofNat 24 q) (rgG x gd || g) (wr gd (BitVec.ofNat 24 p) (rgG x gd || g) x)) (x.pc + 1)) j s
     put (.iMadd e gd ga gb) ((a + b) % m) ∧
     put (.iMsub e gd ga gb) ((((a : Int) - b) % m).toNat) ∧
     (x.mq.getLsbD 0 = true → ∀ p, p < m → p * 2 ^ 24 % m = a * b % m → put (.iMmul e gd ga gb) p) ∧
     (x.mq.getLsbD 0 = true → gd = 0#5 ∨ gd ≠ ga → ∀ p, p < m → p * 2 ^ 24 % m = a * b % m →
       two (.iBfly e gd ga gb) (((rg x gd).toNat + p) % m) (((((rg x gd).toNat : Int) - p) % m).toNat)) ∧
     (x.mq.getLsbD 0 = true → gd = 0#5 ∨ gd ≠ ga → ∀ p, p < m →
       p * 2 ^ 24 % m = (((((rg x gd).toNat : Int) - a) % m).toNat) * b % m →
       two (.iBflyI e gd ga gb) (((rg x gd).toNat + a) % m) p))

/-- MTS to MQ, and what cause 8 covers (08 R193). -/
def Obligations.ModulusRegister : Prop :=
  ∀ (e : Fin 1024) (x : Engine) (j : Job) (s : State) (ga : BitVec 5), Issues e x j s →
    let a := rg x ga
    let takes : Prop := a.getLsbD 0 = true ∧ 3 ≤ a.toNat ∧ a.toNat ≤ 8388607
    let bad (c : Instr) : Prop := Traps c x 8 0 0x30 s
    (takes → ∃ q : BitVec 24, q * a = -1#24 ∧
      Completes (.iMts e 0#8 ga) e (issued x { x with mq := a, mqi := q, mqG := rgG x ga } (x.pc + 1)) j s) ∧
    (j.discard = false → j.ph ≠ .done →
      (¬ takes → bad (.iMts e 0#8 ga)) ∧
      (∀ n : BitVec 8, n = 1#8 ∨ 5 ≤ n.toNat → bad (.iMts e n ga)) ∧
      (∀ gd (n : BitVec 8), 7 ≤ n.toNat → bad (.iMfs e gd n)) ∧
      (x.mq = 0#24 → ∀ gd gb, bad (.iMmul e gd ga gb) ∧ bad (.iMadd e gd ga gb) ∧ bad (.iMsub e gd ga gb) ∧
        bad (.iBfly e gd ga gb) ∧ bad (.iBflyI e gd ga gb)) ∧
      (∀ w, wordDecodes w = false → bad (.undefinedOpcode e w)))

/-- Loads, stores and streams (07 R179, 08 R178, R201, R202, 10 R257): what each transfers, where the stores go, and when
a stream instruction blocks. The stream's events (07 R179, 08 R202, 10 R257): a word of the engine's input joins its
queue, or ends the SIN that waits for it; credit returns with the oldest word sent, which goes to the destination where
the engine's EID is 0. Readings and choices of the model: log entry 39. -/
def Obligations.MemoryInstructions : Prop :=
  (∀ (e : Fin 1024) (x : Engine) (j : Job) (s : State) (gd ga : BitVec 5) (i : BitVec 8), Issues e x j s →
     let adr := rg x ga + i.setWidth 24
     let ptr := wr ga (rg x ga + i.signExtend 24) (rgG x ga) x
     (∀ w p gp, memAt s j adr = some (w, p, gp) → wordOk w = true →
       Completes (.iLdw e gd ga i) e (issued x (wr gd (wordVal w) (gp && wordG w) x) (x.pc + 1)) j s) ∧
     (∀ w p gp, memAt s j (rg x ga) = some (w, p, gp) → wordOk w = true → gd ≠ ga →
       Completes (.iLdp e gd ga i) e (issued x (wr gd (wordVal w) (gp && wordG w) ptr) (x.pc + 1)) j s) ∧
     Stores (.iStw e gd ga i) e (issued x x (x.pc + 1)) j adr (rg x gd) (rgG x gd) s ∧
     Stores (.iStp e gd ga i) e (issued x ptr (x.pc + 1)) j (rg x ga) (rg x gd) (rgG x gd) s ∧
     (∀ w rest, x.sin = w :: rest →
       Completes (.iSin e gd) e (issued x (wr gd w false { x with sin := rest, c := false, cG := false }) (x.pc + 1)) j s) ∧
     (x.sin = [] → x.inDone = true →
       Completes (.iSin e gd) e (issued x (wr gd 0#24 false { x with c := true, cG := false }) (x.pc + 1)) j s) ∧
     (x.sin = [] → x.inDone = false → Blocks (.iSin e gd) e x { op := 0x1D, gd := gd } s) ∧
     (rgG x ga = false → x.credit ≠ 0 →
       Completes (.iSout e ga) e (issued x { x with sout := x.sout ++ [rg x ga], credit := x.credit - 1 } (x.pc + 1)) j s) ∧
     (rgG x ga = false → x.credit = 0 → Blocks (.iSout e ga) e x { op := 0x1E, ga := ga } s) ∧
     (j.discard = false → j.ph ≠ .done →
       (rgG x ga = true → Traps (.iSout e ga) x 2 0 0x30 s) ∧
       (memAt s j adr = none → Traps (.iLdw e gd ga i) x 3 0 0x30 s ∧ Traps (.iStw e gd ga i) x 3 0 0x30 s) ∧
       (∀ w p gp, memAt s j adr = some (w, p, gp) → wordOk w = false → Traps (.iLdw e gd ga i) x 4 0 0x31 s) ∧
       (∀ w p, memAt s j adr = some (w, p, false) → rgG x gd = true → Traps (.iStw e gd ga i) x 1 0 0x30 s) ∧
       (gd = ga → Traps (.iLdp e gd ga i) x 8 0 0x30 s))) ∧
  (∀ (e : Fin 1024) (x : Engine) (j : Job) (s : State), eng? s e.val = some x → job? s x.job = some j →
     (∀ w last, (engInput j x.eid.toNat x.ew.toNat)[x.fed]? = some w →
       last = decide (x.fed + 1 = (engInput j x.eid.toNat x.ew.toNat).length) →
       (x.sin.length < 32 → x.blk = none → Does (.streamInWord e w last) s fun t =>
         t.pln = { s.pln with engines := assocPut s.pln.engines e.val { x with
           fed := x.fed + 1, inDone := last, sin := x.sin ++ [w] } } ∧ t.job = s.job ∧ EngineFrame s t) ∧
       (∀ b, x.blk = some b → b.op = 0x1D → x.sin.length < 32 →
         inRange s j (unblocked (wr b.gd w false { x with fed := x.fed + 1, inDone := last, c := false, cG := false }) s).pc = true →
         Does (.streamInWord e w last) s fun t => eng? t e.val = some (unblocked (wr b.gd w false { x with
           fed := x.fed + 1, inDone := last, c := false, cG := false }) s) ∧ t.job = s.job)) ∧
     (∀ w rest, x.sout = w :: rest → x.blk = none → Does (.streamOutCredit e) s fun t =>
       eng? t e.val = some { x with sout := rest, credit := x.credit + 1 } ∧
       (x.eid = 0#4 → (job? t x.job).map (·.out) = some (j.out ++ wordBytes w)) ∧
       (x.eid ≠ 0#4 → (job? t x.job).map (·.lost) = some (j.lost + 1) ∧ (job? t x.job).map (·.out) = some j.out)) ∧
     (∀ w rest b, x.sout = w :: rest → x.blk = some b → b.op = 0x1E →
       inRange s j (unblocked { x with sout := rest ++ [rg x b.ga] } s).pc = true →
       Does (.streamOutCredit e) s fun t => eng? t e.val = some (unblocked { x with sout := rest ++ [rg x b.ga] } s)))

/-- Branches, calls, loops and special registers (08 R192, R193, R199, R203, R204, R208). Readings and choices of the
model: log entry 39. -/
def Obligations.ControlInstructions : Prop :=
  ∀ (e : Fin 1024) (x : Engine) (j : Job) (s : State) (gd ga : BitVec 5), Issues e x j s →
    let d := rg x gd
    let a := rg x ga
    let on (c : Instr) (p : Bool) (pc : BitVec 15) : Prop :=
      Completes c e (if p then jumped x x pc else issued x x (x.pc + 1)) j s
    let put (c : Instr) (v : BitVec 24) (g : Bool) : Prop := Completes c e (issued x (wr gd v g x) (x.pc + 1)) j s
    let set (c : Instr) (y : Engine) : Prop := Completes c e (issued x y (x.pc + 1)) j s
    (∀ o : BitVec 8, on (.iBeq e gd ga o) (d == a) (x.pc + 1 + o.signExtend 15) ∧
      on (.iBne e gd ga o) (d != a) (x.pc + 1 + o.signExtend 15) ∧
      on (.iBlt e gd ga o) (decide (d < a)) (x.pc + 1 + o.signExtend 15) ∧
      on (.iBge e gd ga o) (decide (a ≤ d)) (x.pc + 1 + o.signExtend 15)) ∧
    (∀ o : BitVec 13, on (.iJmp e o) true (x.pc + 1 + o.signExtend 15) ∧
      Completes (.iCall e gd o) e (jumped x (wr gd ((x.pc + 1).setWidth 24) false x) (x.pc + 1 + o.signExtend 15)) j s) ∧
    (a.toNat < 2 ^ 15 → on (.iRet e ga) true (a.setWidth 15)) ∧
    (∀ n : BitVec 13, n ≠ 0#13 → n.toNat ≤ 512 →
      (d = 0#24 → Completes (.iLoop e gd n) e (issued x x (x.pc + 1 + n.setWidth 15)) j s) ∧
      (d ≠ 0#24 → set (.iLoop e gd n) { x with
        lc := d, lcG := rgG x gd, la := BitVec.ofNat 24 ((n.toNat - 1) * 2 ^ 15 + (x.pc + 1).toNat), laG := false })) ∧
    put (.iMfs e gd 0#8) x.mq x.mqG ∧ put (.iMfs e gd 1#8) x.mqi x.mqG ∧ put (.iMfs e gd 2#8) x.lc x.lcG ∧
    put (.iMfs e gd 3#8) x.la x.laG ∧ put (.iMfs e gd 4#8) (if x.c then 1#24 else 0#24) x.cG ∧
    put (.iMfs e gd 5#8) (x.eid.setWidth 24) false ∧ put (.iMfs e gd 6#8) (x.ew.setWidth 24) false ∧
    (a.getLsbD 0 = true → 3 ≤ a.toNat → a.toNat ≤ 8388607 →
      set (.iMts e 0#8 ga) { x with mq := a, mqi := negInv24 a, mqG := rgG x ga } ∧ negInv24 a * a = -1#24) ∧
    set (.iMts e 2#8 ga) { x with lc := a, lcG := rgG x ga } ∧ set (.iMts e 3#8 ga) { x with la := a, laG := rgG x ga } ∧
    set (.iMts e 4#8 ga) { x with c := a.getLsbD 0, cG := rgG x ga } ∧
    (x.pc.toNat < 0x4000 → put (.iDcl e gd) d false)

/-- Barriers, key loads and an engine's end (07 R177, 08 R205 to R207, 10 R265). The vault's answer to a key load (07
R177, 08 R207): the first check of R177 that fails traps with cause 6 and its reason; else the word goes to its register
with the guard bit set, or the whole key to the AES unit. Readings and choices of the model: log entry 39. -/
def Obligations.JobInstructions : Prop :=
  (∀ (e : Fin 1024) (x : Engine) (j : Job) (s : State) (gd ga gb : BitVec 5), Issues e x j s →
     (∀ b : Fin 8, (rg x ga).toNat ≤ j.bar[b].toNat →
       Completes (.iWaitc e ga (BitVec.ofNat 8 b.val)) e (issued x x (x.pc + 1)) j s) ∧
     (∀ b : Fin 8, j.bar[b].toNat < (rg x ga).toNat →
       Blocks (.iWaitc e ga (BitVec.ofNat 8 b.val)) e x { op := 0x2A, ga := ga, mod := BitVec.ofNat 8 b.val } s) ∧
     (∀ b : Fin 8, (∀ p ∈ s.pln.engines, p.2.job = j.id → p.2.blk = none) → inRange s j (issued x x (x.pc + 1)).pc = true →
       Does (.iSignal e (BitVec.ofNat 8 b.val)) s fun t => eng? t e.val = some (issued x x (x.pc + 1)) ∧
         (job? t j.id).map (fun k => k.bar[b]) = some (bvSat j.bar[b] 1) ∧ EngineFrame s t) ∧
     Blocks (.iKeyld e gd ga gb) e x { op := 0x2E, gd := gd, ga := ga, gb := gb } s ∧
     Blocks (.iKeyldA e ga) e x { op := 0x2E, ga := ga, mod := 1#8 } s ∧
     (j.halted + 1 < j.joined → (∃ p ∈ s.pln.engines, p.1 ≠ e.val ∧ clOf p.1 = clOf e.val ∧ p.1 < 1024) →
       Does (.iHalt e) s fun t => eng? t e.val = none ∧ (job? t x.job).map (·.halted) = some (j.halted + 1)) ∧
     (j.joined ≤ j.halted + 1 → j.d.op = 0x0B#8 → j.discard = false → j.ph ≠ .done →
       Does (.iHalt e) s fun t => (∀ p ∈ t.pln.engines, p.2.job ≠ x.job) ∧
         ∀ k ∈ t.job.jobs, k.id = x.job → k.ph = .done ∧ k.status = 0#8 ∧ k.out = []) ∧
     (j.discard = false → j.ph ≠ .done →
       (∀ b : BitVec 8, 8 ≤ b.toNat → Traps (.iWaitc e ga b) x 8 0 0x30 s ∧ Traps (.iSignal e b) x 8 0 0x30 s) ∧
       (0x4000 ≤ x.pc.toNat → Traps (.iDcl e gd) x 7 0 0x30 s) ∧
       (∀ n : BitVec 8, 7 ≤ n.toNat → Traps (.iMfs e gd n) x 8 0 0x30 s))) ∧
  (∀ (e : Fin 1024) (x : Engine) (j : Job) (b : Blocked) (s : State), eng? s e.val = some x → x.blk = some b →
     b.op = 0x2E → job? s x.job = some j →
     let slot := (rg x b.ga).toNat
     let reason := keyReason s j (e.val / 16) slot (b.mod == 1#8)
     let key := (assocGet j.keyVer slot).getD (slotKey (slotAt s slot))
     (reason ≠ 0 → j.discard = false → j.ph ≠ .done → Traps (.keyldComplete e) x 6 reason 0x20 s) ∧
     (reason = 0 → b.mod ≠ 1#8 →
       inRange s j (unblocked (wr b.gd (BitVec.ofNat 24 (leAt key (3 * (rg x b.gb).toNat) 3)) true x) s).pc = true →
       Does (.keyldComplete e) s fun t => eng? t e.val =
         some (unblocked (wr b.gd (BitVec.ofNat 24 (leAt key (3 * (rg x b.gb).toNat) 3)) true x) s) ∧
         (job? t x.job).bind (fun k => assocGet k.keyVer slot) = some key ∧ EngineFrame s t) ∧
     (reason = 0 → b.mod = 1#8 → s.pln.clusters[clOf e.val].a0 = {} → inRange s j (unblocked x s).pc = true →
       Does (.keyldComplete e) s fun t => eng? t e.val = some (unblocked x s) ∧
         t.pln.clusters[clOf e.val].a0 = { owner := some e.val, key := some key } ∧ EngineFrame s t))

/-- The accelerator commands (07 R175, R176, 08 R209, R210): each that passes its checks at issue blocks its engine until
the unit is done, and one in an invalid state traps with cause 10. A unit's command is done (07 R175, R176, 08 R209,
R210): what it leaves in the unit it works on. Readings and choices of the model: log entries 15 and 39. -/
def Obligations.AcceleratorCommands : Prop :=
  (∀ (e : Fin 1024) (x : Engine) (j : Job) (s : State) (gd ga gb : BitVec 5), Issues e x j s →
     let c := cluster s (e.val / 16)
     let ok (i : Instr) (check : Job → Engine → Cluster → Nat) (b : Blocked) : Prop :=
       (check j x c = 0 → Blocks i e x b s) ∧
         (check j x c ≠ 0 → j.discard = false → j.ph ≠ .done → check j x c ≠ 4 → check j x c ≠ 5 → check j x c ≠ 6 →
           Traps i x (check j x c) 0 0x30 s)
     ok (.kckInit e ga) (kckInitCheck ga) ⟨0x1F, 0#5, ga, 0#5, 0#8⟩ ∧
     ok (.kckAbsorb e ga gb) (kckAbsorbCheck e.val ga gb) ⟨0x1F, 0#5, ga, gb, 1#8⟩ ∧
     ok (.kckFinal e) (kckFinalCheck e.val) ⟨0x1F, 0#5, 0#5, 0#5, 2#8⟩ ∧
     ok (.kckSqueeze e gd gb) (kckSqueezeCheck e.val gd gb) ⟨0x1F, gd, 0#5, gb, 3#8⟩ ∧
     ok (.kckRelease e) (heldCheck fun c => heldK c e.val) ⟨0x1F, 0#5, 0#5, 0#5, 7#8⟩ ∧
     ok (.shaInit e ga) (shaInitCheck ga) ⟨0x20, 0#5, ga, 0#5, 0#8⟩ ∧
     ok (.shaAbsorb e ga gb) (shaAbsorbCheck e.val ga gb) ⟨0x20, 0#5, ga, gb, 1#8⟩ ∧
     ok (.shaFinal e gd) (shaFinalCheck e.val gd) ⟨0x20, gd, 0#5, 0#5, 2#8⟩ ∧
     ok (.shaRelease e) (heldCheck fun c => heldS c e.val) ⟨0x20, 0#5, 0#5, 0#5, 7#8⟩ ∧
     ok (.aesInit e ga gb) (aesInitCheck e.val ga gb) ⟨0x21, 0#5, ga, gb, 0#8⟩ ∧
     ok (.aesAad e ga gb) (aesAadCheck e.val ga gb) ⟨0x21, 0#5, ga, gb, 1#8⟩ ∧
     ok (.aesEnc e gd ga gb) (aesTextCheck e.val 1 gd ga gb) ⟨0x21, gd, ga, gb, 2#8⟩ ∧
     ok (.aesDec e gd ga gb) (aesTextCheck e.val 2 gd ga gb) ⟨0x21, gd, ga, gb, 3#8⟩ ∧
     ok (.aesTag e gd) (aesTagCheck e.val gd) ⟨0x21, gd, 0#5, 0#5, 4#8⟩ ∧
     ok (.aesRelease e) (heldCheck fun c => heldA c e.val) ⟨0x21, 0#5, 0#5, 0#5, 7#8⟩) ∧
  (∀ (e : Fin 1024) (x : Engine) (j : Job) (b : Blocked) (s : State), eng? s e.val = some x → x.blk = some b →
     job? s x.job = some j → inRange s j (unblocked x s).pc = true →
     let c := s.pln.clusters[clOf e.val]
     let does (P : Cluster → Prop) : Prop := Does (.accelCommandDone e) s fun t =>
       eng? t e.val = some (unblocked x s) ∧ P t.pln.clusters[clOf e.val] ∧ t.job = s.job ∧ EngineFrame s t
     (b.op = 0x1F → b.mod = 0#8 → heldK c e.val = none → c.k0.owner = none → does fun c' =>
       c'.k0 = { owner := some e.val, ph := .absorbing, mode := (rg x b.ga).toNat } ∧ c'.k1 = c.k1) ∧
     (∀ k, b.op = 0x1F → b.mod = 2#8 → c.k0 = k → k.owner = some e.val → does fun c' =>
       c'.k0 = { k with lanes := kckPad (kckRate k.mode) (kckDom k.mode) k.lanes k.pos, pos := 0, out := 0, ph := .squeezing } ∧
       c'.k1 = c.k1) ∧
     (b.op = 0x1F → b.mod = 7#8 → c.k0.owner = some e.val → does fun c' => c'.k0 = {} ∧ c'.k1 = c.k1) ∧
     (b.op = 0x20 → b.mod = 0#8 → heldS c e.val = none → c.s0.owner = none → does fun c' =>
       c'.s0 = { owner := some e.val, ph := .absorbing, mode := (rg x b.ga).toNat } ∧ c'.s1 = c.s1) ∧
     (b.op = 0x20 → b.mod = 7#8 → c.s0.owner = some e.val → does fun c' => c'.s0 = {} ∧ c'.s1 = c.s1) ∧
     (b.op = 0x21 → b.mod = 7#8 → c.a0.owner = some e.val → does fun c' => c'.a0 = {} ∧ c'.k0 = c.k0))

/-- Queue pairs and their doorbells (10 R249 to R251, R261, R264, R271, R274). Readings and choices of the model: log
entries 40 and 54. -/
def Obligations.QueueCommands : Prop :=
  ∀ (s : State) (f : Fin 16) (q : Fin 64),
    let x := queue s f.val q.val
    let bar : Prop := decodes s f = true ∧ lowRung s = false ∧ servedBars s = true
    (∀ a (v : BitVec 32), ReachFn a f (0x1000 + 0x20 * q.val + 0x10) s → v.getLsbD 1 = false → x.en = false →
      qJobs s f q = [] → 4 ≤ v.toNat / 16 % 16 → v.toNat / 16 % 16 ≤ 12 → vectorOk f (v.toNat / 256 % 128) = true →
      Does (.queueEnable a f q v) s fun t => queue t f.val q.val = { x with
        k := v.toNat / 16 % 16, vector := BitVec.ofNat 7 (v.toNat / 256 % 128), msix := v.getLsbD 15, en := true,
        error := false, sqHead := 0, sqTail := 0, cqTail := 0, cqHead := 0, phase := true, unsignalled := 0 }) ∧
    (∀ a, ReachFn a f (0x1000 + 0x20 * q.val + 0x10) s → x.en = true →
      Does (.queueDisable a f q) s fun t => queue t f.val q.val = { x with en := false } ∧ t.job.jobs = s.job.jobs) ∧
    (∀ a id j, ReachFn a f (0x1000 + 0x20 * q.val + 0x10) s → JobIds s → job? s id = some j → j.fn = f → j.q = q →
      j.discard = false → j.ph = .waiting ∨ j.ph = .fetched →
      Does (.queueAbort a f q) s fun t => Ended id 0x33 0#32 t) ∧
    (∀ a id j, ReachFn a f (0x1000 + 0x20 * q.val + 0x10) s → JobIds s → job? s id = some j → j.fn = f → j.q = q →
      j.ph = .running → (∃ p ∈ s.pln.engines, p.2.job = id) →
      (∀ k ∈ s.job.jobs, k.ph = .waiting ∨ k.ph = .fetched → k.cluster = none) →
      Does (.queueAbort a f q) s fun t => (job? t id).map (fun k => (k.ph, k.status)) = some (.stopping, 0x33#8)) ∧
    (∀ v : BitVec 32, bar → x.en = true → x.error = false → v.toNat < 2 ^ x.k →
      ringSub x.k x.sqTail x.sqHead ≤ ringSub x.k v.toNat x.sqHead →
      Does (.sqTailDoorbell f q v) s fun t => queue t f.val q.val = { x with sqTail := v.toNat }) ∧
    (∀ v : BitVec 32, bar → x.en = true → x.error = false → v.toNat < 2 ^ x.k →
      ringSub x.k x.cqTail v.toNat ≤ ringSub x.k x.cqTail x.cqHead →
      Does (.cqHeadDoorbell f q v) s fun t => queue t f.val q.val = { x with cqHead := v.toNat }) ∧
    (∀ v : BitVec 32, bar → x.en = false ∨ x.error = true ∨ 2 ^ x.k ≤ v.toNat →
      Does (.sqTailDoorbell f q v) s fun t => t.job = s.job) ∧
    (∀ d : Desc, lowRung s = false → servedBars s = true →
      mayAdmit (applyQuota f.val (leaveIdle s)) f q (d.flags.getLsbD 2) = true → 1 ≤ d.op.toNat → d.op.toNat ≤ 12 →
      Does (.descriptorFetch f q [d]) s fun t =>
        (∃ j, t.job.jobs = s.job.jobs ++ [j] ∧ j.id = s.job.nextId ∧ j.fn = f ∧ j.q = q ∧ j.d = d ∧ j.ph = .fetched) ∧
        t.job.nextId = s.job.nextId + 1 ∧ (queue t f.val q.val).sqHead = (x.sqHead + 1) % 2 ^ x.k) ∧
    (mayAdmit s f q false = true →
      Does (.descriptorReadFailure f q) s fun t => queue t f.val q.val = { x with error := true }) ∧
    (x.msix = true → x.unsignalled ≠ 0 → x.coalUs ≠ 0#16 → x.vector.toNat ∈ s.hlk.fns[f].msixOpen →
      Does (.coalescingTimer f q) s fun t => queue t f.val q.val = { x with unsignalled := 0 } ∧
        t.out.log = .msix f.val x.vector.toNat :: s.out.log)

/-- The checks of the library operations (10 R252, R253, R266): a descriptor that obeys its operation's rules waits for
dispatch. Readings and choices of the model: log entry 40. -/
def Obligations.OperationCommands : Prop :=
  ∀ (s : State) (id : Nat) (j : Job),
    let d := j.d
    let waits (t : State) : Prop := job? t id = some { j with ph := .waiting }
    let noKey : Prop := d.keySlot = 0xFFFF#16
    let noDst : Prop := d.dstSlot = 0xFFFF#16
    let noArgs : Prop := d.arg0 = 0#32 ∧ d.arg1 = 0#32 ∧ d.arg2 = 0#32
    (Fetched s id 1 j → 1 ≤ d.progId.toNat → d.progId.toNat ≤ 6 → d.auxLen = 0#32 → noArgs → noKey → noDst →
      (d.progId = 5#16 ∨ d.progId = 6#16 → 1 ≤ d.dstLen.toNat ∧ d.dstLen.toNat ≤ 65536) → Does (.opHash id) s waits) ∧
    (Fetched s id 2 j → d.progId = 0x010#16 ∧ d.auxLen = 32#32 ∨ d.progId = 0x011#16 ∧ d.auxLen = 48#32 → d.srcLen ≠ 0#32 →
      9 ≤ d.arg0.toNat → d.arg0.toNat ≤ 16 → d.arg1 = 0#32 → d.arg2 = 0#32 → noKey → noDst →
      Does (.opMerkleVerify id) s waits) ∧
    (Fetched s id 3 j → d.arg0.toNat ≤ 255 → d.dstLen = 0#32 → d.arg1 = 0#32 → d.arg2 = 0#32 → noKey → noDst →
      d.progId = 0x020#16 ∧ d.auxLen.toNat = 3732 + d.arg0.toNat ∨ d.progId = 0x021#16 ∧ d.auxLen.toNat = 5261 + d.arg0.toNat ∨
        d.progId = 0x022#16 ∧ d.auxLen.toNat = 7219 + d.arg0.toNat ∨ d.progId = 0x028#16 ∧ d.auxLen = 129#32 ∧ d.arg0 = 0#32 ∨
        d.progId = 0x029#16 ∧ d.auxLen = 193#32 ∧ d.arg0 = 0#32 ∨ d.progId = 0x02C#16 ∧ d.arg0 = 0#32 → Does (.opSigVerify id) s waits) ∧
    (Fetched s id 4 j → d.arg0.toNat ≤ 255 → d.arg1 = 0#32 → d.arg2 = 0#32 → KeyFits s j 1 0#16 → noDst →
      (d.progId = 0x030#16 ∨ d.progId = 0x031#16 ∨ d.progId = 0x032#16) ∧ d.auxLen = d.arg0 ∨
        (d.progId = 0x038#16 ∨ d.progId = 0x039#16) ∧ d.auxLen = 0#32 ∧ d.arg0 = 0#32 → Does (.opSigSign id) s waits) ∧
    (Fetched s id 5 j → d.progId = 0x040#16 ∧ d.srcLen = 1088#32 ∨ d.progId = 0x041#16 ∧ d.srcLen = 1568#32 → d.auxLen = 0#32 →
      d.dstLen = 0#32 → d.arg0 = 0#32 → d.arg1 = 0#32 → KeyFits s j 3 0#16 → d.dstSlot.toNat < 256 →
      slotRefusal s d.dstSlot.toNat j.fn.val d.arg2 1 32 false = 0 → Does (.opKemDecaps id) s waits) ∧
    (Fetched s id 6 j → d.progId = 0x050#16 → 12 ≤ d.auxLen.toNat → noArgs → KeyFits s j 4 0x200#16 → noDst →
      Does (.opAeadSeal id) s waits) ∧
    (Fetched s id 7 j → d.progId = 0x051#16 → 12 ≤ d.auxLen.toNat → 16 ≤ d.srcLen.toNat → noArgs → KeyFits s j 4 0x200#16 →
      noDst → Does (.opAeadOpen id) s waits) ∧
    (Fetched s id 8 j → d.progId = 0x060#16 → d.dstLen = 0#32 → 16 ≤ d.arg0.toNat → d.arg0.toNat ≤ 64 → d.arg1 = 0#32 →
      KeyFits s j 5 0#16 → d.dstSlot.toNat < 256 →
      slotRefusal s d.dstSlot.toNat j.fn.val d.arg2 1 d.arg0.toNat false = 0 → Does (.opDerive id) s waits) ∧
    (Fetched s id 9 j → d.progId = 0x070#16 → noArgs → noKey → noDst → Does (.opImageCheck id) s waits) ∧
    (Fetched s id 10 j → d.progId = 0x080#16 → 32 ≤ d.auxLen.toNat → d.auxLen.toNat ≤ 64 → d.srcLen = 0#32 →
      d.arg0.toNat < 32 → d.arg1 = 0#32 → d.arg2 = 0#32 → s.kvt.ident = true → noKey → noDst → Does (.opEvidence id) s waits) ∧
    (Fetched s id 12 j → 0x400 ≤ d.progId.toNat → (copyOf s j).isSome = true → noDst →
      noKey ∨ (∃ p, copyOf s j = some p ∧ p.use ≠ 0 ∧ KeyFits s j p.use 0x1000#16) → Does (.opCustom id) s waits)

/-- What ends an operation before it runs (10 R252, R271): the first check that fails says how. Loading a customer program
(08 R216, R218, R219). Readings and choices of the model: log entry 40. -/
def Obligations.OperationRefusals : Prop :=
  (∀ (s : State) (id : Nat) (j : Job), JobIds s →
     job? s id = some j → j.ph = .fetched → j.discard = false → j.d.op = 1#8 → DescFits { j.d with zero := 0#32 } →
     j.d.auxLen = 0#32 → j.d.arg0 = 0#32 → j.d.arg1 = 0#32 → j.d.arg2 = 0#32 →
     (1 ≤ j.d.dstLen.toNat ∧ j.d.dstLen.toNat ≤ 65536) →
     (j.d.zero ≠ 0#32 → Does (.opHash id) s (Ended id 0x11 60#32)) ∧
     (j.d.zero = 0#32 → j.d.progId.toNat = 0 ∨ 7 ≤ j.d.progId.toNat →
       Does (.opHash id) s (Ended id 0x12 (j.d.progId.setWidth 32))) ∧
     (j.d.zero = 0#32 → 1 ≤ j.d.progId.toNat → j.d.progId.toNat ≤ 6 → j.d.keySlot ≠ 0xFFFF#16 →
       Does (.opHash id) s (Ended id 0x20 (trapWord 0 0 0 0))) ∧
     (j.d.zero = 0#32 → 1 ≤ j.d.progId.toNat → j.d.progId.toNat ≤ 6 → j.d.keySlot = 0xFFFF#16 → j.d.dstSlot ≠ 0xFFFF#16 →
       Does (.opHash id) s (Ended id 0x21 (j.d.dstSlot.setWidth 32)))) ∧
  (∀ (s : State) (id : Nat) (j : Job) (img : Bytes), JobIds s → Fetched s id 11 j → j.discard = false →
     j.d.progId = 0x0F0#16 → j.d.auxLen = 0#32 → j.d.dstLen = 0#32 → j.d.arg0 = 0#32 → j.d.arg1 = 0#32 → j.d.arg2 = 0#32 →
     j.d.keySlot = 0xFFFF#16 → j.d.dstSlot = 0xFFFF#16 → img.length = j.d.srcLen.toNat →
     (∀ b, j.fn = 0 → loadCheck img s = .ok (some b) →
       (∀ p ∈ s.pln.progs, p.base ≠ b) → Does (.opLoadProgram id img) s fun t => Ended id 0 (p32 b) t ∧
       ∃ p ∈ t.pln.progs, p.id = leAt img 6 2 ∧ p.base = b ∧ p.len = leAt img 12 4 ∧ p.version = BitVec.ofNat 32 (leAt img 8 4) ∧
         p.draining = false ∧ p.code = imgCode img) ∧
     (j.fn = 0 → loadCheck img s = .ok none → Does (.opLoadProgram id img) s fun t =>
       (∀ p ∈ t.pln.progs, p.id = leAt img 6 2 → p.draining = true) ∧ ∃ v, Ended id 0 v t) ∧
     (∀ r o, j.fn = 0 → loadCheck img s = .error (r, o) → Does (.opLoadProgram id img) s fun t =>
       Ended id 0x40 (p32 r) t ∧ t.pln.progs.length ≤ s.pln.progs.length) ∧
     (j.fn = 0 → s.boot.eff.progLoadEn = false → Does (.opLoadProgram id img) s (Ended id 0x40 1#32)) ∧
     (j.fn ≠ 0 → Does (.opLoadProgram id img) s (Ended id 0x40 2#32)))

/-- The link of PF0 comes up, falls and changes, and configuration writes (09 R222, R226, R236, R237, R464; 03 R88).
Readings and choices of the model: log entries 14 and 52. -/
def Obligations.LinkCommands : Prop :=
  ∀ s : State,
    (∀ w rv fl, canTrain s = true → Does (.linkUp w rv fl) s fun t => t.hlk.speed = 1#3 ∧ t.hlk.width = w ∧
      t.hlk.reversed = rv ∧ t.hlk.flit = fl ∧ t.hlk.pm = 0#3 ∧ t.pins.txIdle = false ∧ t.pins.wakeLow = false) ∧
    (∀ sp w, s.hlk.speed ≠ 0#3 → sp ≠ 0#3 → s.hlk.speed ≠ sp ∨ s.hlk.width ≠ w →
      Does (.linkSpeedChange sp w) s fun t => t.hlk.speed = sp ∧ t.hlk.width = w ∧ t.hlk.fns = s.hlk.fns) ∧
    (∀ f w, s.hlk.speed ≠ 0#3 → fnThere s f = true →
      Does (.configurationWrite f w) s fun t => t.hlk.fns[f].bme = w.bme ∧ t.hlk.fns[f].mse = w.mse ∧
        t.hlk.fns[f].d3 = w.d3 ∧ (f = 0 → t.hlk.ari = w.ari ∧ t.hlk.aspm = w.aspm)) ∧
    (∀ f, s.hlk.speed ≠ 0#3 → s.hlk.fns[f].d3 = true →
      Does (.functionReturnD0 f) s fun t => t.hlk.fns[f].d3 = false ∧ t.hlk.fns[f].bme = true) ∧
    (∀ n : BitVec 16, s.hlk.speed ≠ 0#3 → s.hlk.numVf = 0 → n.toNat ≤ totalVfs s → (∀ j ∈ s.job.jobs, j.fn = 0) →
      exec (.vfEnableWrite true n) s = .next (s.modHlk fun h => { h with numVf := n.toNat })) ∧
    (∀ n : BitVec 16, s.hlk.speed ≠ 0#3 → totalVfs s < n.toNat →
      exec (.vfEnableWrite true n) s = .next (ev 0x9004#16 n.toNat (totalVfs s) 0 s)) ∧
    (∀ n, s.hlk.speed ≠ 0#3 → Does (.vfEnableWrite false n) s fun t => t.hlk.numVf = 0 ∧
      ∀ j ∈ t.job.jobs, 1 ≤ j.fn.val → j.fn.val ≤ s.hlk.numVf → j.discard = true) ∧
    (∀ f bar off, decodes s f = true → lowRung s = false →
      Does (.atomicOp f bar off) s fun t => ∃ l, t.out.log = .unsupported :: l) ∧
    (∀ a (bar : Fin 6) (off : BitVec 34) w, a ≠ .mgmt → decodes s (match a with | .vf n => n | _ => 0) = true →
      lowRung s = false → s.glb.unservedLogged = false →
      (if bar = 0 ∧ (match a with | .vf n => n | _ => (0 : Fin 16)) = 0 then servedWin s (off.toNat / 0x100000) else servedBars s) = false →
      Does (.unservedBarAccess a bar off w) s fun t => t.glb.unservedLogged = true ∧
        (w = false → ∃ l, t.out.log = .readReply [0xFF#8, 0xFF#8, 0xFF#8, 0xFF#8] :: l)) ∧
    (∀ r, s.hlk.pmeWait = some r → s.pwr.wakePend = none →
      Does .pmeTurnOff s fun t => t.pwr.rung = r ∧ t.hlk.pmeWait = none ∧ t.hlk.speed = 0#3 ∧ t.hlk.pm = 5#3 ∧
        t.pins.txIdle = true) ∧
    (∀ r, s.hlk.pmeWait = some r → s.pwr.wakePend = none →
      Does .pmeTimeout s fun t => t.pwr.rung = r ∧ t.hlk.pmeWait = none ∧ t.hlk.speed = 0#3 ∧ t.hlk.sessions = [] ∧
        t.hlk.ringEn = false)

/-- What resets the functions (09 R227): the link falling, a hot reset, HLK_PERST#, and a Function Level Reset. Readings
and choices of the model: log entries 14 and 54. -/
def Obligations.FunctionResets : Prop :=
  ∀ s : State,
    let all (t : State) : Prop := (∀ f : Fin 16, t.hlk.fns[f].bme = false ∧
        t.hlk.fns[f].mse = false ∧ t.hlk.fns[f].d3 = false ∧ t.hlk.fns[f].msixOpen = []) ∧ t.hlk.ringEn = false ∧ t.hlk.sessions = [] ∧
      t.hlk.shakes = [] ∧ t.hlk.bar2 = [] ∧ t.hlk.numVf = 0 ∧ t.hlk.ide = Vector.replicate 9 {} ∧
      ∀ j ∈ t.job.jobs, j.discard = true
    (∀ l, s.hlk.speed ≠ 0#3 → s.hlk.pmeWait = none →
      Does (.linkDown l) s fun t => all t ∧ t.hlk.speed = 0#3 ∧ t.hlk.width = 0#5 ∧ t.hlk.pm = 6#3 ∧ t.pins.txIdle = true) ∧
    (s.hlk.speed ≠ 0#3 →
      Does .hotReset s fun t => all t ∧ t.hlk.speed = s.hlk.speed ∧ t.hlk.width = s.hlk.width) ∧
    (s.pins.perstLow = false → s.pwr.supplyValid = true → s.hlk.pmeWait = none →
      Does .perstAssert s fun t => all t ∧ t.pins.perstLow = true ∧ t.hlk.speed = 0#3 ∧ t.pins.txIdle = true) ∧
    (exec .perstRelease s = .next (s.modPins fun p => { p with perstLow := false })) ∧
    (s.hlk.speed ≠ 0#3 →
      Does (.functionLevelReset 0) s fun t => (∀ f : Fin 16, t.hlk.fns[f] = {}) ∧ t.hlk.ringEn = false ∧
        t.hlk.sessions = [] ∧ t.hlk.bar2 = [] ∧ t.hlk.ide = s.hlk.ide ∧ t.hlk.speed = s.hlk.speed) ∧
    (∀ f : Fin 16, s.hlk.speed ≠ 0#3 → f ≠ 0 → f.val ≤ s.hlk.numVf →
      Does (.functionLevelReset f) s fun t => t.hlk.fns[f] = {} ∧ t.hlk.numVf = s.hlk.numVf ∧
        t.hlk.ringEn = s.hlk.ringEn ∧ t.hlk.sessions = s.hlk.sessions ∧ (∀ g : Fin 16, g ≠ f →
          t.hlk.fns[g].bme = s.hlk.fns[g].bme ∧ t.hlk.fns[g].mse = s.hlk.fns[g].mse ∧ t.hlk.fns[g].d3 = s.hlk.fns[g].d3) ∧
        ∀ j ∈ t.job.jobs, j.fn = f → j.discard = true)

/-- The event ring (09 R238 to R243). Readings and choices of the model: log entry 52. -/
def Obligations.EventRingCommands : Prop :=
  ∀ s : State,
    (∀ a v, Reach a 0x900010 s → s.hlk.ringEn = false → Does (.eventRingBaseWrite a false v) s fun t =>
      t.hlk.ringBase = s.hlk.ringBase.extractLsb' 32 32 ++ v) ∧
    (∀ a v, Reach a 0x900014 s → s.hlk.ringEn = false → Does (.eventRingBaseWrite a true v) s fun t =>
      t.hlk.ringBase = v ++ s.hlk.ringBase.extractLsb' 0 32) ∧
    (∀ a hi v, Reach a (if hi then 0x900014 else 0x900010) s → s.hlk.ringEn = true →
      exec (.eventRingBaseWrite a hi v) s =
        .next (raise 0x9013#16 (if hi then 0x14#32 else 0x10#32) v 0#32 (leaveIdle s))) ∧
    (∀ a (v : BitVec 32), Reach a 0x900018 s → v.getLsbD 0 = true → s.hlk.ringEn = false →
      4 ≤ v.toNat / 16 % 32 → v.toNat / 16 % 32 ≤ 16 → Does (.eventRingCtrlWrite a v) s fun t =>
        t.hlk.ringEn = true ∧ t.hlk.ringK = v.toNat / 16 % 32 ∧ t.hlk.head = 0 ∧ t.hlk.tail = 0 ∧ t.hlk.phase = true ∧
        t.hlk.ringMsix = v.getLsbD 1 ∧ t.hlk.holdoff = v.extractLsb' 16 8) ∧
    (∀ a (v : BitVec 32), Reach a 0x900018 s → v.getLsbD 0 = true → s.hlk.ringEn = false →
      v.toNat / 16 % 32 < 4 ∨ 16 < v.toNat / 16 % 32 → Does (.eventRingCtrlWrite a v) s fun t => t.hlk.ringEn = false) ∧
    (∀ a (v : BitVec 32), Reach a 0x900018 s → v.getLsbD 0 = false → Does (.eventRingCtrlWrite a v) s fun t =>
      t.hlk.ringEn = false ∧ t.hlk.ringMsix = v.getLsbD 1 ∧ t.hlk.holdoff = v.extractLsb' 16 8) ∧
    (∀ a (v : BitVec 32), Reach a 0x90001C s → s.hlk.ringEn = true → v.toNat % 65536 < 2 ^ s.hlk.ringK →
      (s.hlk.tail + 2 ^ s.hlk.ringK - v.toNat % 65536) % 2 ^ s.hlk.ringK ≤
        (s.hlk.tail + 2 ^ s.hlk.ringK - s.hlk.head) % 2 ^ s.hlk.ringK →
      Does (.eventRingHeadWrite a v) s fun t => t.hlk.head = v.toNat % 65536 ∧ t.hlk.tail = s.hlk.tail) ∧
    (∀ a (v : BitVec 32), Reach a 0x90001C s → s.hlk.ringEn = false ∨ 2 ^ s.hlk.ringK ≤ v.toNat % 65536 →
      Does (.eventRingHeadWrite a v) s fun t => t.hlk.head = s.hlk.head) ∧
    (∀ m rest, s.hlk.msgs = m :: rest → postHeld s = false → exhausted s 6 2 = false → lowRung s = false →
      (s.hlk.tail + 1) % 2 ^ s.hlk.ringK ≠ s.hlk.head →
      Does .messagePost s fun t => t.hlk.tail = (s.hlk.tail + 1) % 2 ^ s.hlk.ringK ∧
        (t.hlk.tail = 0 → t.hlk.phase = !s.hlk.phase) ∧ (t.hlk.tail ≠ 0 → t.hlk.phase = s.hlk.phase) ∧
        ∃ l k, t.out.log = l ++ .hostWrite 0 ((s.hlk.ringBase &&& 0xFFFFFFFFFFFFF000#64) +
            BitVec.ofNat 64 (32 * s.hlk.tail) + 28#64) ((msgBytes m s.hlk.dropSince s.hlk.phase).drop 28) ::
          .hostWrite 0 ((s.hlk.ringBase &&& 0xFFFFFFFFFFFFF000#64) + BitVec.ofNat 64 (32 * s.hlk.tail))
            ((msgBytes m s.hlk.dropSince s.hlk.phase).take 28) :: k) ∧
    (∀ m rest, s.hlk.msgs = m :: rest → postHeld s = false → exhausted s 6 2 = false → lowRung s = false →
      (s.hlk.tail + 1) % 2 ^ s.hlk.ringK = s.hlk.head →
      Does .messagePost s fun t => t.hlk.msgs = rest ∧ t.hlk.tail = s.hlk.tail ∧ t.hlk.dropTotal = bvSat s.hlk.dropTotal 1) ∧
    (s.hlk.holdoffOn = true → s.hlk.holdoffOwed = false → Does .msixHoldoffExpiry s fun t => t.hlk.holdoffOn = false) ∧
    (s.hlk.holdoffOn = true → s.hlk.holdoffOwed = true → s.hlk.ringMsix = true → 0 ∈ s.hlk.fns[(0 : Fin 16)].msixOpen →
      Does .msixHoldoffExpiry s fun t => t.hlk.holdoffOn = true ∧ t.hlk.holdoffOwed = false ∧
        t.out.log = .msix 0 0 :: s.out.log)

/-- The verified views of BAR2 (09 R231, 11 R297): a read is answered, aborted or waits; a write is dropped. Readings and
choices of the model: log entry 52. -/
def Obligations.VerifiedViews : Prop :=
  ∀ (s : State) (off : BitVec 34), decodes s 0 = true → lowRung s = false → servedBars s = true →
    let o := off.toNat
    let c := (bar2At o).1
    let ready : Prop := bar2Cause s o = 0 ∧ exhausted s 8 2 = false ∧ canReadFlash s c = true
    let key := leafKey (bar2At o).2.1 (bar2At o).2.2
    let miss : Prop := s.sdl.ch[c].cvOn = false ∨ assocGet s.sdl.ch[c].cache key = none
    (∀ n l, bar2Cause s o ≠ 0 → Does (.bar2Read off n l) s fun t =>
      (∃ k, t.out.log = .completerAbort :: k) ∧ o ∉ t.hlk.bar2) ∧
    (∀ n l, bar2Cause s o = 0 → exhausted s 8 2 = true ∨ canReadFlash s c = false →
      Does (.bar2Read off n l) s fun t => o ∈ t.hlk.bar2 ∧ t.out.log = s.out.log) ∧
    (∀ n l p m i, ready → bar2View s o = some (p, m, i) → miss → leafOk m i l = true →
      Does (.bar2Read off n l) s fun t => (∃ k, t.out.log = .readReply (slice l.leaf (o % 4096) n) :: k) ∧ o ∉ t.hlk.bar2) ∧
    (∀ n l p m i, ready → bar2View s o = some (p, m, i) → miss → leafOk m i l = false →
      Does (.bar2Read off n l) s fun t => (∃ k, t.out.log = .completerAbort :: k) ∧ o ∉ t.hlk.bar2) ∧
    (∀ n l b, ready → s.sdl.ch[c].cvOn = true → assocGet s.sdl.ch[c].cache key = some b →
      Does (.bar2Read off n l) s fun t => (∃ k, t.out.log = .readReply (slice b (o % 4096) n) :: k) ∧ o ∉ t.hlk.bar2) ∧
    (o ∈ s.hlk.bar2 → Does (.bar2ReadTimeout off) s fun t =>
      (∃ k, t.out.log = .completerAbort :: k) ∧ o ∉ t.hlk.bar2) ∧
    exec (.bar2Write off) s = .next (ev 0x9031#16 (o / 4) 0 0 (leaveIdle s))

/-- IDE: streams, their keys in the vault, and the policy (09 R244, R245; 13 R345). SPDM over DOE (09 R246, 14 R366):
measurements, certificates and sessions. Readings and choices of the model: log entry 53. -/
def Obligations.IdeCommands : Prop :=
  (∀ (s : State) (st : Fin 9),
     (s.hlk.ide[st].secure = true → Does (.ideIntegrityFailure st) s fun t => t.hlk.ide[st].secure = false ∧
       t.hlk.ide[st].keys = s.hlk.ide[st].keys ∧ t.hlk.ideFails = bvSat s.hlk.ideFails 1) ∧
     (∀ (f : Fin 16) (bar : Fin 6) off, decodes s f = true → lowRung s = false → s.hlk.policy.getLsbD (bar.val / 2) = true →
       (Does (.idePolicyRefusal f bar off false) s fun t => ∃ k, t.out.log = .unsupported :: k) ∧
       Does (.idePolicyRefusal f bar off true) s fun t => t.out.log = s.out.log) ∧
     (∀ (kid : Fin 12) (key : Bytes) n, ideKmOn s = true → key.length = 32 → assocGet s.hlk.ide[st].keys kid.val = none →
       ideSlot s = some n → Does (.ideKmKeyProg st kid key) s fun t =>
         assocGet t.hlk.ide[st].keys kid.val = some n ∧ slotKey (slotAt t n.val) = key ∧ (slotAt t n.val).owner = 16 ∧
         (slotAt t n.val).ktype = 1 ∧ attrDest (slotAt t n.val).attr = 0x400#16 ∧ attrPers (slotAt t n.val).attr = false) ∧
     (∀ (kid : Fin 12) (key : Bytes), ideKmOn s = true → key.length = 32 → assocGet s.hlk.ide[st].keys kid.val = none →
       ideSlot s = none → exec (.ideKmKeyProg st kid key) s = .next (ev 0xC042#16 st.val 0 0 s)) ∧
     (∀ (kid : Fin 12) n, ideKmOn s = true → assocGet s.hlk.ide[st].keys kid.val = some n →
       Does (.ideKmKeySetStop st kid) s fun t => assocGet t.hlk.ide[st].keys kid.val = none ∧ slotEmpty t n.val = true ∧
         (t.hlk.ide[st].keys = [] → t.hlk.ide[st].secure = false)) ∧
     (∀ (set : Fin 2) k n, ideKmOn s = true → (k, n) ∈ s.hlk.ide[st].keys → k % 2 = set.val →
       Does (.ideKmKeySetGo st set) s fun t => t.hlk.ide[st].secure = true ∧ t.hlk.ide[st].keys = s.hlk.ide[st].keys)) ∧
  (∀ s : State,
     let reply (t : State) : Prop := ∃ k, t.out.log = .doeReply [] :: k
     (spdmOn s = true →
       (Does (.spdmGetMeasurements 0#8) s fun t =>
         t.out.log = .doeReply [BitVec.ofNat 8 (4 + (definedObjs s).length)] :: s.out.log) ∧
       (∀ i : BitVec 8, i ≠ 0#8 → i ≠ 0xFF#8 → i.toNat ∈ spdmIndexes s → Does (.spdmGetMeasurements i) s fun t =>
         t.out.log = .doeReply (i :: (spdmMeas s i.toNat).getD []) :: s.out.log) ∧
       (Does (.spdmGetMeasurements 0xFF#8) s fun t => t.out.log = .doeReply ((spdmIndexes s).flatMap fun i =>
         BitVec.ofNat 8 i :: (spdmMeas s i).getD []) :: s.out.log) ∧
       (Does .spdmSetCertificate s fun t => ∃ c, t.out.log = .doeError c :: s.out.log) ∧
       (∀ k x, k = .version ∨ k = .capabilities ∨ k = .algorithms ∨ k = .certificate ∨ k = .challenge →
         Does (.spdmRequest k x) s reply) ∧
       (∀ x, x ∉ s.hlk.sessions → s.hlk.sessions.length + s.hlk.shakes.length < 4 →
         Does (.spdmRequest .keyExchange x) s fun t => reply t ∧ x ∈ t.hlk.shakes ∧ t.hlk.sessions = s.hlk.sessions) ∧
       (∀ x, 4 ≤ s.hlk.sessions.length + s.hlk.shakes.length → Does (.spdmRequest .keyExchange x) s fun t =>
         (∃ c k, t.out.log = .doeError c :: k) ∧ t.hlk = s.hlk) ∧
       (∀ x, x ∈ s.hlk.shakes → Does (.spdmRequest .finish x) s fun t =>
         reply t ∧ t.hlk.sessions = x :: s.hlk.sessions ∧ x ∉ t.hlk.shakes) ∧
       (∀ k x, k = .heartbeat ∨ k = .keyUpdate → x ∈ s.hlk.sessions → Does (.spdmRequest k x) s reply) ∧
       (∀ x, x ∈ s.hlk.sessions → Does (.spdmRequest .endSession x) s fun t => reply t ∧ x ∉ t.hlk.sessions) ∧
       (∀ k x, k = .heartbeat ∨ k = .keyUpdate ∨ k = .endSession → x ∉ s.hlk.sessions →
         Does (.spdmRequest k x) s fun t => ∃ c, t.out.log = .doeError c :: s.out.log)) ∧
     (s.hlk.speed ≠ 0#3 →
       exec .doeAbort s = .next (raise 0x9061#16 (drawFree 32 s).1 0#32 0#32 (drawFree 32 s).2)))

/-- The Saddle's own work (11 R282, R294, R296 to R299, R305, R456): discovery, staged checks, leaves, isolation. Readings
and choices of the model: log entries 26, 29 and 36. -/
def Obligations.SaddleWork : Prop :=
  ∀ (s : State) (c : Fin 16),
    let x := s.sdl.ch[c]
    let may : Prop := x.mode = .verifying ∧ x.discovered = false ∧ s.pwr.vflashOn = true ∧ x.pwrCycle = false ∧ x.fault = 0 ∧
      x.devOp = none ∧ x.writeBusy = none
    (∀ r : DiscIn, may → csCheck x false r = none → csCheck x true r = none → Does (.discovery c r) s fun t =>
      let y := t.sdl.ch[c]
      y.discovered = true ∧ y.fault = 0 ∧ (∀ g, r.cs0 = some g → y.jedec0 = g.jedec ∧ y.dens0 = g.dens ∧ y.uid0 = g.uid) ∧
        (∀ g, r.cs1 = some g → y.jedec1 = g.jedec ∧ y.dens1 = g.dens ∧ y.uid1 = g.uid) ∧
        (r.cs0 = none → y.dens0 = 0) ∧ (r.cs1 = none → y.dens1 = 0)) ∧
    (∀ (r : DiscIn) e, may → csCheck x false r = some e → e.1 ≠ 0 → Does (.discovery c r) s fun t =>
      t.sdl.ch[c].fault = e.1 ∧ t.sdl.ch[c].discovered = false) ∧
    (∀ (r : DiscIn) e, may → csCheck x false r = none → csCheck x true r = some e → e.1 ≠ 0 → Does (.discovery c r) s fun t =>
      t.sdl.ch[c].fault = e.1 ∧ t.sdl.ch[c].discovered = false) ∧
    (∀ (o : Fin 64) f m, s.ldg.objs[o].redirCh = some c → s.ldg.objs[o].redir = true → s.ldg.objs[o].redirPhase = 2 →
      s.glb.ready = true → x.writeBusy = none → f.fault = false → stagedCode o f s = (0, some m) → ledCan s = true →
      s.ldg.seq.toNat + 1 ≤ 0xFFFFFFF0 → Does (.stagedCheckDone o f) s fun t => t.ldg.objs[o].redir = false ∧
        t.ldg.objs[o].redirCh = none ∧ t.sdl.ch[c].mboxState = 3 ∧ t.sdl.ch[c].mboxRes = 0 ∧
        ∃ r ∈ t.ldg.recs, r.obj.toNat = o.val ∧ r.slot = stagingB s o ∧ r.st = 2 ∧ r.origin = 1 ∧ r.version = m.version ∧
          r.secver = m.secver) ∧
    (∀ (o : Fin 64) f n m, s.ldg.objs[o].redirCh = some c → s.ldg.objs[o].redir = true → s.ldg.objs[o].redirPhase = 2 →
      s.glb.ready = true → x.writeBusy = none → f.fault = false → stagedCode o f s = (n, m) → n ≠ 0 →
      Does (.stagedCheckDone o f) s fun t => t.ldg.objs[o].redir = false ∧ t.sdl.ch[c].mboxState = 4 ∧
        (t.sdl.ch[c].mboxRes = n ∨ t.sdl.ch[c].mboxRes = 9) ∧ t.ldg.objs[o].sel = s.ldg.objs[o].sel) ∧
    (∀ k : BitVec 3, x.mode = .filtering → x.starved = false → 1 ≤ k.toNat → k.toNat ≤ 4 →
      Does (.deviceReadStarved c k) s fun t => t.sdl.ch[c] = { x with starved := true }) ∧
    (∀ l key rest cs1 a o m i, x.cvQueue = key :: rest → x.mode = .filtering → x.cvOn = true → x.devOp = none →
      queuedLeaf s c key = some (cs1, a, o, m, i) → leafOk m i l = true → Does (.cvLeafCheck c l) s fun t =>
        t.sdl.ch[c].cvQueue = rest ∧ assocGet t.sdl.ch[c].cache (leafKey cs1 a) = some l.leaf ∧ t.prs = s.prs) ∧
    (∀ l key rest cs1 a o m i, x.cvQueue = key :: rest → x.mode = .filtering → x.cvOn = true → x.devOp = none →
      x.cfg.cvHold = false → queuedLeaf s c key = some (cs1, a, o, m, i) → leafOk m i l = false →
      Does (.cvLeafCheck c l) s fun t => t.sdl.ch[c].cvQueue = rest ∧ t.sdl.ch[c].cache = x.cache ∧ t.prs = s.prs) ∧
    (∀ l key rest cs1 a o m i d, x.cvQueue = key :: rest → x.mode = .filtering → x.cvOn = true → x.devOp = none →
      x.cfg.cvHold = true → x.cfg.domain = some d → s.prs.dom[d].st = .released → s.ldg.objs[o].cfg.isSome →
      s.ldg.objs[o].sel = false → s.ldg.objs[o].doneB = true → s.ldg.objs[o].okB = false →
      queuedLeaf s c key = some (cs1, a, o, m, i) → leafOk m i l = false → Does (.cvLeafCheck c l) s fun t =>
        t.prs.dom[d].st = .quarantined ∨ t.prs.dom[d].st = .recovering) ∧
    (∀ on, x.cvPend = some on → x.mode = .filtering → x.cvQueue = [] → Does (.contverApply c) s fun t =>
      t.sdl.ch[c] = { x with cvOn := on, cvPend := none, cache := [], cvNodes := [], cvQueue := [] }) ∧
    (x.pwrCycle = true → s.pwr.vflashOn = true → s.sdl.present.getLsbD c.val = true → Does (.pwrCycleEnd c) s fun t =>
      t.pins.flPwr.getLsbD c.val = true ∧ t.sdl.ch[c].pwrCycle = false ∧ t.sdl.ch[c].mode = .verifying ∧
        t.sdl.ch[c].discovered = false ∧ t.sdl.ch[c].cycled = true) ∧
    (∀ mv : BitVec 16, mv.toNat < 1450 → x.isolated = false → Does (.vioPlatLow c mv) s fun t =>
      t.sdl.ch[c] = { x with isolated := true, isoSince := s.tbs.tick.toNat, vioMv := mv }) ∧
    (∀ mv : BitVec 16, 1550 ≤ mv.toNat → x.isolated = true → Does (.vioPlatValid c mv) s fun t =>
      t.sdl.ch[c].isolated = false ∧ t.sdl.ch[c].vioMv = mv)

/-- SDL_CMD and the Saddle's registers (11 R293, R295, R302, R304, R305). Readings and choices of the model: log entry 25.
-/
def Obligations.SaddleCommands : Prop :=
  ∀ (s : State) (a : Agent) (c : Fin 16) (o : Fin 64),
    let x := s.sdl.ch[c]
    let k : BitVec 16 := 0x5D1E#16
    let may : Prop := Reach a 0xA00008 s ∧ s.sdl.busy = false ∧ s.sdl.present.getLsbD c.val = true
    let opened : Prop := s.ldg.objs[o].redir = true ∧ s.ldg.objs[o].redirCh = some c ∧ s.ldg.objs[o].redirPhase = 1
    (may → x.mode = .filtering → opened → Does (.sdlCommit a k c o) s fun t => t.sdl.result = 0#4 ∧
      t.ldg.objs[o].redirPhase = 2 ∧ t.sdl.ch[c].mboxState = 2) ∧
    (may → x.mode = .filtering → opened → x.writeBusy = none → Does (.sdlAbandon a k c o) s fun t => t.sdl.result = 0#4 ∧
      t.ldg.objs[o].redir = false ∧ t.sdl.ch[c].mboxState = 5) ∧
    (may → x.mode ≠ .filtering → x.mode ≠ .pass → s.pwr.vflashOn = true → Does (.pwrCycle a k c) s fun t =>
      t.sdl.result = 0#4 ∧ t.sdl.busy = true ∧ t.sdl.ch[c].pwrCycle = true ∧ t.sdl.ch[c].discovered = false ∧
        t.pins.flPwr.getLsbD c.val = false) ∧
    (Reach a 0xA00008 s → s.sdl.busy = false → s.sdl.ch[(15 : Fin 16)].golden = true → s.boot.eff.agentDom.isSome →
      s.ldg.agentBoot = true → Does (.goldenViewOff a k) s fun t => t.sdl.result = 0#4 ∧ t.ldg.agentBoot = false) ∧
    (∀ i ∈ [Instr.sdlCommit a k c o, .sdlAbandon a k c o, .pwrCycle a k c],
      (may → x.mode ≠ .filtering → x.mode ≠ .pass → s.pwr.vflashOn = false → Does i s fun t => t.sdl.result = 4#4 ∧
        t.ldg = s.ldg) ∧
      (Reach a 0xA00008 s → s.sdl.busy = true → Does i s fun t => t.sdl.result = 5#4 ∧ t.ldg = s.ldg) ∧
      (Reach a 0xA00008 s → s.sdl.busy = false → s.sdl.present.getLsbD c.val = false →
        Does i s fun t => t.sdl.result = 2#4 ∧ t.ldg = s.ldg)) ∧
    (∀ q, q ≠ k → Reach a 0xA00008 s → Does (.pwrCycle a q c) s fun t => t.sdl.result = 1#4 ∧ t.pins.flPwr = s.pins.flPwr) ∧
    (∀ v, Reach a 0xA00010 s → s.glb.sealedDefaults = false → s.boot.rwl.getLsbD 5 = true → Does (.contverWrite a v) s fun t =>
      let e : BitVec 16 := if ceilOpt s 0 then v.setWidth 16 else 0#16
      t.sdl.contver = e ∧
        (e.getLsbD c.val ≠ s.sdl.contver.getLsbD c.val → t.sdl.ch[c].cvPend = some (e.getLsbD c.val)) ∧
        (e.getLsbD c.val = s.sdl.contver.getLsbD c.val → t.sdl.ch[c].cvPend = x.cvPend) ∧ t.sdl.ch[c].cvOn = x.cvOn) ∧
    (Reach a (0xA01004 + 0x40 * c.val) s → Does (.sdlChClr a c) s fun t =>
      t.sdl.ch[c] = { x with deny := 0#32, emu := 0#32, unchecked := 0#16 })

/-- Reads of the platform on a FILTERING channel (11 R284, R286, R289, R290). Writes of the platform on a FILTERING
channel (11 R284, R286, R289 to R291, R294). Readings and choices of the model: log entries 23 and 24. -/
def Obligations.PlatformReads : Prop :=
  (∀ (s : State) (c : Fin 16) (k : FlashCmd) (i : Instr) (cls : Nat),
     (i, cls) ∈ [(.cmdRead c k, 1), (.cmdFastRead c k, 2), (.cmdRegRead c k, 5), (.cmdSecRead c k, 7)] → Filtered s c k cls →
     let x := s.sdl.ch[c]
     let d := decide284 x k
     (d.stray = false → d.action = 0 ∨ d.action = 3 → (∀ r, d.rule = some r → r.contver = false ∨ x.cvOn = false) →
       Does i s fun t => t.sdl.ch[c].deny = x.deny ∧ t.out.log =
         .flashPass c (routeCs1 s c k ((d.rule.map (·.readStaged)).getD false)) k.opcode k.addr [] :: s.out.log) ∧
     (d.action = 1 → Does i s fun t => Denied s t c k d.index ∧ t.out.log = .platFill c d.fill :: s.out.log) ∧
     (d.action = 2 → s.glb.ready = true → cls = 5 → Does i s fun t => t.sdl.ch[c].emu = bvSat x.emu 1 ∧
       t.out.log = .platReply c (eregBytes x (opEreg x k.opcode) k.len) :: s.out.log) ∧
     (d.action = 2 → s.glb.ready = true → cls ≠ 5 → Does i s fun t => t.sdl.ch[c].emu = bvSat x.emu 1 ∧
       t.out.log = .platFill c d.fill :: s.out.log) ∧
     (d.action = 2 → s.glb.ready = false → Does i s fun t => Denied s t c k d.index ∧
       t.rst.emuHits = s.rst.emuHits + 1 ∧ t.out.log = .platFill c d.fill :: s.out.log)) ∧
  (∀ (s : State) (c : Fin 16) (k : FlashCmd) (i : Instr) (cls : Nat),
     (i, cls) ∈ [(.cmdProgram c k, 3), (.cmdErase c k, 4), (.cmdRegWrite c k, 6), (.cmdSecWrite c k, 8)] → Filtered s c k cls →
     let x := s.sdl.ch[c]
     let d := decide284 x k
     (d.stray = true → Does i s fun t => Denied s t c k d.index ∧ t.out.log = s.out.log) ∧
     (d.stray = false → d.action = 0 → x.wel = true →
       Does i s fun t => Issued s t c (if cls = 4 ∧ opAddr x k.opcode = 0 then false else routeCs1 s c k false) k) ∧
     (d.stray = false → d.action = 1 → Does i s fun t => Denied s t c k d.index ∧ t.out.log = s.out.log ∧
       (cls = 3 → t.sdl.ch[c].eregs = x.eregs.set 1 (bvPut x.eregs[1] 4 true)) ∧
       (cls = 4 → t.sdl.ch[c].eregs = x.eregs.set 1 (bvPut x.eregs[1] 5 true))) ∧
     (d.stray = false → d.action ≠ 1 → (d.action = 2 → s.glb.ready = true) → x.wel = false →
       Does i s fun t => Denied s t c k d.index ∧ t.sdl.ch[c].eregs = x.eregs ∧ t.out.log = s.out.log) ∧
     (d.stray = false → d.action = 2 → s.glb.ready = true → x.wel = true → Does i s fun t =>
       t.sdl.ch[c].emu = bvSat x.emu 1 ∧ t.sdl.ch[c].wel = false ∧ t.sdl.ch[c].wipOnce = true ∧ t.out.log = s.out.log ∧
       (cls = 6 → k.data ≠ [] → t.sdl.ch[c].eregs = x.eregs.set (opEreg x k.opcode) (eregPut x.eregs[opEreg x k.opcode] k.data)) ∧
       (cls ≠ 6 → t.sdl.ch[c].eregs = x.eregs)) ∧
     (∀ r o, d.stray = false → d.action = 3 → x.wel = true → d.rule = some r → r.object = some o →
       (s.ldg.objs[o].redir = true → s.ldg.objs[o].redirPhase = 1 → Does i s fun t => Issued s t c (stagingB s o) k ∧
         t.ldg.objs[o].redir = true) ∧
       (s.ldg.objs[o].redir = false → openRedirs s c < 4 → ledCan s = true → s.ldg.seq.toNat + 2 ≤ 0xFFFFFFF0 →
         latestSt s o.val (stagingB s o) ≠ 2 ∧ latestSt s o.val (stagingB s o) ≠ 3 ∨ 2 ≤ s.ldg.free → Does i s fun t =>
           Issued s t c (stagingB s o) k ∧ t.ldg.objs[o].redir = true ∧ t.ldg.objs[o].redirCh = some c ∧
           t.ldg.objs[o].redirPhase = 1 ∧ t.sdl.ch[c].mboxState = 1 ∧ ∃ r ∈ t.ldg.recs, r.obj.toNat = o.val ∧
             r.slot = stagingB s o ∧ r.st = 1 ∧ r.origin = 1) ∧
       (s.ldg.objs[o].redir = false → 4 ≤ openRedirs s c → Does i s fun t => Denied s t c k d.index ∧
         t.ldg.objs[o].redir = false ∧ t.out.log = s.out.log)))

/-- The classes with a fixed answer, unknown opcodes, malformed commands, the other modes (11 R279, R284, R288, R290,
R292). Readings and choices of the model: log entries 23 and 24. -/
def Obligations.PlatformPort : Prop :=
  ∀ (s : State) (c : Fin 16) (k : FlashCmd),
    let x := s.sdl.ch[c]
    let row : List (Instr × Nat) := [(.cmdRead c k, 1), (.cmdFastRead c k, 2), (.cmdProgram c k, 3), (.cmdErase c k, 4),
      (.cmdRegRead c k, 5), (.cmdRegWrite c k, 6), (.cmdSecRead c k, 7), (.cmdSecWrite c k, 8), (.cmdDiscovery c k, 9),
      (.cmdWriteEn c k, 10), (.cmdReset c k, 11), (.cmdPower c k, 12), (.cmdSuspend c k, 13)]
    let fixed (n : Nat) : Prop := x.mode = .filtering ∧ x.isolated = false ∧ opClass x k.opcode = n ∧ malformed x k = 0
    (∀ i cls, (i, cls) ∈ row → opClass x k.opcode = cls → x.isolated = false → x.mode = .pass →
      Does i s fun t => t.out.log = .flashPass c x.passCs1 k.opcode k.addr k.data :: s.out.log ∧ t.sdl.ch = s.sdl.ch) ∧
    (∀ i cls, (i, cls) ∈ row → x.isolated = true ∨ x.mode = .sealed ∨ x.mode = .verifying → exec i s = .next s) ∧
    (∀ i cls, (i, cls) ∈ row → opClass x k.opcode = cls → x.isolated = false → x.mode = .filtering → malformed x k ≠ 0 →
      Does i s fun t => Denied s t c k 0xFF ∧
        t.out.log = if writeClass cls then s.out.log else .platFill c x.cfg.fill :: s.out.log) ∧
    (opClass x k.opcode = 0 ∨ 14 ≤ opClass x k.opcode → x.isolated = false → x.mode = .filtering → malformed x k = 0 →
      Does (.cmdUndefined c k) s fun t => Denied s t c k 0xFF ∧ t.out.log = .platFill c x.cfg.fill :: s.out.log) ∧
    (fixed 9 → k.opcode = 0x9F#8 → Does (.cmdDiscovery c k) s fun t =>
      t.out.log = .platReply c (beBytes 3 (if presCs1 x then x.jedec1 else x.jedec0).toNat) :: s.out.log) ∧
    (fixed 9 → k.opcode = 0x5A#8 → Does (.cmdDiscovery c k) s fun t =>
      ∃ b : Bytes, b.length = k.len ∧ t.out.log = .platReply c b :: s.out.log) ∧
    (fixed 9 → k.opcode ≠ 0x9F#8 → k.opcode ≠ 0x5A#8 → Does (.cmdDiscovery c k) s fun t =>
      t.out.log = .platReply c (beBytes 8 (if presCs1 x then x.uid1 else x.uid0)) :: s.out.log) ∧
    (fixed 10 → k.opcode = 0x06#8 → Does (.cmdWriteEn c k) s fun t =>
      t.sdl.ch[c] = { x with wel := true, rstArmed := false } ∧ t.out = s.out) ∧
    (fixed 10 → k.opcode = 0x04#8 → Does (.cmdWriteEn c k) s fun t =>
      t.sdl.ch[c] = { x with wel := false, rstArmed := false } ∧ t.out = s.out) ∧
    (fixed 11 → k.opcode = 0x66#8 → Does (.cmdReset c k) s fun t =>
      t.sdl.ch[c] = { x with rstArmed := true } ∧ t.out = s.out) ∧
    (fixed 11 → k.opcode = 0x99#8 → x.rstArmed = true → x.writeBusy = none → Does (.cmdReset c k) s fun t =>
      t.sdl.ch[c] = { x with eregs := x.cfg.eregInit, wel := false, wipOnce := false, rstArmed := false, wip := false } ∧ t.out = s.out) ∧
    (fixed 12 → Does (.cmdPower c k) s fun t => t.sdl.ch[c] = { x with rstArmed := false } ∧ t.out = s.out) ∧
    (fixed 13 → Does (.cmdSuspend c k) s fun t => t.sdl.ch[c] = { x with rstArmed := false } ∧ t.out = s.out)

/-- The flash answers, the presented device's reset and the commit mailbox (11 R291 to R295). Readings and choices of the
model: log entries 24 and 25. -/
def Obligations.MailboxCommands : Prop :=
  ∀ (s : State) (c : Fin 16),
    let x := s.sdl.ch[c]
    (x.writeBusy.isSome ∨ x.devOp.isSome → Does (.flashReady c) s fun t => t.sdl.ch[c].writeBusy = none ∧
      t.sdl.ch[c].devOp = none ∧ t.sdl.ch[c].wip = false) ∧
    (∀ us, x.mode = .filtering → x.isolated = false → x.writeBusy = none → Does (.presentedDeviceReset c us) s fun t =>
      t.sdl.ch[c] = { x with eregs := x.cfg.eregInit, wel := false, wipOnce := false, rstArmed := false } ∧ t.out = s.out) ∧
    (∀ o : Fin 64, Mailbox s c → s.ldg.objs[o].redir = true → s.ldg.objs[o].redirCh = some c → s.ldg.objs[o].redirPhase = 1 →
      Does (.mailboxCommit c o) s fun t => t.ldg.objs[o].redirPhase = 2 ∧ t.sdl.ch[c].mboxState = 2 ∧
        t.sdl.ch[c].mboxObj = BitVec.ofNat 6 o.val ∧ t.sdl.ch[c].wel = false) ∧
    (∀ o : Fin 64, Mailbox s c → s.ldg.objs[o].redir = false → Does (.mailboxCommit c o) s fun t =>
      t.sdl.ch[c].mboxState = 0 ∧ t.sdl.ch[c].mboxRes = 1 ∧ t.ldg = s.ldg) ∧
    (∀ o : Fin 64, Mailbox s c → s.ldg.objs[o].redir = true → s.ldg.objs[o].redirCh = some c → s.ldg.objs[o].redirPhase = 1 →
      x.writeBusy = none → Does (.mailboxAbandon c o) s fun t => t.ldg.objs[o].redir = false ∧ t.ldg.objs[o].redirCh = none ∧
        t.sdl.ch[c].mboxState = 5 ∧ t.sdl.ch[c].mboxRes = 0 ∧ t.sdl.ch[c].wel = false) ∧
    (∀ o : Fin 64, Mailbox s c → s.ldg.objs[o].redir = true → s.ldg.objs[o].redirCh = some c → s.ldg.objs[o].redirPhase = 1 →
      x.writeBusy ≠ none → Does (.mailboxAbandon c o) s fun t => t.ldg.objs[o].redir = true ∧ t.ldg.objs[o].redirPhase = 4) ∧
    (Mailbox s c → Does (.mailboxRead c) s fun t => t.out.log = .platReply c (mboxBytes x 16) :: s.out.log)

/-- The release sequencer's commands (12 R308, R309, R316 to R319, R333, R335). Readings and choices of the model: log
entry 22. -/
def Obligations.ReleaseCommands : Prop :=
  ∀ (s : State) (d : Fin 32),
    let x := s.prs.dom[d]
    let reg (a : Agent) : Prop := Reach a 0xB00010 s ∧ x.plan.isSome
    let k : BitVec 16 := 0x3A71#16
    (∀ o f code m, checkDue s o false = true → checkReads s o f = true → slotCode ⟨true, true, true⟩ o false f s = (code, m) →
      Settles (.slotCheckDone o .a f) s fun u => u.ldg.objs[o].doneA = true ∧ u.ldg.objs[o].checkA = BitVec.ofNat 4 code ∧
        u.ldg.objs[o].okA = decide (code = 0) ∧ u.ldg.objs[o].manA = m ∧ u.prs = s.prs) ∧
    (∀ o f code m, checkDue s o true = true → checkReads s o f = true → slotCode ⟨true, true, true⟩ o true f s = (code, m) →
      Settles (.slotCheckDone o .b f) s fun u => u.ldg.objs[o].doneB = true ∧ u.ldg.objs[o].checkB = BitVec.ofNat 4 code ∧
        u.ldg.objs[o].okB = decide (code = 0) ∧ u.ldg.objs[o].manB = m ∧ u.prs = s.prs) ∧
    (∀ o f e, s.ldg.objs[o].cfg = some e → e.goldOff ≠ 0xFFFFFFFF#32 → s.sdl.present.getLsbD 15 = true →
      let code := (checkGolden o f s).1
      let due : Prop := s.ldg.rcvSrc = 2 ∧ s.ldg.rcvStage = 2 ∧ s.boot.eff.agentObj = some o
      (¬ due → Does (.slotCheckDone o .golden f) s fun t => t.ldg.objs[o].manG = (checkGolden o f s).2.1 ∧
        t.ldg.objs[o].checkG = BitVec.ofNat 4 code) ∧
      (due → code ≠ 0 → ∃ u, exec (.slotCheckDone o .golden f) s = .next (nextAttempt u) ∧ u.ldg.rcvSrc = 0) ∧
      (due → code = 0 → s.glb.ready = true → s.ldg.rcvObj.isSome → s.boot.eff.agentDom = some d → agentBootOk s d = true →
        Settles (.slotCheckDone o .golden f) s fun u => u.ldg.agentBoot = true ∧ u.sdl.ch[(15 : Fin 16)].golden = true ∧
          u.prs.dom[d].st = .released ∧ u.prs.dom[d].golden = true ∧ u.pins.domRst.getLsbD d.val = false)) ∧
    (x.st = .verifying → x.delayDone = false →
      (∀ e : Fin 32, (predsOf s d).getLsbD e.val = true → s.prs.dom[e].st = .released) →
      Settles (.releaseDelayExpiry d) s fun u => u = modDom d (fun x => { x with delayDone := true }) s) ∧
    (∀ a, reg a → Does (.prsHold a k d) s fun t => t.prs.result = 0#4 ∧ HeldBy s t d 0) ∧
    (∀ a, reg a → Does (.prsRestart a k d) s fun t => t.prs.result = 0#4 ∧ HeldBy s t d 7) ∧
    (∀ a, reg a → x.hold.getLsbD 0 = true → Does (.prsRelease a k d) s fun t => t.prs.result = 0#4 ∧
      t.prs.dom[d].hold.getLsbD 0 = false) ∧
    (∀ a, reg a → x.hold.getLsbD 0 = false → Does (.prsRelease a k d) s fun t => t.prs.result = 3#4 ∧ t.prs.dom = s.prs.dom) ∧
    (∀ a, Reach a 0xB00010 s → x.plan = none → ∀ i ∈ [Instr.prsHold a k d, .prsRelease a k d, .prsRestart a k d],
      Does i s fun t => t.prs.result = 2#4 ∧ t.prs.dom = s.prs.dom) ∧
    (∀ b : Fin 8, x.hold.getLsbD b.val = true → (b = 2 ∨ b = 7) ∧ s.pins.domRst.getLsbD d.val = true ∨
      b = 4 ∧ s.pins.domPg.getLsbD d.val = true → Settles (.holdCauseTimer d b) s fun u =>
        u = modDom d (fun x => { x with hold := bvPut x.hold b.val false }) s) ∧
    (Does (.domPgChange d true) s fun t => t.pins.domPg.getLsbD d.val = true ∧ t.prs = s.prs ∧
      (pgEnabled s d = true → t.pwr.retainRefused = false)) ∧
    (pgEnabled s d = true → Settles (.domPgChange d false) s fun u => u.pins.domPg.getLsbD d.val = false ∧ HeldBy s u d 4) ∧
    (pgEnabled s d = false → Does (.domPgChange d false) s fun t => t.pins.domPg.getLsbD d.val = false ∧ t.prs = s.prs) ∧
    (∀ ms, Does (.readbackLow d ms) s fun t => t.prs.dom[d].rbHigh = false ∧ t.pins = s.pins) ∧
    (Does (.readbackHigh d) s fun t => t.prs.dom[d].rbHigh = true ∧ t.prs.dom[d].rbLogged = false ∧ t.pins = s.pins)

/-- The image ledger (12 R322 to R326, R329, R336): what an append, an adoption and a compaction leave. Readings and
choices of the model: log entry 61. -/
def Obligations.LedgerCommands : Prop :=
  ∀ s : State,
    (∀ (r : LedIn) bad, r.st ≠ 0 → CanAppend s → bad ≤ 1 → Does (.ledgerAppend r bad) s fun t =>
      Recorded t r.obj r.slotB r.st.val r.origin.val r.version r.secver ∧ t.ldg.fail = false) ∧
    (∀ (r : LedIn) bad, r.st ≠ 0 → CanAppend s → 2 ≤ bad → Does (.ledgerAppend r bad) s fun t => t.ldg.fail = true) ∧
    (∀ (r : LedIn) bad, ledCan s = false → exec (.ledgerAppend r bad) s = .next s) ∧
    (∀ a o b f m, Reach a 0xC0000C s → s.ldg.busy = false → s.ldg.objs[o].cfg.isSome → s.ldg.objs[o].redir = false →
      (∀ d, requires s d o = true → s.prs.dom[d].st ≠ .released) → CanAppend s → b = false ∨ hasSlotB s o = true →
      slotCode ⟨false, true, true⟩ o b f (leaveIdle s) = (0, some m) → Does (.adopt a 0xD47E#16 o b f) s fun t =>
        t.ldg.result = 0#4 ∧ Recorded t o b 2 6 m.version m.secver) ∧
    (∀ a o b f, Reach a 0xC0000C s → s.ldg.busy = false → s.ldg.objs[o].cfg.isSome → s.ldg.objs[o].redir = true →
      Does (.adopt a 0xD47E#16 o b f) s fun t => t.ldg.result = 3#4 ∧ t.ldg.recs = s.ldg.recs) ∧
    (∀ a o b f, Reach a 0xC0000C s → s.ldg.busy = false → s.ldg.objs[o].cfg.isSome → s.ldg.objs[o].redir = false →
      (∀ d, requires s d o = true → s.prs.dom[d].st ≠ .released) → ledCan s = true → b = true → hasSlotB s o = false →
      Does (.adopt a 0xD47E#16 o b f) s fun t => t.ldg.result = 4#4 ∧ t.ldg.check = 11#4 ∧ t.ldg.recs = s.ldg.recs) ∧
    (∀ a, Reach a 0xC0000C s → s.ldg.busy = false → ledCan s = true → s.ldg.empty = false → Does (.compact a 0xD47E#16) s fun t =>
      t.ldg.result = 0#4 ∧ t.ldg.gen = s.ldg.gen + 1 ∧ t.ldg.sector = !s.ldg.sector ∧ t.ldg.recs = compacted s ∧
        t.ldg.free = 1024 - ((compacted s).length + 1) ∧ (∀ r ∈ t.ldg.recs, r.st ≠ 4)) ∧
    (∀ a key, Reach a 0xC0000C s → key ≠ 0xD47E#16 → Does (.compact a key) s fun t => t.ldg.result = 1#4 ∧ t.nv = s.nv)

/-- The object's ledger floor is the highest SECVER among its FLOOR records and its ACTIVE records whose ORIGIN is not 2;
0 when there are none (12 R323). -/
def Obligations.LedgerFloor : Prop :=
  ∀ (s : State) (o : Nat),
    let counts (r : LedRec) : Prop := r.obj.toNat = o ∧ (r.st = 5 ∨ r.st = 3 ∧ r.origin ≠ 2)
    (∀ r ∈ s.ldg.recs, counts r → r.secver.toNat ≤ ledFloor s o) ∧
      ((∃ r ∈ s.ldg.recs, counts r ∧ r.secver.toNat = ledFloor s o) ∨
        (∀ r ∈ s.ldg.recs, ¬ counts r) ∧ ledFloor s o = 0)

/-- Recovery (12 R331 to R334, R336): packages, readbacks, sessions and retries. Readings and choices of the model: log
entries 27 and 28. -/
def Obligations.RecoveryCommands : Prop :=
  ∀ s : State,
    let k : BitVec 16 := 0xD47E#16
    let ran (u : State) : Prop := u.ldg.retryWait = false ∧ ∀ o : Fin 64, u.ldg.objs[o].rcvFailed = false
    let there (o : Fin 64) : Prop := ∃ e, s.ldg.objs[o].cfg = some e ∧ flashFound s e.ch false = true
    let fresh (o : Fin 64) : Prop := latestSt s o.val false ≠ 2 ∧ latestSt s o.val false ≠ 3
    (∀ (a : Agent) (o : Fin 64) p, Reach a 0xC0000C s → s.ldg.busy = false → 2 ∈ s.boot.eff.order → s.ldg.rcvSrc = 2 →
      s.ldg.rcvStage = 0 → s.ldg.rcvObj = some o → s.hlk.fns[(0 : Fin 16)].bme = true → s.hlk.fns[(0 : Fin 16)].d3 = false →
      (checkPkg o p.man s).1 = 0 → p.flashOk = true → there o → fresh o → CanAppend s →
      Does (.rcvWrite a k (BitVec.ofNat 6 o.val) true p) s fun t => t.ldg.result = 0#4 ∧ t.ldg.rcvStage = 1 ∧
        t.ldg.rcvOrigin = 3 ∧ Recorded t o false 1 3 0#32 0#16) ∧
    (∀ a o p, Reach a 0xC0000C s → s.ldg.busy = false → ¬ 2 ∈ s.boot.eff.order →
      Does (.rcvWrite a k o true p) s fun t => t.ldg.result = 8#4 ∧ t.nv = s.nv) ∧
    (∀ a, Reach a 0xC0000C s → s.ldg.busy = false → 2 ∈ s.boot.eff.order → agentSession s = true → s.boot.eff.agentDom.isSome →
      Does (.rcvDone a k) s fun t => t.ldg.result = 0#4 ∧ t.ldg.agentBoot = false) ∧
    (∀ a, Reach a 0xC0000C s → s.ldg.busy = false → 2 ∈ s.boot.eff.order → agentSession s = false →
      Does (.rcvDone a k) s fun t => t.ldg.result = 3#4) ∧
    (∀ a, Reach a 0xC0000C s → s.ldg.busy = false → s.ldg.rcvBusy = false → anyFailed s = true → ∃ u, ran u ∧
      exec (.retry a k) s = .next ((settle u).modLdg fun l => { l with result := 0#4, check := 0#4 })) ∧
    (∀ a, Reach a 0xC0000C s → s.ldg.busy = false → s.ldg.rcvBusy = true → Does (.retry a k) s fun t => t.ldg.result = 6#4) ∧
    (∀ o p, s.ldg.rcvObj = some o → s.ldg.rcvSrc = 1 → s.ldg.rcvStage = 0 → (checkGolden o ⟨p.man, p.root, false⟩ s).1 = 0 →
      p.flashOk = true → there o → fresh o → CanAppend s → Does (.recoveryPackage p) s fun t => t.ldg.rcvStage = 1 ∧
        t.ldg.rcvOrigin = 2 ∧ Recorded t o false 1 2 0#32 0#16) ∧
    (∀ o f m, s.ldg.rcvObj = some o → s.ldg.rcvStage = 1 → slotCode ⟨false, true, true⟩ o false f s = (0, some m) →
      CanAppend s → ∃ u, exec (.recoveryReadbackDone f) s = .next (nextAttempt u) ∧ u.ldg.rcvObj = none ∧ u.ldg.rcvSrc = 0 ∧
        u.ldg.objs[o].okA = true ∧ u.ldg.objs[o].doneA = true ∧ Recorded u o false 2 s.ldg.rcvOrigin m.version m.secver) ∧
    (∀ o f n m, s.ldg.rcvObj = some o → s.ldg.rcvStage = 1 → slotCode ⟨false, true, true⟩ o false f s = (n, m) →
      n ≠ 0 → ∃ u, exec (.recoveryReadbackDone f) s = .next (nextAttempt u) ∧ u.ldg.rcvSrc = 0 ∧ u.ldg.rcvStage = 0 ∧
        u.ldg.objs[o].okA = false ∧ u.ldg.objs[o].checkA = BitVec.ofNat 4 n) ∧
    (s.ldg.rcvStage ≠ 1 → agentSession s = true → s.boot.eff.agentDom.isSome → Does .rcvTimeout s fun t => t.ldg.agentBoot = false) ∧
    (s.ldg.rcvStage ≠ 1 → agentSession s = false → 3 ≤ s.ldg.rcvSrc → ∃ u, exec .rcvTimeout s = .next (nextAttempt u) ∧
      u.ldg.rcvSrc = 0 ∧ u.ldg.rcvStage = 0) ∧
    (s.ldg.retryWait = true → Settles .retryMinExpiry s ran)

/-- The key vault's commands (13 R345 to R349, R352 to R355, R358). Readings and choices of the model: log entries 8 and
41. -/
def Obligations.VaultCommands : Prop :=
  ∀ (s : State) (a : Agent) (n : BitVec 8),
    let k : BitVec 16 := 0xE25B#16
    let may : Prop := Reach a 0xD00004 s ∧ s.kvt.busy = false
    let old := slotAt s n.toNat
    let kt := s.kvt.genType.toNat
    let gen : Prop := may ∧ s.ent.st = .running ∧ 1 ≤ kt ∧ kt ≤ 8 ∧
      slotRefusal s n.toNat s.kvt.genOwner.toNat s.kvt.genAttr kt (genLen kt) false = 0
    (∀ dma, gen → s.kvt.shadows = [] → attrPers s.kvt.genAttr = false → kt = 1 ∨ dma = true ∧ hostOpen s = true →
      Does (.kvtGenerate a k n true dma) s fun t => t.kvt.result = 0#4 ∧ t.kvt.busy = false ∧
        (slotAt t n.toNat).ktype = kt ∧ (slotAt t n.toNat).owner = s.kvt.genOwner.toNat ∧
        (slotAt t n.toNat).attr = attrWith s.kvt.genAttr 1 ∧ (slotAt t n.toNat).version = old.version + 1) ∧
    (∀ dma, gen → attrPers s.kvt.genAttr = true → s.kvt.shadows = [] → Does (.kvtGenerate a k n true dma) s fun t =>
      t.kvt.busy = true ∧ t.kvt.slots = s.kvt.slots ∧ ∃ x, t.kvt.shadows = [x] ∧ x.slot.val = n.toNat ∧ x.ktype = kt ∧
        x.waitImage = true) ∧
    (∀ dma, gen → Does (.kvtGenerate a k n false dma) s fun t => t.kvt.result = 2#4 ∧ t.kvt.sub = 6#4 ∧
      t.kvt.slots = s.kvt.slots) ∧
    (∀ c dma, may → s.ent.st ≠ .running → Does (.kvtGenerate a k n c dma) s fun t => t.kvt.result = 6#4 ∧
      t.kvt.slots = s.kvt.slots) ∧
    (∀ c dma, Reach a 0xD00004 s → s.kvt.busy = true → Does (.kvtGenerate a k n c dma) s fun t => t.kvt.result = 4#4 ∧
      t.kvt.slots = s.kvt.slots) ∧
    (may → (∀ x ∈ s.kvt.shadows, x.cmd = false) → 16 ≤ n.toNat → old.ktype = 0 ∨ (old.owner ≠ 16 ∧ (attrPers old.attr = false ∨ restricted s = false)) →
      Does (.kvtZeroise a k n) s fun t => t.kvt.result = 0#4 ∧ slotEmpty t n.toNat = true ∧
        ∀ m, m ≠ n.toNat → slotAt t m = slotAt s m) ∧
    (may → n.toNat < 16 → Does (.kvtZeroise a k n) s fun t => t.kvt.result = 2#4 ∧ t.kvt.sub = 2#4 ∧ t.kvt.slots = s.kvt.slots) ∧
    (∀ msg key, may → hostOpen s = true → s.kvt.shadows = [] →
      kumCheck [1, 2] msg (chargeDma 2 false msg.length (leaveIdle s)) = 0 → leAt msg 6 1 = 1 →
      leAt (kumPayload msg) 0 1 = n.toNat → attrPers (BitVec.ofNat 32 (leAt (kumPayload msg) 4 4)) = false →
      kumKey s msg = some key →
      attrOk (BitVec.ofNat 32 (leAt (kumPayload msg) 4 4)) (leAt (kumPayload msg) 2 1) key.length = true →
      Does (.kvtMsg a k true true msg) s fun t => t.kvt.result = 0#4 ∧ t.aon.msgCtr = BitVec.ofNat 64 (leAt msg 8 8) ∧
        slotKey (slotAt t n.toNat) = key ∧ (slotAt t n.toNat).ktype = leAt (kumPayload msg) 2 1 ∧
        (slotAt t n.toNat).owner = leAt (kumPayload msg) 1 1 ∧ (slotAt t n.toNat).version = old.version + 1) ∧
    (∀ msg c, may → (∀ x ∈ s.kvt.shadows, x.cmd = false) → hostOpen s = true →
      kumCheck [1, 2] msg (chargeDma 2 false msg.length (leaveIdle s)) = 0 → leAt msg 6 1 = 2 →
      Does (.kvtMsg a k true c msg) s fun t => t.kvt.result = 0#4 ∧ t.aon.msgCtr = BitVec.ofNat 64 (leAt msg 8 8) ∧
        ∀ m < 256, ((kumPayload msg).getD (m / 8) 0#8).getLsbD (m % 8) = true → slotEmpty t m = true) ∧
    (∀ msg c i, may → hostOpen s = true → kumCheck [1, 2] msg (chargeDma 2 false msg.length (leaveIdle s)) = i → i ≠ 0 →
      Does (.kvtMsg a k true c msg) s fun t => t.kvt.result = 3#4 ∧ t.kvt.sub = BitVec.ofNat 4 i ∧ t.kvt.slots = s.kvt.slots ∧
        t.aon.msgCtr = s.aon.msgCtr) ∧
    (may → 2 ≤ old.ktype → hostOpen s = true → Does (.kvtPubkey a k n true) s fun t => t.kvt.result = 0#4 ∧
      ∃ l, t.out.log = .hostWrite 0 s.kvt.addr (publicOf old.ktype (slotKey old)) :: l) ∧
    (may → old.ktype < 2 → Does (.kvtPubkey a k n true) s fun t => t.kvt.result = 2#4 ∧ t.out.log = s.out.log) ∧
    (∀ x cause, s.kvt.ident = true → s.kvt.restored = true → s.kvt.shadows = [x] → x.waitImage = true → x.holdsOld = false →
      recFlash s = true → x.slot.val = n.toNat → Does (.imageWriteDone true cause) s fun t =>
        (slotAt t n.toNat).ktype = x.ktype ∧ (slotAt t n.toNat).attr = x.attr ∧ (slotAt t n.toNat).owner = x.owner ∧
        (slotAt t n.toNat).version = old.version + 1 ∧ t.kvt.imgPend = false ∧
        ∃ i : VImage, (t.nv.img0 = some i ∨ t.nv.img1 = some i) ∧ i.valid = true ∧ i.gen = (nextCopy s).2) ∧
    (∀ x cause, s.kvt.ident = true → s.kvt.restored = true → s.kvt.shadows = [x] → x.waitImage = true → x.holdsOld = false →
      x.cmd = true → x.job = none → Does (.imageWriteDone false cause) s fun t => t.kvt.result = 2#4 ∧ t.kvt.sub = 5#4 ∧
        t.kvt.busy = false ∧ t.kvt.shadows = [] ∧ t.kvt.slots = s.kvt.slots ∧ t.nv = s.nv) ∧
    (∀ i : VImage, s.kvt.ident = true → s.kvt.restored = false → ledRead s = true → recFlash s = true → s.nv.img0 = some i →
      s.nv.img1 = none → imgValid s i = true → (i.entries.map (·.slot)).Nodup → Does .restoreDone s fun t =>
        t.kvt.restored = true ∧ t.kvt.imgOk = true ∧
          ∀ e ∈ i.entries, slotKey (slotAt t e.slot.val) = e.key ∧ (slotAt t e.slot.val).attr = e.attr) ∧
    (s.kvt.ident = true → s.kvt.restored = false → ledRead s = true → s.nv.img0 = none → s.nv.img1 = none →
      Does .restoreDone s fun t => t.kvt.restored = true ∧ t.kvt.imgOk = false ∧ t.kvt.slots = s.kvt.slots)

/-- The entropy source (13 R350, R354, R356, R357). Re-masking leaves every key as it is under a fresh mask, and stops
while the generator gives nothing (13 R355, R357). Readings and choices of the model: log entries 42 and 43. -/
def Obligations.EntropyCommands : Prop :=
  (∀ s : State,
     (s.ent.st = .startup ∨ s.ent.st = .recovering → Does .entStartupDone s fun t => t.ent.st = .running ∧
       (s.kvt.wipePend = true → t.aon.kekValid = true ∧ t.kvt.wipePend = false)) ∧
     (∀ ad n, s.ent.st ≠ .failed → (s.ent.recent.filter fun t => decide (s.tbs.tick.toNat < t + 25000000)).length < 2 →
       Does (.healthTestFailure ad n) s fun t => t.ent.st = .recovering ∧ t.ent.fails = bvSat s.ent.fails 1) ∧
     (∀ ad n, s.ent.st ≠ .failed → 2 ≤ (s.ent.recent.filter fun t => decide (s.tbs.tick.toNat < t + 25000000)).length →
       Does (.healthTestFailure ad n) s fun t => t.ent.st = .failed ∧ t.ent.fails = bvSat s.ent.fails 1) ∧
     (∀ ad n, s.ent.st = .failed → exec (.healthTestFailure ad n) s = .next s) ∧
     (s.ent.st = .running → Does .drbgReseed s fun t => t.ent.st = .running ∧ t.ent.reqs = 0 ∧
       t.ent.reseeds = bvSat s.ent.reseeds 1)) ∧
  (∀ (s : State) (us : BitVec 32), s.pwr.rung ≠ .rest → s.pwr.rung ≠ .retain →
     (s.ent.st = .running → Does (.remaskPass us) s fun t => t.kvt.remaskStopped = false ∧
       (∀ n, slotKey (slotAt t n) = slotKey (slotAt s n) ∧ (slotAt t n).ktype = (slotAt s n).ktype ∧
         (slotAt t n).attr = (slotAt s n).attr ∧ (slotAt t n).owner = (slotAt s n).owner) ∧
       (s.kvt.remask.toNat * 1000 < us.toNat → t.kvt.late = bvSat s.kvt.late 1)) ∧
     (s.ent.st ≠ .running → Does (.remaskPass us) s fun t => t.kvt.remaskStopped = true ∧ t.kvt.slots = s.kvt.slots))

/-- ATT_CMD (14 R361, R365, R371, R375, R377, R380). Readings and choices of the model: log entries 44 and 45. -/
def Obligations.AttestCommands : Prop :=
  ∀ (s : State) (a : Agent), Reach a 0xF00004 s →
    let k : BitVec 16 := 0x47A9#16
    let dma : Prop := s.hlk.fns[(0 : Fin 16)].bme = true ∧ s.hlk.fns[(0 : Fin 16)].d3 = false
    let n32 (n : Bytes) : Prop := 32 ≤ n.length ∧ n.length ≤ 64
    (∀ n, s.att.role = 2 → s.att.endorsed = true → s.ent.st = .running → dma →
      0x4004 + 52 * s.att.children.length ≤ s.att.aggCap.toNat → n32 n → s.att.round = none →
      Does (.aggregate a k n true) s fun t => t.att.result = 0#4 ∧ t.att.busy = true ∧ t.att.roundNo = s.att.roundNo + 1 ∧
        t.att.round = some { no := s.att.roundNo + 1, nonce := n, leaves := s.att.children.map fun l => { mem := l.mem } }) ∧
    (∀ n r, s.att.role = 2 → s.att.endorsed = true → s.ent.st = .running → dma →
      0x4004 + 52 * s.att.children.length ≤ s.att.aggCap.toNat → n32 n → s.att.round = some r →
      Does (.aggregate a k n true) s fun t => t.att.result = 3#4 ∧ t.att.round = some r ∧
        t.att.rounds = s.att.rounds ++ [{ nonce := n }]) ∧
    (∀ n d, s.att.role ≠ 2 → Does (.aggregate a k n d) s fun t => t.att.result = 2#4 ∧ t.att.round = s.att.round) ∧
    (s.att.role ≠ 0 → s.boot.eff.parent ≠ s.boot.eff.member → s.att.helloTick = none → Does (.rejoin a k) s fun t =>
      t.att.result = 0#4 ∧ t.att.helloTick = some s.tbs.tick.toNat) ∧
    (∀ x, s.att.role ≠ 0 → s.boot.eff.parent ≠ s.boot.eff.member → s.att.helloTick = some x →
      s.tbs.tick.toNat < x + 250000000 → Does (.rejoin a k) s fun t => t.att.result = 0#4 ∧ t.att.helloTick = some x) ∧
    (s.att.role = 0 ∨ s.boot.eff.parent = s.boot.eff.member → Does (.rejoin a k) s fun t => t.att.result = 2#4 ∧
      t.att.helloTick = s.att.helloTick) ∧
    (s.att.endorsed = true → dma → (keyBlock s 0 1 ++ keyBlock s 2 3 ++ endorsement s).length ≤ s.att.aggCap.toNat →
      Does (.endorse a k true) s fun t => t.att.result = 0#4 ∧ ∃ l, t.out.log = .hostWrite 0 s.att.aggAddr
        (keyBlock s 0 1 ++ keyBlock s 2 3 ++ endorsement s) :: l) ∧
    (∀ d, s.att.endorsed = false → Does (.endorse a k d) s fun t => t.att.result = 6#4 ∧ t.out.log = s.out.log) ∧
    (∀ n u, u = chargeDma 3 false 72 (leaveIdle s) → s.att.endorsed = true → s.ent.st = .running → dma → n32 n →
      0x1004 + (evidenceToken n 16 0x1F#32 none u).1.length ≤ s.att.aggCap.toNat →
      Does (.attEvidence a k n true) s fun t => t.att.result = 0#4 ∧ ∃ l, t.out.log =
        .hostWrite 0 (s.att.aggAddr + 0x1000#64) (leBytes 4 (evidenceToken n 16 0x1F#32 none u).1.length ++
          (evidenceToken n 16 0x1F#32 none u).1) :: l) ∧
    (∀ n d, s.att.endorsed = true → s.ent.st ≠ .running → Does (.attEvidence a k n d) s fun t => t.att.result = 7#4 ∧
      t.out.log = s.out.log)

/-- Joining the federation tree (14 R370 to R372): what each frame, taken from the receive queue, leaves. Readings and
choices of the model: log entry 44. -/
def Obligations.JoinFrames : Prop :=
  ∀ (s : State) (f : Bytes) (rest : List Bytes), s.att.rxq = f :: rest →
    let src := frameSrc f
    let r := reqParts (framePay f)
    (frameType f = 1 → s.att.role = 2 → s.ent.st = .running → ∃ n u, exec .joinHello s = .next (sendPlain 2 src n u) ∧
      n.length = 32 ∧ u.att.rxq = rest ∧ ∃ cs, u.att.challenge = (src, s.tbs.tick.toNat, n) :: cs ∧ ∀ c ∈ cs, c.1 ≠ src) ∧
    (frameType f = 2 → fromParent s f = true → s.kvt.ident = true → s.ent.st = .running → ∃ e tok u,
      exec .joinChal s = .next (sendPlain 3 s.boot.eff.parent
        (Config.pubOf 8 (slotKey (slotAt s 4)) ++ keyBlock s 0 1 ++ keyBlock s 2 3 ++ e ++ tok) u) ∧
      u.att.nonceIn = (framePay f).take 32 ∧ u.att.rxq = rest) ∧
    (frameType f = 3 → s.att.role = 2 → s.ent.st = .running → slotEmpty s 6 = false → joinCheck src r s = 0 →
      Does .joinReq s fun t => t.att.epoch = s.att.epoch + 1 ∧ t.att.rxq = rest ∧ ∃ l ∈ t.att.children,
        l.mem = src ∧ l.epoch = s.att.epoch + 1 ∧ l.txSeq = 1 ∧
          l.lk = linkKey (slotKey (slotAt s 6)) (keysHash r.dev) src (s.att.epoch + 1)) ∧
    (frameType f = 3 → s.att.role = 2 → s.ent.st = .running → slotEmpty s 6 = false → joinCheck src r s ≠ 0 →
      Does .joinReq s fun t => t.att.epoch = s.att.epoch ∧ t.att.children = s.att.children ∧ t.att.rxq = rest) ∧
    (∀ lk k, frameType f = 4 → fromParent s f = true → s.att.nonceIn ≠ [] → slotEmpty s 4 = false →
      k = wrapKey (Config.kemDecaps (slotKey (slotAt s 4)) ((framePay f).take 1568)) s.att.nonceIn →
      lk = gcmStream k zeroIv (slice (framePay f) 1568 32) →
      gcmTag k zeroIv [] (slice (framePay f) 1568 32) = slice (framePay f) 1600 16 →
      frameMac lk (f.take (f.length - 32)) = frameTag f → frameSeq f ≠ 0 → Does .joinKey s fun t =>
        t.att.joined = true ∧ t.att.nonceIn = [] ∧ t.att.accepted = bvSat s.att.accepted 1 ∧ t.att.up = some
          { mem := src, epoch := frameEpoch f, rxSeq := BitVec.ofNat 64 (frameSeq f), lk := lk }) ∧
    (frameType f = 4 → fromParent s f = false → Does .joinKey s fun t => t.att.joined = s.att.joined ∧ t.att.up = s.att.up ∧
      t.att.rejected = bvSat s.att.rejected 1) ∧
    (frameType f = 15 → leAt (framePay f) 0 1 ≠ 1 → Does .nak s fun t => t.att = { s.att with rxq := rest } ∧ t.ldg = s.ldg ∧
      t.kvt = s.kvt) ∧
    (frameType f = 15 → leAt (framePay f) 0 1 = 1 → fromParent s f = true → s.att.helloTick = none → Does .nak s fun t =>
      t.att.helloTick = some s.tbs.tick.toNat ∧ t.att.joined = s.att.joined ∧ t.att.up = s.att.up ∧
        t.att.children = s.att.children)

/-- Aggregation rounds (14 R375, R376). Readings and choices of the model: log entry 44. -/
def Obligations.RoundFrames : Prop :=
  ∀ s : State,
    (∀ f rest len n, s.att.rxq = f :: rest → frameType f = 5 → len = leAt (framePay f) 4 1 → n = slice (framePay f) 8 len →
      (len < 32 ∨ 64 < len → Does .evidReq s fun t => t.att.rejected = bvSat s.att.rejected 1 ∧ t.att.round = s.att.round) ∧
      (32 ≤ len → len ≤ 64 → s.att.role = 2 → s.att.round = none → Does .evidReq s fun t => t.att.round = some
        { no := s.att.roundNo + 1, nonce := n, uplink := true, upNo := BitVec.ofNat 32 (leAt (framePay f) 0 4),
          leaves := s.att.children.map fun l => { mem := l.mem } }) ∧
      (32 ≤ len → len ≤ 64 → s.att.role ≠ 2 → s.kvt.ident = true → s.ent.st = .running → ∃ tok u,
        exec .evidReq s = .next (sendUp 6 ((framePay f).take 4 ++ leBytes 4 0 ++ keyBlock s 2 3 ++ tok) u) ∧
          u.att.up = s.att.up ∧ u.att.rxq = rest)) ∧
    (∀ f rest r l, s.att.rxq = f :: rest → frameType f = 6 → s.att.round = some r →
      (s.att.children.find? fun l => l.mem == frameSrc f) = some l → r.no.toNat = leAt (framePay f) 0 4 →
      (∃ x ∈ r.leaves, x.mem = frameSrc f ∧ x.status = 3) → Does .evid s fun t =>
        ∃ y, t.att.round = some { r with leaves := r.leaves.map fun x => if x.mem == frameSrc f then y else x } ∧
          y = judgeEvid r l (slice (framePay f) 8 2056) (evidToken (framePay f)) s) ∧
    (∀ f rest r, s.att.rxq = f :: rest → frameType f = 6 → s.att.round = some r → r.no.toNat ≠ leAt (framePay f) 0 4 →
      Does .evid s fun t => t.att.round = some r) ∧
    (∀ r, s.att.round = some r → s.att.rounds = [] → Does .roundDeadline s fun t => t.att.round = none ∧ t.att.busy = false) ∧
    (∀ r x more, s.att.round = some r → s.att.rounds = x :: more → Does .roundDeadline s fun t => t.att.rounds = more ∧
      ∃ y, t.att.round = some y ∧ y.no = s.att.roundNo + 1 ∧ y.nonce = x.nonce ∧ y.uplink = x.uplink)

/-- Recovery from a peer (14 R379): the frames that ask for an object and carry it. Readings and choices of the model: log
entries 27 and 44. -/
def Obligations.PeerRecoveryFrames : Prop :=
  ∀ (s : State) (f : Bytes) (rest : List Bytes), s.att.rxq = f :: rest →
    let p := framePay f
    let len (o : Fin 64) : Nat := ((s.ldg.objs[o].cfg.map (·.len)).getD 0#32).toNat
    (∀ data fault, frameType f = 7 → s.att.role ≠ 0 → ∃ u n, exec (.rcvReq data fault) s = .next (servePump n u) ∧
      u.att.serve = s.att.serve ++ (if serveStatus p fault s = 0 then serveFrames (frameSrc f) data
        else [(frameSrc f, 9, [BitVec.ofNat 8 (serveStatus p fault s)])]) ∧ u.att.rxq = rest) ∧
    (∀ o e, frameType f = 8 → s.ldg.rcvObj = some o → s.ldg.rcvSrc = 4 → s.ldg.rcvStage = 0 → leAt p 0 4 = len o - 8192 →
      leAt p 4 4 = 8192 → (checkPkg o ((slice p 8 8192).take 5592) s).1 = 0 → s.ldg.objs[o].cfg = some e →
      flashFound s e.ch false = true → latestSt s o.val false ≠ 2 → latestSt s o.val false ≠ 3 → ledCan s = true →
      s.ldg.seq.toNat + 2 ≤ 0xFFFFFFF0 → Does .rcvData s fun t => t.ldg.rcvStage = 5 ∧ t.ldg.rcvOrigin = 5 ∧
        t.att.rcvNext = some 0 ∧ t.ldg.rcvTail = slice p 8 8192) ∧
    (∀ o next, frameType f = 8 → s.ldg.rcvObj = some o → s.ldg.rcvSrc = 4 → s.ldg.rcvStage = 5 → s.att.rcvNext = some next →
      leAt p 0 4 = next → leAt p 4 4 = min 8192 (len o - 8192 - next) → leAt p 4 4 ≠ 0 → s.ldg.objs[o].cfg.isSome →
      Does .rcvData s fun t => t.att.rcvNext = some (next + leAt p 4 4) ∧ t.ldg = s.ldg ∧ ∃ c at_,
        t.out.log = .flashCmd c false 0x12#8 at_ (slice p 8 (leAt p 4 4)) :: s.out.log) ∧
    (∀ o next, frameType f = 8 → s.ldg.rcvObj = some o → s.ldg.rcvSrc = 4 → s.ldg.rcvStage = 5 → s.att.rcvNext = some next →
      leAt p 0 4 ≠ next → ∃ u, exec .rcvData s = .next (nextAttempt u) ∧ u.ldg.rcvSrc = 0 ∧ u.ldg.rcvStage = 0) ∧
    (∀ o, frameType f = 9 → s.ldg.rcvObj = some o → s.ldg.rcvSrc = 4 → s.ldg.rcvStage = 5 →
      s.att.rcvNext = some (len o - 8192) → leAt p 0 1 = 0 → Does .rcvEnd s fun t => t.ldg.rcvStage = 1 ∧
        t.ldg.rcvOrigin = s.ldg.rcvOrigin ∧ t.att.rcvNext = none) ∧
    (∀ o, frameType f = 9 → s.ldg.rcvObj = some o → s.ldg.rcvSrc = 4 → s.ldg.rcvStage = 5 → leAt p 0 1 ≠ 0 →
      ∃ u, exec .rcvEnd s = .next (nextAttempt u) ∧ u.ldg.rcvSrc = 0 ∧ u.ldg.rcvStage = 0)

/-- The inbox, the peer route and the transmit ring (14 R369, R372 to R374). Readings and choices of the model: log
entries 44, 46 and 60. -/
def Obligations.FrameCarriage : Prop :=
  ∀ s : State,
    (∀ a i, Reach a 0xF00030 s → s.att.role ≠ 0 → freeInbox s = some i → Does (.inboxClaim a) s fun t =>
      t.att.inbox[i] = true ∧ ∃ l, t.out.log = .readReply [BitVec.ofNat 8 i.val, 0#8, 0#8, 0#8] :: l) ∧
    (∀ a, Reach a 0xF00030 s → s.att.role = 0 ∨ freeInbox s = none → Does (.inboxClaim a) s fun t =>
      t.att.inbox = s.att.inbox ∧ ∃ l, t.out.log = .readReply [0xF#8, 0#8, 0#8, 0#8] :: l) ∧
    (∀ a (i : Fin 4) (n : BitVec 15) f, Reach a (0xF00040 + 4 * i.val) s → s.att.inbox[i] = true → f = inboxBytes s i n.toNat →
      (s.att.role = 0 ∨ frameOk s f = false → Does (.inboxDoorbell a i n) s fun t => t.att.inbox[i] = false ∧
        t.att.rejected = bvSat s.att.rejected 1 ∧ t.att.rxq = s.att.rxq) ∧
      (s.att.role ≠ 0 → frameOk s f = true → linkType (frameType f) = false → frameType f ≠ 4 →
        Does (.inboxDoorbell a i n) s fun t => t.att.inbox[i] = false ∧ t.att.rxq = s.att.rxq ++ [f] ∧
          t.att.accepted = bvSat s.att.accepted 1) ∧
      (s.att.role ≠ 0 → frameOk s f = true → frameType f = 4 →
        Does (.inboxDoorbell a i n) s fun t => t.att.inbox[i] = false ∧ t.att.rxq = s.att.rxq ++ [f]) ∧
      (∀ l, s.att.role ≠ 0 → frameOk s f = true → linkType (frameType f) = true → frameLink s f = some l →
        frameMac l.lk (f.take (f.length - 32)) = frameTag f → l.rxSeq.toNat < frameSeq f →
        Does (.inboxDoorbell a i n) s fun t => t.att.inbox[i] = false ∧ t.att.rxq = s.att.rxq ++ [f] ∧
          t.att.accepted = bvSat s.att.accepted 1) ∧
      (s.att.role ≠ 0 → frameOk s f = true → linkType (frameType f) = true → frameLink s f = none →
        Does (.inboxDoorbell a i n) s fun t => t.att.inbox[i] = false ∧ t.att.rxq = s.att.rxq ∧
          t.att.rejected = bvSat s.att.rejected 1) ∧
      (∀ l, s.att.role ≠ 0 → frameOk s f = true → linkType (frameType f) = true → frameLink s f = some l →
        frameMac l.lk (f.take (f.length - 32)) ≠ frameTag f ∨ frameSeq f ≤ l.rxSeq.toNat →
        Does (.inboxDoorbell a i n) s fun t => t.att.inbox[i] = false ∧ t.att.rxq = s.att.rxq ∧
          t.att.rejected = bvSat s.att.rejected 1)) ∧
    (∀ i : Fin 4, s.att.inbox[i] = true → Does (.inboxClaimExpiry i) s fun t => t.att.inbox[i] = false ∧
      t.att.rxq = s.att.rxq) ∧
    (∀ d f rest, s.att.peerWait = (d, f) :: rest → s.att.serve = [] → s.att.waiting = [] → s.att.txEn = true →
      txFull s = false → Does .peerTxTimeout s fun t => t.att.peerWait = rest ∧
        t.att.txTail = (s.att.txTail + 1) % 2 ^ s.att.txK ∧ ∃ l, t.out.log = .linkFrame d f :: l) ∧
    (∀ d f rest, s.att.peerWait = (d, f) :: rest → s.att.serve = [] → s.att.txEn = false → s.att.waiting.length < 16 →
      Does .peerTxTimeout s fun t => t.att.peerWait = rest ∧ t.att.waiting = s.att.waiting ++ [(d, f)]) ∧
    (∀ d f rest, s.att.peerWait = (d, f) :: rest → s.att.serve = [] → s.att.txEn = false → 16 ≤ s.att.waiting.length →
      Does .peerTxTimeout s fun t => t.att.peerWait = rest ∧ t.att.waiting = s.att.waiting) ∧
    (∀ d f rest (i : BitVec 4), s.att.peerWait = (d, f) :: rest → s.att.serve = [] → s.att.waiting = [] → i.toNat < 4 →
      Does (.peerInboxClaimed i) s fun t => t.att.peerWait = rest ∧ t.out.log = .linkFrame d f :: s.out.log) ∧
    (∀ i : BitVec 4, 4 ≤ i.toNat → exec (.peerInboxClaimed i) s = .next s) ∧
    (∀ a (v : BitVec 32), Reach a 0xF00024 s → s.att.txEn = true → v.toNat % 256 < 2 ^ s.att.txK →
      (s.att.txTail + 2 ^ s.att.txK - v.toNat % 256) % 2 ^ s.att.txK ≤
        (s.att.txTail + 2 ^ s.att.txK - s.att.txHead) % 2 ^ s.att.txK →
      Does (.attTxHeadWrite a v) s fun t => t.att.txHead = v.toNat % 256) ∧
    (∀ a (v : BitVec 32), Reach a 0xF00024 s → s.att.txEn = false → Does (.attTxHeadWrite a v) s fun t => t.att = s.att)

/-- The tamper monitors (15 R382 to R389, R393, R402): alarms and their responses, the end of a condition, acknowledgement
and self-test. Readings and choices of the model: log entries 16 and 48. -/
def Obligations.TamperCommands : Prop :=
  ∀ (s : State) (src : Fin 17),
    let set := mainSet s src
    let cell := s.aon.onCellResp[src]
    let k : BitVec 16 := 0x7E3D#16
    let n : BitVec 5 := BitVec.ofNat 5 src.val
    let on : Prop := s.tmp.active.getLsbD src.val = true
    let low : Prop := s.aon.batteryOnly = false ∧ (s.pwr.rung = .rest ∨ s.pwr.rung = .retain)
    let freed (u : State) : Prop := u.aon.latched.getLsbD src.val = false ∧ u.aon.domMask[src] = 0#32 ∧
      ∀ d : Fin 32, s.aon.domMask[src].getLsbD d.val = true →
        (∀ i : Fin 17, i ≠ src → s.aon.latched.getLsbD i.val = true → s.aon.domMask[i].getLsbD d.val = false) →
        u.prs.dom[d].hold.getLsbD 1 = false ∧ u.aon.pendHold.getLsbD d.val = false
    (∀ det cause, s.aon.batteryOnly = false → Alarms s src det → hasR set rReset = false →
      ∃ u, exec (.tamperAlarm src det cause) s = .next (endIdle (settle u)) ∧ u.aon.latched.getLsbD src.val = true ∧
        (src.val ≤ 14 → u.tmp.active.getLsbD src.val = true) ∧
        (src.val < 6 → u.tmp.tripA.getLsbD src.val = det.getLsbD 0 ∧ u.tmp.tripB.getLsbD src.val = det.getLsbD 1) ∧
        (hasR set rLog = true → u.tmp.alarms = bvSat s.tmp.alarms 1 ∧ u.tmp.last = some src) ∧
        (hasR set rErase = true → u.kvt.slots = [] ∧ u.tmp.erases = bvSat s.tmp.erases 1) ∧
        (hasR set rHold = true → s.ldg.rcvBusy = false → ∀ d : Fin 32, (mainHold s src).getLsbD d.val = true →
          HeldBy s u d 1 ∧ u.aon.pendHold.getLsbD d.val = true)) ∧
    (∀ det cause, s.aon.batteryOnly = false → Alarms s src det → hasR set rReset = true → s.pwr.supplyValid = true →
      s.rst.ph = .none → s.fus.prog = none →
      ∃ u, exec (.tamperAlarm src det cause) s = .next (endIdle (settle u)) ∧ u.rst.ph = .coldHeld ∧ u.rst.cold = 32#6 ∧
        u.glb.ready = false ∧ u.aon.latched.getLsbD src.val = true ∧ u.kvt.slots = []) ∧
    (∀ det cause, s.aon.batteryOnly = true → Alarms s src det →
      ∃ u, exec (.tamperAlarm src det cause) s = .next (endIdle u) ∧ u.aon.latched.getLsbD src.val = true ∧
        (hasR cell rErase = true → u.aon.kek = 0#256 ∧ u.aon.kekValid = false) ∧
        (hasR cell rHold = true → u.aon.pendHold = s.aon.pendHold ||| s.aon.onCellHold[src])) ∧
    (∀ det cause, watched s src.val = false → exec (.tamperAlarm src det cause) s = .next (endIdle s)) ∧
    (on → Does (.tamperConditionEnd src) s fun t => t.tmp.active.getLsbD src.val = false ∧
      assocGet t.tmp.ended src.val = some s.aon.calSecs.toNat ∧ t.aon.latched = s.aon.latched ∧
      (src = 14 → t.pwr.batPresent = true)) ∧
    (¬ on → exec (.tamperConditionEnd src) s = .next s) ∧
    (∀ a b, low → (∀ i ∈ sampled, s.tmp.active.getLsbD i.val = true) → Does (.tamperSample a b) s fun t =>
      (∀ i ∈ sampled, t.tmp.tripA.getLsbD i.val = a.getLsbD i.val ∧ t.tmp.tripB.getLsbD i.val = b.getLsbD i.val) ∧
        t.aon.latched = s.aon.latched) ∧
    (∀ a b, low → (∀ i : Fin 6, i ≠ 0 → a.getLsbD i.val = false ∧ b.getLsbD i.val = false) → ¬ s.tmp.active.getLsbD 0 = true →
      tripsAlarm s 0 ((if a.getLsbD 0 then 1 else 0) + (if b.getLsbD 0 then 2 else 0)) = true → hasR (mainSet s 0) rReset = false →
      ∃ u, exec (.tamperSample a b) s = .next (endIdle (setTrips 5 0 (setTrips 3 0 (setTrips 1 0 (settle u))))) ∧
        u.aon.latched.getLsbD 0 = true ∧ u.tmp.active.getLsbD 0 = true) ∧
    (∀ a, Reach a 0x2000008 s → ¬ on → s.aon.latched.getLsbD src.val = true →
      Settles (.tmpAck a k n) s fun u => u.tmp.result = 0#4 ∧ freed u) ∧
    (∀ a, Reach a 0x2000008 s → on → Does (.tmpAck a k n) s fun t => t.tmp.result = 3#4 ∧ t.aon.latched = s.aon.latched) ∧
    (∀ a (m : BitVec 5), Reach a 0x2000008 s → 17 ≤ m.toNat → Does (.tmpAck a k m) s fun t => t.tmp.result = 2#4 ∧
      t.aon.latched = s.aon.latched) ∧
    (∀ a key m, Reach a 0x2000008 s → key ≠ k → Does (.tmpAck a key m) s fun t => t.tmp.result = 1#4 ∧
      t.aon.latched = s.aon.latched) ∧
    (s.tmp.holdAuto ≠ 0 → s.aon.latched.getLsbD src.val = true → ¬ on → s.aon.batteryOnly = false →
      Settles (.holdAutoRelease src) s freed) ∧
    (∀ a (h : src.val < 6), Reach a 0x200000C s → s.tmp.selftest = none → s.pwr.rung = .run →
      Does (.selftest a k n) s fun t => t.tmp.selftest = some ⟨src.val, h⟩ ∧ t.tmp.result = 0#4) ∧
    (∀ a, Reach a 0x200000C s → src.val < 6 → s.tmp.selftest.isSome → Does (.selftest a k n) s fun t => t.tmp.result = 4#4 ∧
      t.tmp.selftest = s.tmp.selftest) ∧
    (∀ a, Reach a 0x200000C s → 6 ≤ src.val → Does (.selftest a k n) s fun t => t.tmp.result = 2#4 ∧
      t.tmp.selftest = s.tmp.selftest) ∧
    (∀ x : Fin 6, s.tmp.selftest = some x →
      Does (.selftestDone true true) s (fun t => t.tmp.selftest = none ∧ t.tmp.result = 0#4 ∧ t.tmp.failA = s.tmp.failA ∧
        t.tmp.failB = s.tmp.failB) ∧
      (s.tmp.failB.getLsbD x.val = false → Does (.selftestDone false true) s fun t => t.tmp.selftest = none ∧
        t.tmp.result = 5#4 ∧ t.tmp.failA.getLsbD x.val = true ∧ t.tmp.failB = s.tmp.failB) ∧
      (s.tmp.failA.getLsbD x.val = false → Does (.selftestDone true false) s fun t => t.tmp.selftest = none ∧
        t.tmp.result = 5#4 ∧ t.tmp.failB.getLsbD x.val = true ∧ t.tmp.failA = s.tmp.failA))

/-- The timebase and its reference (15 R395, R396): what a loss and a return of either leaves. Readings and choices of the
model: log entry 48. -/
def Obligations.TimebaseCommands : Prop :=
  ∀ s : State, s.aon.batteryOnly = false → s.pwr.supplyValid = true →
    let quiet : Prop := watched s 4 = false ∨ s.tmp.active.getLsbD 4 = true ∨
      tripsAlarm s 4 (1 + if s.tmp.tripB.getLsbD 4 then 2 else 0) = false
    (s.pwr.rung ≠ .retain → s.tbs.onRc = false → quiet → WarmNow s → Does .timebaseLoss s fun t => t.tbs.onRc = true ∧
      t.tbs.xtal = false ∧ t.tbs.losses = bvSat s.tbs.losses 1 ∧ t.tbs.tick = s.tbs.tick ∧ WarmTaken t 2) ∧
    (s.pwr.rung ≠ .retain → s.tbs.onRc = false → ¬ quiet → hasR (mainSet s 4) rReset = false →
      ∃ u, exec .timebaseLoss s = .next (trigWarm 2 (endIdle (settle u))) ∧ u.tbs.onRc = true ∧
        u.aon.latched.getLsbD 4 = true ∧ u.tmp.tripA.getLsbD 4 = true) ∧
    (s.pwr.rung ≠ .retain → s.tbs.onRc = true → s.tbs.losses ≠ 0 → Does .timebaseRestore s fun t => t.tbs.onRc = false ∧
      t.tbs.xtal = true ∧ t.tbs.tick = s.tbs.tick ∧ t.rst = s.rst) ∧
    (s.tbs.ref32 = true → s.tmp.failA.getLsbD 4 = false → Does .ref32Loss s fun t => t.tbs.ref32 = false ∧
      t.tmp.failB.getLsbD 4 = true ∧ t.tmp.failA = s.tmp.failA) ∧
    (s.tbs.ref32 = false → Does .ref32Restore s fun t => t.tbs.ref32 = true ∧ t.tmp.failB.getLsbD 4 = s.tmp.selfFailB4)

/-- The device watchdog and the platform watchdogs (15 R397 to R401). Readings and choices of the model: log entry 49. -/
def Obligations.WatchdogCommands : Prop :=
  ∀ s : State,
    let w := s.wdg
    let runs : Prop := w.running = true ∧ w.paused = false
    let fresh (t : State) : Prop := t.wdg.checked = 0#16 ∧ t.wdg.dup = 0#16 ∧ t.wdg.startTick = s.tbs.tick.toNat ∧
      t.wdg.isOpen = decide (w.n = 0)
    let expired (t : State) : Prop := t.wdg.expiries = bvSat w.expiries 1 ∧ WarmTaken t 0
    let missing (armed checked : BitVec 16) : BitVec 16 :=
      ((w.tasks &&& 0x00FF#16) ||| (w.tasks &&& armed &&& 0xFF00#16)) &&& ~~~checked
    (∀ a, Reach a 0x2100004 s → w.running = false → Does (.wdgDevStart a 0xD06A#16) s fun t => t.wdg.running = true ∧ fresh t) ∧
    (∀ a key, Reach a 0x2100004 s → key ≠ 0xD06A#16 ∨ w.running = true → Does (.wdgDevStart a key) s fun t => t.wdg = w) ∧
    (∀ a (n : BitVec 4), Reach a 0x2100008 s → (a = .pf0 → 8 ≤ n.toNat) → w.tasks.getLsbD n.toNat = true →
      let armed := if 8 ≤ n.toNat ∧ s.glb.ready = true then bvPut w.armed n.toNat true else w.armed
      let c : Instr := .wdgCheckin a 0x5C4B#16 n
      (runs → w.isOpen = true → w.checked.getLsbD n.toNat = false → missing armed (bvPut w.checked n.toNat true) ≠ 0 →
        Does c s fun t => t.wdg.checked = bvPut w.checked n.toNat true ∧ t.wdg.armed = armed ∧ t.wdg.startTick = w.startTick) ∧
      (runs → w.isOpen = true → w.checked.getLsbD n.toNat = false → missing armed (bvPut w.checked n.toNat true) = 0 →
        Does c s fun t => fresh t ∧ t.wdg.armed = armed) ∧
      (runs → w.isOpen = true → w.checked.getLsbD n.toNat = true → w.strict.getLsbD n.toNat = false →
        Does c s fun t => t.wdg.dup = bvPut w.dup n.toNat true ∧ t.wdg.expiries = w.expiries ∧ t.rst = s.rst) ∧
      (runs → w.isOpen = true → w.checked.getLsbD n.toNat = true → w.strict.getLsbD n.toNat = true → WarmNow s →
        Does c s expired) ∧
      (runs → w.isOpen = false → WarmNow s → Does c s expired) ∧
      (¬ runs → Does c s fun t => t.wdg.checked = w.checked ∧ t.wdg.armed = armed ∧ t.rst = s.rst)) ∧
    (∀ a key (n : BitVec 4), Reach a 0x2100008 s →
      key ≠ 0x5C4B#16 ∨ (a = .pf0 ∧ n.toNat < 8) ∨ w.tasks.getLsbD n.toNat = false →
      Does (.wdgCheckin a key n) s fun t => t.wdg = w ∧ t.rst = s.rst) ∧
    (runs → Does .wdgWindowOpen s fun t => t = s.modWdg fun w => { w with isOpen := true }) ∧
    (runs → s.glb.ready = true → missing w.armed w.checked ≠ 0 → WarmNow s → Does .wdgPeriodEnd s expired) ∧
    (runs → s.glb.ready = false ∨ missing w.armed w.checked = 0 → Does .wdgPeriodEnd s fun t => fresh t ∧ t.rst = s.rst) ∧
    (¬ runs → exec .wdgPeriodEnd s = .next s ∧ exec .wdgWindowOpen s = .next s) ∧
    (∀ (d : Fin 32) (v : BitVec 16),
      let p := w.plat[d]
      let due : Prop := Reach .pf0 (0x2100200 + 4 * d.val) s ∧ p.armed = true
      (due → v = p.token → Does (.platKick .pf0 d v) s fun t => t.wdg.plat[d].token = nextToken v ∧
        t.wdg.plat[d].periodNow = p.period ∧ t.wdg.plat[d].startTick = s.tbs.tick.toNat ∧
        t.wdg.plat[d].armed = decide (p.period ≠ 0) ∧ t.prs = s.prs) ∧
      (due → v ≠ p.token → Settles (.platKick .pf0 d v) s fun u => u.wdg.plat[d].expiries = bvSat p.expiries 1 ∧
        HeldBy s u d 2) ∧
      (Reach .pf0 (0x2100200 + 4 * d.val) s → p.armed = false → Does (.platKick .pf0 d v) s fun t => t.wdg = w ∧ t.prs = s.prs) ∧
      (∀ a, a ≠ .pf0 → exec (.platKick a d v) s = .next s) ∧
      (p.armed = true → p.paused = false → Settles (.platWdgExpiry d) s fun u =>
        u.wdg.plat[d].expiries = bvSat p.expiries 1 ∧ HeldBy s u d 2) ∧
      (p.armed = false ∨ p.paused = true → exec (.platWdgExpiry d) s = .next s))

/-- The Chain Port as master (16 R407, R408, R410, R415, R416, R420, R422): host frames, selects, GPIO and the read
window. Readings and choices of the model: log entry 50. -/
def Obligations.ChainCommands : Prop :=
  ∀ s : State,
    let c := s.chp
    let k : BitVec 16 := 0x2C9E#16
    let start (a : Agent) : Prop := Reach a 0x2200004 s ∧ c.mode ≠ .slaveSession ∧ c.cmdBusy = false
    let sum := c.outN.toNat + c.turn.toNat
    let fits : Prop := c.sel ≠ 0#16 ∧ sum ≤ c.len.toNat ∧ (sum = c.len.toNat ∨ popCount c.sel ≤ 1)
    let refused (i : Instr) (n : Nat) : Prop := Does i s fun t => t.chp = { c with result := BitVec.ofNat 4 n } ∧ t.out.log = s.out.log
    let ff (n : Nat) : Bytes := List.replicate n 0xFF#8
    (∀ a, start a → fits → portHeld s = false → Does (.chpStart a k) s fun t => t.chp = { c with
        cmdBusy := true, result := 0#4, rxValid := false, mode := .masterFrame, runLen := c.len, runOut := c.outN,
        runTurn := c.turn } ∧
      t.out.log = .chpOut c.sel (bufBytes c.tx 0 (bytesOf c.outN.toNat)) :: s.out.log) ∧
    (∀ a, start a → fits → portHeld s = true → Does (.chpStart a k) s fun t =>
      t.chp = { c with cmdBusy := true, result := 0#4, rxValid := false } ∧ t.out.log = s.out.log) ∧
    (∀ a key, Reach a 0x2200004 s → key ≠ k → refused (.chpStart a key) 1) ∧
    (∀ a, start a → c.sel = 0#16 → refused (.chpStart a k) 2) ∧
    (∀ a, start a → c.sel ≠ 0#16 → c.len.toNat < sum → refused (.chpStart a k) 3) ∧
    (∀ a, Reach a 0x2200004 s → c.mode = .slaveSession → refused (.chpStart a k) 4) ∧
    (∀ a, start a → c.sel ≠ 0#16 → sum < c.len.toNat → 1 < popCount c.sel → refused (.chpStart a k) 6) ∧
    (∀ edges b, c.mode = .masterFrame → edges = c.runLen.toNat → cellWf 0#8 c.rx = true →
      let x := rxBits (c.runLen.toNat - c.runOut.toNat - c.runTurn.toNat) b
      ∃ u, exec (.chpFrameEnd edges b) s = .next (portFree u) ∧ u.chp.mode = .masterIdle ∧ u.chp.cmdBusy = false ∧
        u.chp.result = 0#4 ∧ u.chp.rxValid = true ∧ bufBytes u.chp.rx 0 x.length = x) ∧
    (∀ edges b, c.mode = .masterFrame → edges ≠ c.runLen.toNat →
      ∃ u, exec (.chpFrameEnd edges b) s = .next (portFree u) ∧ u.chp.mode = .masterIdle ∧ u.chp.cmdBusy = false ∧
        u.chp.result = 5#4 ∧ u.chp.errors = bvSat c.errors 1 ∧ u.chp.rx = c.rx) ∧
    (∀ edges b, c.mode ≠ .masterFrame → exec (.chpFrameEnd edges b) s = .next s) ∧
    (∀ a v, Reach a 0x220001C s → c.mode ≠ .masterFrame → Does (.chpSelWrite a v) s fun t =>
      t.chp = { c with sel := v &&& selPins s } ∧ ∀ n : Fin 16, c.gpioUse[n] = 3#8 → c.mode = .masterIdle → s.ldg.agentBoot = false →
        t.pins.gpio[n] = if v.getLsbD n.val then .low else .high) ∧
    (∀ a v, Reach a 0x220001C s → c.mode = .masterFrame → Does (.chpSelWrite a v) s fun t =>
      t.chp = { c with selPend := some v } ∧ t.pins.gpio = s.pins.gpio) ∧
    (∀ a v, Reach a 0x2200020 s → s.ldg.agentBoot = false → Does (.chpGpioWrite a v) s fun t =>
      t.chp = { c with gpioOut := v } ∧ ∀ n : Fin 16, c.gpioUse[n] = 1#8 ∨ c.gpioUse[n] = 2#8 → c.mode ≠ .slaveSession →
        t.pins.gpio[n] = if v.getLsbD n.val then .high else .low) ∧
    (∀ a v, Reach a 0x2200020 s → s.ldg.agentBoot = true → s.boot.eff.agentStrap.getLsbD 7 = true →
      let n := s.boot.eff.agentStrap.toNat % 16
      Does (.chpGpioWrite a v) s fun t => t.chp.gpioOut.getLsbD n = c.gpioOut.getLsbD n ∧
        ∀ m < 16, m ≠ n → t.chp.gpioOut.getLsbD m = v.getLsbD m) ∧
    (∀ (off : BitVec 24) n edges data, Reach .pf0 (0x3000000 + off.toNat) s →
      let out : OutEv := .chpOut (BitVec.ofNat 16 (2 ^ c.winSel.val)) (c.winOpcode :: beBytes c.winAddr off.toNat)
      let free : Prop := off.toNat < 256 ^ c.winAddr ∧ c.mode ≠ .slaveSession
      let read : Instr := .windowRead .pf0 off n edges data
      (free → portHeld s = false → edges = winClocks s n → data.length = n → Does read s fun t =>
        t.chp = c ∧ t.out.log = .readReply data :: out :: s.out.log) ∧
      (free → portHeld s = false → edges ≠ winClocks s n → Does read s fun t =>
        t.chp = { c with errors := bvSat c.errors 1 } ∧ t.out.log = .readReply (ff n) :: out :: s.out.log) ∧
      (free → portHeld s = true → Does read s fun t =>
        t.chp = { c with winPend := c.winPend ++ [(off.toNat, n, edges, data)] } ∧ t.out.log = s.out.log) ∧
      (¬ free → Does read s fun t => t.chp = c ∧ t.out.log = .readReply (ff n) :: s.out.log) ∧
      exec (.windowWrite .pf0 off) s = .next (ev 0xF021#16 off.toNat 0 0 (leaveIdle s)) ∧
      (∀ l, takeWin off.toNat n c.winPend = some l → Does (.windowReadTimeout off n) s fun t =>
        t.chp = { c with winPend := l } ∧ t.out.log = .readReply (ff n) :: s.out.log))

/-- The Chain Port as a recovery tool's slave (16 R418 to R420): the frames of a session, and what is discarded. Readings
and choices of the model: log entry 50. -/
def Obligations.SessionFrames : Prop :=
  ∀ (s : State) (f : Bytes),
    let c := s.chp
    let off := leAt f 4 4
    let b := slice f 8 1024
    let good (op : Nat) : Prop := f.length = 1040 ∧ leAt f 0 1 = op ∧ c.slvSel.isSome ∧ slvCrcOk f = true
    let drops (i : Instr) (n : Nat) : Prop := Does i s fun t => t.chp = { c with slvCause := BitVec.ofNat 8 n } ∧ t.ldg = s.ldg
    (∀ o, good 0x10 → c.slvObj = some o → c.slvFree ≠ 0 → off = c.slvNext →
      (c.slvState = 1#3 → c.slvHeld.length + 1024 < 8192 → Does (.slvData f) s fun t => t.chp = { c with
        slvFrames := bvSat c.slvFrames 1, slvHeld := c.slvHeld ++ b, slvTail := c.slvHeld.length + 1024,
        slvNext := c.slvNext + 1024 } ∧ t.ldg = s.ldg) ∧
      (c.slvState = 1#3 → 8192 ≤ c.slvHeld.length + 1024 → ∃ u, exec (.slvData f) s = .next (tailArrived o 4 (c.slvHeld ++ b) u) ∧
        u.chp.slvState = 3#3 ∧ u.chp.slvNext = 0 ∧ u.chp.slvFrames = bvSat c.slvFrames 1 ∧ u.ldg = s.ldg) ∧
      (∀ e, c.slvState = 3#3 → s.ldg.objs[o].cfg = some e → c.slvNext + 8192 < e.len.toNat →
        Does (.slvData f) s fun t => t.chp.slvNext = c.slvNext + 1024 ∧ t.chp.slvFrames = bvSat c.slvFrames 1 ∧
          t.out.log = .flashCmd e.ch false 0x12#8 (e.base + BitVec.ofNat 32 off) b :: s.out.log)) ∧
    (∀ i op, (i, op) ∈ [(Instr.slvData f, 0x10), (.slvEnd f, 0x11)] → f.length = 1040 → leAt f 0 1 = op →
      (c.slvSel.isSome → slvCrcOk f = false → drops i 1) ∧ (c.slvSel.isSome → slvCrcOk f = true → c.slvObj = none → drops i 4) ∧
      (c.slvSel = none → exec i s = .next s)) ∧
    (∀ o, good 0x10 → c.slvObj = some o → c.slvFree = 0 ∨ (c.slvState ≠ 1#3 ∧ c.slvState ≠ 3#3) → drops (.slvData f) 3) ∧
    (∀ o, good 0x10 → c.slvObj = some o → c.slvFree ≠ 0 → c.slvState = 1#3 → off ≠ c.slvNext → drops (.slvData f) 2) ∧
    (∀ o e, good 0x11 → c.slvObj = some o → s.ldg.objs[o].cfg = some e → c.slvState = 3#3 → c.slvNext = e.len.toNat - 8192 →
      ∃ u, exec (.slvEnd f) s = .next (bodyArrived o u) ∧ u.chp.slvState = 4#3 ∧ u.chp.slvFrames = bvSat c.slvFrames 1 ∧
        u.ldg = s.ldg) ∧
    (∀ o, good 0x11 → c.slvObj = some o → c.slvState = 1#3 → ∃ u, exec (.slvEnd f) s = .next (failNow 2 u) ∧
      u.chp.slvFrames = bvSat c.slvFrames 1 ∧ u.ldg = s.ldg) ∧
    (c.slvSel.isSome → Does .slvStatus s fun t => t.out.log = .slaveReply (slvReply s) :: s.out.log ∧
      t.chp = { c with slvFrames := bvSat c.slvFrames 1 }) ∧
    (∀ edges, c.slvSel.isSome → edges ≠ 8320 → Does (.slaveFramingFault edges) s fun t =>
      t.chp = { c with errors := bvSat c.errors 1 } ∧ t.ldg = s.ldg) ∧
    (c.slvSel = none → ∀ edges, exec .slvStatus s = .next s ∧ exec (.slaveFramingFault edges) s = .next s)

/-- The event recorder (17 R426 to R438): what each command leaves in the ring, the calendar and the window. Readings and
choices of the model: log entry 51. -/
def Obligations.RecorderCommands : Prop :=
  ∀ s : State,
    (∀ code p0 p1 p2, code ≠ 0x7020#16 → code ≠ 0x7021#16 → code ≠ 0x7041#16 →
      exec (.eventRaised code p0 p1 p2) s = .next (raise code p0 p1 p2 s)) ∧
    (∀ (c : Fin 64) (p : Fin 128), c ≠ 0 → p ∉ s.pln.clusters[c].retired →
      Does (.eventRaised 0x7021#16 (p32 c.val) (p32 p.val) 0#32) s fun t =>
        t.pln.clusters[c].retired = p :: s.pln.clusters[c].retired) ∧
    (∀ r rs, s.evr.spillOn = true → s.evr.spillFault = false → recFlash s = true →
      ((unspilled s).filter fun r => r.frame ≠ evFrame s) = r :: rs →
      exec (.spillFlush 0) s = .next (spillBatch (r :: rs) s)) ∧
    (∀ a, Reach a 0x2300014 s → s.evr.frozen = false →
      Does (.freeze a 0x8B52#16) s fun t => t.evr.frozen = true ∧ t.evr.freezeTick = s.tbs.tick.toNat ∧
        t.evr.freezeMissed = 0 ∧ t.evr.cmdResult = 0#4) ∧
    (∀ a, Reach a 0x2300014 s → s.evr.frozen = true →
      Does (.thaw a 0x8B52#16) s fun t => t.evr.frozen = false ∧ t.evr.cmdResult = 0#4) ∧
    (s.evr.frozen = true → Does .freezeTimeLimit s fun t => t.evr.frozen = false) ∧
    (∀ a, Reach a 0x2300014 s →
      Does (.setCal a 0x8B52#16) s fun t => t.aon.calSecs = BitVec.ofNat 40 s.evr.calSet.toNat ∧
        t.aon.calValid = true ∧ t.evr.cmdResult = 0#4) ∧
    (∀ a v, Reach a 0x230001C s →
      Does (.evrCursorWrite a v) s fun t => t.evr.cursor = v.setWidth 24 ∧ t.evr.cursorAuto = v.getLsbD 25 ∧
        (v.getLsbD 24 = false → t.evr.winReady = true ∧
          t.evr.win = t.evr.ring.find? fun r => r.seq = v.setWidth 24)) ∧
    (∀ a, Reach a 0x230005C s →
      Does (.evrWinAutoRead a) s fun t => (∃ l, t.out.log = .readReply (winLast s) :: l) ∧
        t.evr.cursor = if s.evr.cursorAuto then s.evr.cursor + 1 else s.evr.cursor) ∧
    (s.evr.winReady = false →
      Does .spillSnapshotLoaded s fun t => t.evr.winReady = true ∧ t.evr.win = spillSnapshot s)

/-- Where an event goes (17 R426, R428 to R430): numbered into the ring while the recorder runs and is not frozen, without
a number into the staging queue and the battery buffer, where the event does not fold into a record there. The performance
counters' commands (17 R444, R445, R447). Readings and choices of the model: log entries 11 and 51. -/
def Obligations.EventsAndCounters : Prop :=
  (∀ (s : State) (code : BitVec 16) (p0 p1 p2 : BitVec 32),
     (s.evr.ph = .running → s.evr.frozen = false → foldNewest (mkRec code p0 p1 p2 s) s.evr.ring = none →
       s.evr.ring.length < 8192 →
       ∃ r, (raise code p0 p1 p2 s).evr.ring = r :: s.evr.ring ∧ r.seq = s.aon.nextSeq ∧ r.code = code ∧ r.p0 = p0 ∧
         r.p1 = p1 ∧ r.p2 = p2 ∧ r.secs = s.aon.calSecs ∧ (raise code p0 p1 p2 s).aon.nextSeq = s.aon.nextSeq + 1) ∧
     (s.evr.ph = .staging → s.evr.staged.length < 32 →
       foldNewest { mkRec code p0 p1 p2 s with flags := (mkRec code p0 p1 p2 s).flags ||| 2#8 } s.evr.staged.reverse = none →
       ∃ r, (raise code p0 p1 p2 s).evr.staged = s.evr.staged ++ [r] ∧ r.code = code ∧ r.p0 = p0 ∧ r.p1 = p1 ∧ r.p2 = p2 ∧
         (raise code p0 p1 p2 s).aon.nextSeq = s.aon.nextSeq ∧ (raise code p0 p1 p2 s).evr.ring = s.evr.ring) ∧
     (s.evr.ph = .battery → s.aon.buffer.length < 16 →
       foldNewest { mkRec code p0 p1 p2 s with flags := (mkRec code p0 p1 p2 s).flags ||| 1#8 } s.aon.buffer.reverse = none →
       ∃ r, (raise code p0 p1 p2 s).aon.buffer = s.aon.buffer ++ [r] ∧ r.code = code ∧ r.p0 = p0 ∧ r.p1 = p1 ∧ r.p2 = p2 ∧
         (raise code p0 p1 p2 s).aon.nextSeq = s.aon.nextSeq ∧ (raise code p0 p1 p2 s).evr.ring = s.evr.ring)) ∧
  (∀ s : State,
     (∀ (m : Fin 4) n, s.pmc.bw[m].window ≠ 0#24 →
       Does (.pmcBwWindowEnd m n) s fun t => t.pmc.bw[m].last = p32s n ∧
         t.pmc.bw[m].peak = if s.pmc.bw[m].peak.toNat < (p32s n).toNat then p32s n else s.pmc.bw[m].peak) ∧
     (∀ a (m : Fin 4), Reach a (0x2400100 + 16 * m.val) s →
       Does (.pmcBwClr a m) s fun t => t.pmc.bw[m].peak = 0#32 ∧ t.pmc.bw[m].last = s.pmc.bw[m].last) ∧
     (∀ a, Reach a 0x2400000 s → Does (.pmcTagEnable a) s fun t => t.pmc.tagEn = true) ∧
     (∀ a, Reach a 0x2400000 s → Does (.pmcTagClr a) s fun t => t.pmc.tags = [] ∧ t.pmc.tagFull = false))

/-- Accesses to registers (09 R229 to R235): a wide read latches its high word for its requester alone; a write needs
every byte enable; a write of a register that has a command of its own is that command. Readings and choices of the model:
log entries 17, 18 and 56. -/
def Obligations.RegisterCommands : Prop :=
  ∀ (s : State) (off : BitVec 26) (v : BitVec 32),
    let o := off.toNat
    (∀ a x, Reach a o s → pmcLow o = none → wideValue (leaveIdle s) o = some x → Does (.wideLowRead a off) s fun t =>
      t.out.log = .readReply (leBytes 4 x) :: s.out.log ∧ getHold a t = some (o, [p32 (x / 2 ^ 32)]) ∧
        ∀ b, b ≠ a → b ≠ .vf 0 → getHold b t = getHold b s) ∧
    (∀ i (n : Fin 16), 0 < n.val → decodes s n = true → lowRung s = false → servedBars s = true →
      vfWide (leaveIdle s) n o = some i → Does (.wideLowRead (.vf n) off) s fun t =>
        t.out.log = .readReply (leBytes 4 i) :: s.out.log ∧ getHold (.vf n) t = some (o, [p32 (i / 2 ^ 32)])) ∧
    (∀ a be, Reach a o s → o < 0x1000000 ∨ 0x2000000 ≤ o → o < 0x3000000 →
      (regDefined o = false → exec (.registerWrite a off be v) s = .next (ev 0x9020#16 0 0 o (leaveIdle s))) ∧
      (regDefined o = true → o < 0x910000 ∨ 0x910410 ≤ o → be ≠ 15#4 →
        exec (.registerWrite a off be v) s = .next (ev 0x9021#16 0 o be.toNat (leaveIdle s)))) ∧
    (∀ a, Reach a 0xD00010 s → Does (.registerWrite a 0xD00010#26 15#4 v) s fun t => t.kvt = { s.kvt with sel := v.setWidth 8 }) ∧
    (∀ a, Reach a 0xC00014 s → Does (.registerWrite a 0xC00014#26 15#4 v) s fun t =>
      t.ldg = { s.ldg with rcvAddr := s.ldg.rcvAddr.extractLsb' 32 32 ++ v }) ∧
    (∀ a, Reach a 0xC00018 s → Does (.registerWrite a 0xC00018#26 15#4 v) s fun t =>
      t.ldg = { s.ldg with rcvAddr := v ++ s.ldg.rcvAddr.setWidth 32 }) ∧
    (∀ a, Reach a 0x2200010 s → Does (.registerWrite a 0x2200010#26 15#4 v) s fun t =>
      t.chp = { s.chp with outN := v.setWidth 16, turn := v.extractLsb' 16 4 }) ∧
    (∀ a, Reach a 0x2400040 s → Does (.registerWrite a 0x2400040#26 15#4 v) s fun t =>
      t.pmc.ovf = (leaveIdle s).pmc.ovf &&& ~~~(v.setWidth 512)) ∧
    (∀ a, (∀ n, a ≠ .vf n) → exec (.registerWrite a 0xC#26 15#4 v) s = exec (.glbSwrst a (v.setWidth 16)) s) ∧
    (∀ be, exec (.registerWrite (.vf 0) off be v) s = .next s)
end

