-- ==== Sys2Proof/Laws/State.lean ====
section
/-! SUPPORT. One lemma per block of the state per update: an update of one block reads back as written and leaves every
other block, and the queue, as they were. -/

namespace Sys2Proof.Machine

@[simp ↓] theorem State.modGlb_glb (s : State) (f : Glb → Glb) : (s.modGlb f).glb = f s.glb := (rfl)
@[simp ↓] theorem State.modGlb_pwr (s : State) (f : Glb → Glb) : (s.modGlb f).pwr = s.pwr := (rfl)
@[simp ↓] theorem State.modGlb_pins (s : State) (f : Glb → Glb) : (s.modGlb f).pins = s.pins := (rfl)
@[simp ↓] theorem State.modGlb_aon (s : State) (f : Glb → Glb) : (s.modGlb f).aon = s.aon := (rfl)
@[simp ↓] theorem State.modGlb_tbs (s : State) (f : Glb → Glb) : (s.modGlb f).tbs = s.tbs := (rfl)
@[simp ↓] theorem State.modGlb_rst (s : State) (f : Glb → Glb) : (s.modGlb f).rst = s.rst := (rfl)
@[simp ↓] theorem State.modGlb_boot (s : State) (f : Glb → Glb) : (s.modGlb f).boot = s.boot := (rfl)
@[simp ↓] theorem State.modGlb_nv (s : State) (f : Glb → Glb) : (s.modGlb f).nv = s.nv := (rfl)
@[simp ↓] theorem State.modGlb_out (s : State) (f : Glb → Glb) : (s.modGlb f).out = s.out := (rfl)
@[simp ↓] theorem State.modGlb_fus (s : State) (f : Glb → Glb) : (s.modGlb f).fus = s.fus := (rfl)
@[simp ↓] theorem State.modGlb_wsh (s : State) (f : Glb → Glb) : (s.modGlb f).wsh = s.wsh := (rfl)
@[simp ↓] theorem State.modGlb_pln (s : State) (f : Glb → Glb) : (s.modGlb f).pln = s.pln := (rfl)
@[simp ↓] theorem State.modGlb_job (s : State) (f : Glb → Glb) : (s.modGlb f).job = s.job := (rfl)
@[simp ↓] theorem State.modGlb_hlk (s : State) (f : Glb → Glb) : (s.modGlb f).hlk = s.hlk := (rfl)
@[simp ↓] theorem State.modGlb_sdl (s : State) (f : Glb → Glb) : (s.modGlb f).sdl = s.sdl := (rfl)
@[simp ↓] theorem State.modGlb_prs (s : State) (f : Glb → Glb) : (s.modGlb f).prs = s.prs := (rfl)
@[simp ↓] theorem State.modGlb_ldg (s : State) (f : Glb → Glb) : (s.modGlb f).ldg = s.ldg := (rfl)
@[simp ↓] theorem State.modGlb_kvt (s : State) (f : Glb → Glb) : (s.modGlb f).kvt = s.kvt := (rfl)
@[simp ↓] theorem State.modGlb_ent (s : State) (f : Glb → Glb) : (s.modGlb f).ent = s.ent := (rfl)
@[simp ↓] theorem State.modGlb_att (s : State) (f : Glb → Glb) : (s.modGlb f).att = s.att := (rfl)
@[simp ↓] theorem State.modGlb_tmp (s : State) (f : Glb → Glb) : (s.modGlb f).tmp = s.tmp := (rfl)
@[simp ↓] theorem State.modGlb_wdg (s : State) (f : Glb → Glb) : (s.modGlb f).wdg = s.wdg := (rfl)
@[simp ↓] theorem State.modGlb_chp (s : State) (f : Glb → Glb) : (s.modGlb f).chp = s.chp := (rfl)
@[simp ↓] theorem State.modGlb_evr (s : State) (f : Glb → Glb) : (s.modGlb f).evr = s.evr := (rfl)
@[simp ↓] theorem State.modGlb_pmc (s : State) (f : Glb → Glb) : (s.modGlb f).pmc = s.pmc := (rfl)
@[simp ↓] theorem State.modGlb_pending (s : State) (f : Glb → Glb) : (s.modGlb f).pending = s.pending := (rfl)
@[simp ↓] theorem State.modPwr_glb (s : State) (f : Pwr → Pwr) : (s.modPwr f).glb = s.glb := (rfl)
@[simp ↓] theorem State.modPwr_pwr (s : State) (f : Pwr → Pwr) : (s.modPwr f).pwr = f s.pwr := (rfl)
@[simp ↓] theorem State.modPwr_pins (s : State) (f : Pwr → Pwr) : (s.modPwr f).pins = s.pins := (rfl)
@[simp ↓] theorem State.modPwr_aon (s : State) (f : Pwr → Pwr) : (s.modPwr f).aon = s.aon := (rfl)
@[simp ↓] theorem State.modPwr_tbs (s : State) (f : Pwr → Pwr) : (s.modPwr f).tbs = s.tbs := (rfl)
@[simp ↓] theorem State.modPwr_rst (s : State) (f : Pwr → Pwr) : (s.modPwr f).rst = s.rst := (rfl)
@[simp ↓] theorem State.modPwr_boot (s : State) (f : Pwr → Pwr) : (s.modPwr f).boot = s.boot := (rfl)
@[simp ↓] theorem State.modPwr_nv (s : State) (f : Pwr → Pwr) : (s.modPwr f).nv = s.nv := (rfl)
@[simp ↓] theorem State.modPwr_out (s : State) (f : Pwr → Pwr) : (s.modPwr f).out = s.out := (rfl)
@[simp ↓] theorem State.modPwr_fus (s : State) (f : Pwr → Pwr) : (s.modPwr f).fus = s.fus := (rfl)
@[simp ↓] theorem State.modPwr_wsh (s : State) (f : Pwr → Pwr) : (s.modPwr f).wsh = s.wsh := (rfl)
@[simp ↓] theorem State.modPwr_pln (s : State) (f : Pwr → Pwr) : (s.modPwr f).pln = s.pln := (rfl)
@[simp ↓] theorem State.modPwr_job (s : State) (f : Pwr → Pwr) : (s.modPwr f).job = s.job := (rfl)
@[simp ↓] theorem State.modPwr_hlk (s : State) (f : Pwr → Pwr) : (s.modPwr f).hlk = s.hlk := (rfl)
@[simp ↓] theorem State.modPwr_sdl (s : State) (f : Pwr → Pwr) : (s.modPwr f).sdl = s.sdl := (rfl)
@[simp ↓] theorem State.modPwr_prs (s : State) (f : Pwr → Pwr) : (s.modPwr f).prs = s.prs := (rfl)
@[simp ↓] theorem State.modPwr_ldg (s : State) (f : Pwr → Pwr) : (s.modPwr f).ldg = s.ldg := (rfl)
@[simp ↓] theorem State.modPwr_kvt (s : State) (f : Pwr → Pwr) : (s.modPwr f).kvt = s.kvt := (rfl)
@[simp ↓] theorem State.modPwr_ent (s : State) (f : Pwr → Pwr) : (s.modPwr f).ent = s.ent := (rfl)
@[simp ↓] theorem State.modPwr_att (s : State) (f : Pwr → Pwr) : (s.modPwr f).att = s.att := (rfl)
@[simp ↓] theorem State.modPwr_tmp (s : State) (f : Pwr → Pwr) : (s.modPwr f).tmp = s.tmp := (rfl)
@[simp ↓] theorem State.modPwr_wdg (s : State) (f : Pwr → Pwr) : (s.modPwr f).wdg = s.wdg := (rfl)
@[simp ↓] theorem State.modPwr_chp (s : State) (f : Pwr → Pwr) : (s.modPwr f).chp = s.chp := (rfl)
@[simp ↓] theorem State.modPwr_evr (s : State) (f : Pwr → Pwr) : (s.modPwr f).evr = s.evr := (rfl)
@[simp ↓] theorem State.modPwr_pmc (s : State) (f : Pwr → Pwr) : (s.modPwr f).pmc = s.pmc := (rfl)
@[simp ↓] theorem State.modPwr_pending (s : State) (f : Pwr → Pwr) : (s.modPwr f).pending = s.pending := (rfl)
@[simp ↓] theorem State.modPins_glb (s : State) (f : Pins → Pins) : (s.modPins f).glb = s.glb := (rfl)
@[simp ↓] theorem State.modPins_pwr (s : State) (f : Pins → Pins) : (s.modPins f).pwr = s.pwr := (rfl)
@[simp ↓] theorem State.modPins_pins (s : State) (f : Pins → Pins) : (s.modPins f).pins = f s.pins := (rfl)
@[simp ↓] theorem State.modPins_aon (s : State) (f : Pins → Pins) : (s.modPins f).aon = s.aon := (rfl)
@[simp ↓] theorem State.modPins_tbs (s : State) (f : Pins → Pins) : (s.modPins f).tbs = s.tbs := (rfl)
@[simp ↓] theorem State.modPins_rst (s : State) (f : Pins → Pins) : (s.modPins f).rst = s.rst := (rfl)
@[simp ↓] theorem State.modPins_boot (s : State) (f : Pins → Pins) : (s.modPins f).boot = s.boot := (rfl)
@[simp ↓] theorem State.modPins_nv (s : State) (f : Pins → Pins) : (s.modPins f).nv = s.nv := (rfl)
@[simp ↓] theorem State.modPins_out (s : State) (f : Pins → Pins) : (s.modPins f).out = s.out := (rfl)
@[simp ↓] theorem State.modPins_fus (s : State) (f : Pins → Pins) : (s.modPins f).fus = s.fus := (rfl)
@[simp ↓] theorem State.modPins_wsh (s : State) (f : Pins → Pins) : (s.modPins f).wsh = s.wsh := (rfl)
@[simp ↓] theorem State.modPins_pln (s : State) (f : Pins → Pins) : (s.modPins f).pln = s.pln := (rfl)
@[simp ↓] theorem State.modPins_job (s : State) (f : Pins → Pins) : (s.modPins f).job = s.job := (rfl)
@[simp ↓] theorem State.modPins_hlk (s : State) (f : Pins → Pins) : (s.modPins f).hlk = s.hlk := (rfl)
@[simp ↓] theorem State.modPins_sdl (s : State) (f : Pins → Pins) : (s.modPins f).sdl = s.sdl := (rfl)
@[simp ↓] theorem State.modPins_prs (s : State) (f : Pins → Pins) : (s.modPins f).prs = s.prs := (rfl)
@[simp ↓] theorem State.modPins_ldg (s : State) (f : Pins → Pins) : (s.modPins f).ldg = s.ldg := (rfl)
@[simp ↓] theorem State.modPins_kvt (s : State) (f : Pins → Pins) : (s.modPins f).kvt = s.kvt := (rfl)
@[simp ↓] theorem State.modPins_ent (s : State) (f : Pins → Pins) : (s.modPins f).ent = s.ent := (rfl)
@[simp ↓] theorem State.modPins_att (s : State) (f : Pins → Pins) : (s.modPins f).att = s.att := (rfl)
@[simp ↓] theorem State.modPins_tmp (s : State) (f : Pins → Pins) : (s.modPins f).tmp = s.tmp := (rfl)
@[simp ↓] theorem State.modPins_wdg (s : State) (f : Pins → Pins) : (s.modPins f).wdg = s.wdg := (rfl)
@[simp ↓] theorem State.modPins_chp (s : State) (f : Pins → Pins) : (s.modPins f).chp = s.chp := (rfl)
@[simp ↓] theorem State.modPins_evr (s : State) (f : Pins → Pins) : (s.modPins f).evr = s.evr := (rfl)
@[simp ↓] theorem State.modPins_pmc (s : State) (f : Pins → Pins) : (s.modPins f).pmc = s.pmc := (rfl)
@[simp ↓] theorem State.modPins_pending (s : State) (f : Pins → Pins) : (s.modPins f).pending = s.pending := (rfl)
@[simp ↓] theorem State.modAon_glb (s : State) (f : Aon → Aon) : (s.modAon f).glb = s.glb := (rfl)
@[simp ↓] theorem State.modAon_pwr (s : State) (f : Aon → Aon) : (s.modAon f).pwr = s.pwr := (rfl)
@[simp ↓] theorem State.modAon_pins (s : State) (f : Aon → Aon) : (s.modAon f).pins = s.pins := (rfl)
@[simp ↓] theorem State.modAon_aon (s : State) (f : Aon → Aon) : (s.modAon f).aon = f s.aon := (rfl)
@[simp ↓] theorem State.modAon_tbs (s : State) (f : Aon → Aon) : (s.modAon f).tbs = s.tbs := (rfl)
@[simp ↓] theorem State.modAon_rst (s : State) (f : Aon → Aon) : (s.modAon f).rst = s.rst := (rfl)
@[simp ↓] theorem State.modAon_boot (s : State) (f : Aon → Aon) : (s.modAon f).boot = s.boot := (rfl)
@[simp ↓] theorem State.modAon_nv (s : State) (f : Aon → Aon) : (s.modAon f).nv = s.nv := (rfl)
@[simp ↓] theorem State.modAon_out (s : State) (f : Aon → Aon) : (s.modAon f).out = s.out := (rfl)
@[simp ↓] theorem State.modAon_fus (s : State) (f : Aon → Aon) : (s.modAon f).fus = s.fus := (rfl)
@[simp ↓] theorem State.modAon_wsh (s : State) (f : Aon → Aon) : (s.modAon f).wsh = s.wsh := (rfl)
@[simp ↓] theorem State.modAon_pln (s : State) (f : Aon → Aon) : (s.modAon f).pln = s.pln := (rfl)
@[simp ↓] theorem State.modAon_job (s : State) (f : Aon → Aon) : (s.modAon f).job = s.job := (rfl)
@[simp ↓] theorem State.modAon_hlk (s : State) (f : Aon → Aon) : (s.modAon f).hlk = s.hlk := (rfl)
@[simp ↓] theorem State.modAon_sdl (s : State) (f : Aon → Aon) : (s.modAon f).sdl = s.sdl := (rfl)
@[simp ↓] theorem State.modAon_prs (s : State) (f : Aon → Aon) : (s.modAon f).prs = s.prs := (rfl)
@[simp ↓] theorem State.modAon_ldg (s : State) (f : Aon → Aon) : (s.modAon f).ldg = s.ldg := (rfl)
@[simp ↓] theorem State.modAon_kvt (s : State) (f : Aon → Aon) : (s.modAon f).kvt = s.kvt := (rfl)
@[simp ↓] theorem State.modAon_ent (s : State) (f : Aon → Aon) : (s.modAon f).ent = s.ent := (rfl)
@[simp ↓] theorem State.modAon_att (s : State) (f : Aon → Aon) : (s.modAon f).att = s.att := (rfl)
@[simp ↓] theorem State.modAon_tmp (s : State) (f : Aon → Aon) : (s.modAon f).tmp = s.tmp := (rfl)
@[simp ↓] theorem State.modAon_wdg (s : State) (f : Aon → Aon) : (s.modAon f).wdg = s.wdg := (rfl)
@[simp ↓] theorem State.modAon_chp (s : State) (f : Aon → Aon) : (s.modAon f).chp = s.chp := (rfl)
@[simp ↓] theorem State.modAon_evr (s : State) (f : Aon → Aon) : (s.modAon f).evr = s.evr := (rfl)
@[simp ↓] theorem State.modAon_pmc (s : State) (f : Aon → Aon) : (s.modAon f).pmc = s.pmc := (rfl)
@[simp ↓] theorem State.modAon_pending (s : State) (f : Aon → Aon) : (s.modAon f).pending = s.pending := (rfl)
@[simp ↓] theorem State.modTbs_glb (s : State) (f : Tbs → Tbs) : (s.modTbs f).glb = s.glb := (rfl)
@[simp ↓] theorem State.modTbs_pwr (s : State) (f : Tbs → Tbs) : (s.modTbs f).pwr = s.pwr := (rfl)
@[simp ↓] theorem State.modTbs_pins (s : State) (f : Tbs → Tbs) : (s.modTbs f).pins = s.pins := (rfl)
@[simp ↓] theorem State.modTbs_aon (s : State) (f : Tbs → Tbs) : (s.modTbs f).aon = s.aon := (rfl)
@[simp ↓] theorem State.modTbs_tbs (s : State) (f : Tbs → Tbs) : (s.modTbs f).tbs = f s.tbs := (rfl)
@[simp ↓] theorem State.modTbs_rst (s : State) (f : Tbs → Tbs) : (s.modTbs f).rst = s.rst := (rfl)
@[simp ↓] theorem State.modTbs_boot (s : State) (f : Tbs → Tbs) : (s.modTbs f).boot = s.boot := (rfl)
@[simp ↓] theorem State.modTbs_nv (s : State) (f : Tbs → Tbs) : (s.modTbs f).nv = s.nv := (rfl)
@[simp ↓] theorem State.modTbs_out (s : State) (f : Tbs → Tbs) : (s.modTbs f).out = s.out := (rfl)
@[simp ↓] theorem State.modTbs_fus (s : State) (f : Tbs → Tbs) : (s.modTbs f).fus = s.fus := (rfl)
@[simp ↓] theorem State.modTbs_wsh (s : State) (f : Tbs → Tbs) : (s.modTbs f).wsh = s.wsh := (rfl)
@[simp ↓] theorem State.modTbs_pln (s : State) (f : Tbs → Tbs) : (s.modTbs f).pln = s.pln := (rfl)
@[simp ↓] theorem State.modTbs_job (s : State) (f : Tbs → Tbs) : (s.modTbs f).job = s.job := (rfl)
@[simp ↓] theorem State.modTbs_hlk (s : State) (f : Tbs → Tbs) : (s.modTbs f).hlk = s.hlk := (rfl)
@[simp ↓] theorem State.modTbs_sdl (s : State) (f : Tbs → Tbs) : (s.modTbs f).sdl = s.sdl := (rfl)
@[simp ↓] theorem State.modTbs_prs (s : State) (f : Tbs → Tbs) : (s.modTbs f).prs = s.prs := (rfl)
@[simp ↓] theorem State.modTbs_ldg (s : State) (f : Tbs → Tbs) : (s.modTbs f).ldg = s.ldg := (rfl)
@[simp ↓] theorem State.modTbs_kvt (s : State) (f : Tbs → Tbs) : (s.modTbs f).kvt = s.kvt := (rfl)
@[simp ↓] theorem State.modTbs_ent (s : State) (f : Tbs → Tbs) : (s.modTbs f).ent = s.ent := (rfl)
@[simp ↓] theorem State.modTbs_att (s : State) (f : Tbs → Tbs) : (s.modTbs f).att = s.att := (rfl)
@[simp ↓] theorem State.modTbs_tmp (s : State) (f : Tbs → Tbs) : (s.modTbs f).tmp = s.tmp := (rfl)
@[simp ↓] theorem State.modTbs_wdg (s : State) (f : Tbs → Tbs) : (s.modTbs f).wdg = s.wdg := (rfl)
@[simp ↓] theorem State.modTbs_chp (s : State) (f : Tbs → Tbs) : (s.modTbs f).chp = s.chp := (rfl)
@[simp ↓] theorem State.modTbs_evr (s : State) (f : Tbs → Tbs) : (s.modTbs f).evr = s.evr := (rfl)
@[simp ↓] theorem State.modTbs_pmc (s : State) (f : Tbs → Tbs) : (s.modTbs f).pmc = s.pmc := (rfl)
@[simp ↓] theorem State.modTbs_pending (s : State) (f : Tbs → Tbs) : (s.modTbs f).pending = s.pending := (rfl)
@[simp ↓] theorem State.modRst_glb (s : State) (f : Rst → Rst) : (s.modRst f).glb = s.glb := (rfl)
@[simp ↓] theorem State.modRst_pwr (s : State) (f : Rst → Rst) : (s.modRst f).pwr = s.pwr := (rfl)
@[simp ↓] theorem State.modRst_pins (s : State) (f : Rst → Rst) : (s.modRst f).pins = s.pins := (rfl)
@[simp ↓] theorem State.modRst_aon (s : State) (f : Rst → Rst) : (s.modRst f).aon = s.aon := (rfl)
@[simp ↓] theorem State.modRst_tbs (s : State) (f : Rst → Rst) : (s.modRst f).tbs = s.tbs := (rfl)
@[simp ↓] theorem State.modRst_rst (s : State) (f : Rst → Rst) : (s.modRst f).rst = f s.rst := (rfl)
@[simp ↓] theorem State.modRst_boot (s : State) (f : Rst → Rst) : (s.modRst f).boot = s.boot := (rfl)
@[simp ↓] theorem State.modRst_nv (s : State) (f : Rst → Rst) : (s.modRst f).nv = s.nv := (rfl)
@[simp ↓] theorem State.modRst_out (s : State) (f : Rst → Rst) : (s.modRst f).out = s.out := (rfl)
@[simp ↓] theorem State.modRst_fus (s : State) (f : Rst → Rst) : (s.modRst f).fus = s.fus := (rfl)
@[simp ↓] theorem State.modRst_wsh (s : State) (f : Rst → Rst) : (s.modRst f).wsh = s.wsh := (rfl)
@[simp ↓] theorem State.modRst_pln (s : State) (f : Rst → Rst) : (s.modRst f).pln = s.pln := (rfl)
@[simp ↓] theorem State.modRst_job (s : State) (f : Rst → Rst) : (s.modRst f).job = s.job := (rfl)
@[simp ↓] theorem State.modRst_hlk (s : State) (f : Rst → Rst) : (s.modRst f).hlk = s.hlk := (rfl)
@[simp ↓] theorem State.modRst_sdl (s : State) (f : Rst → Rst) : (s.modRst f).sdl = s.sdl := (rfl)
@[simp ↓] theorem State.modRst_prs (s : State) (f : Rst → Rst) : (s.modRst f).prs = s.prs := (rfl)
@[simp ↓] theorem State.modRst_ldg (s : State) (f : Rst → Rst) : (s.modRst f).ldg = s.ldg := (rfl)
@[simp ↓] theorem State.modRst_kvt (s : State) (f : Rst → Rst) : (s.modRst f).kvt = s.kvt := (rfl)
@[simp ↓] theorem State.modRst_ent (s : State) (f : Rst → Rst) : (s.modRst f).ent = s.ent := (rfl)
@[simp ↓] theorem State.modRst_att (s : State) (f : Rst → Rst) : (s.modRst f).att = s.att := (rfl)
@[simp ↓] theorem State.modRst_tmp (s : State) (f : Rst → Rst) : (s.modRst f).tmp = s.tmp := (rfl)
@[simp ↓] theorem State.modRst_wdg (s : State) (f : Rst → Rst) : (s.modRst f).wdg = s.wdg := (rfl)
@[simp ↓] theorem State.modRst_chp (s : State) (f : Rst → Rst) : (s.modRst f).chp = s.chp := (rfl)
@[simp ↓] theorem State.modRst_evr (s : State) (f : Rst → Rst) : (s.modRst f).evr = s.evr := (rfl)
@[simp ↓] theorem State.modRst_pmc (s : State) (f : Rst → Rst) : (s.modRst f).pmc = s.pmc := (rfl)
@[simp ↓] theorem State.modRst_pending (s : State) (f : Rst → Rst) : (s.modRst f).pending = s.pending := (rfl)
@[simp ↓] theorem State.modBoot_glb (s : State) (f : Boot → Boot) : (s.modBoot f).glb = s.glb := (rfl)
@[simp ↓] theorem State.modBoot_pwr (s : State) (f : Boot → Boot) : (s.modBoot f).pwr = s.pwr := (rfl)
@[simp ↓] theorem State.modBoot_pins (s : State) (f : Boot → Boot) : (s.modBoot f).pins = s.pins := (rfl)
@[simp ↓] theorem State.modBoot_aon (s : State) (f : Boot → Boot) : (s.modBoot f).aon = s.aon := (rfl)
@[simp ↓] theorem State.modBoot_tbs (s : State) (f : Boot → Boot) : (s.modBoot f).tbs = s.tbs := (rfl)
@[simp ↓] theorem State.modBoot_rst (s : State) (f : Boot → Boot) : (s.modBoot f).rst = s.rst := (rfl)
@[simp ↓] theorem State.modBoot_boot (s : State) (f : Boot → Boot) : (s.modBoot f).boot = f s.boot := (rfl)
@[simp ↓] theorem State.modBoot_nv (s : State) (f : Boot → Boot) : (s.modBoot f).nv = s.nv := (rfl)
@[simp ↓] theorem State.modBoot_out (s : State) (f : Boot → Boot) : (s.modBoot f).out = s.out := (rfl)
@[simp ↓] theorem State.modBoot_fus (s : State) (f : Boot → Boot) : (s.modBoot f).fus = s.fus := (rfl)
@[simp ↓] theorem State.modBoot_wsh (s : State) (f : Boot → Boot) : (s.modBoot f).wsh = s.wsh := (rfl)
@[simp ↓] theorem State.modBoot_pln (s : State) (f : Boot → Boot) : (s.modBoot f).pln = s.pln := (rfl)
@[simp ↓] theorem State.modBoot_job (s : State) (f : Boot → Boot) : (s.modBoot f).job = s.job := (rfl)
@[simp ↓] theorem State.modBoot_hlk (s : State) (f : Boot → Boot) : (s.modBoot f).hlk = s.hlk := (rfl)
@[simp ↓] theorem State.modBoot_sdl (s : State) (f : Boot → Boot) : (s.modBoot f).sdl = s.sdl := (rfl)
@[simp ↓] theorem State.modBoot_prs (s : State) (f : Boot → Boot) : (s.modBoot f).prs = s.prs := (rfl)
@[simp ↓] theorem State.modBoot_ldg (s : State) (f : Boot → Boot) : (s.modBoot f).ldg = s.ldg := (rfl)
@[simp ↓] theorem State.modBoot_kvt (s : State) (f : Boot → Boot) : (s.modBoot f).kvt = s.kvt := (rfl)
@[simp ↓] theorem State.modBoot_ent (s : State) (f : Boot → Boot) : (s.modBoot f).ent = s.ent := (rfl)
@[simp ↓] theorem State.modBoot_att (s : State) (f : Boot → Boot) : (s.modBoot f).att = s.att := (rfl)
@[simp ↓] theorem State.modBoot_tmp (s : State) (f : Boot → Boot) : (s.modBoot f).tmp = s.tmp := (rfl)
@[simp ↓] theorem State.modBoot_wdg (s : State) (f : Boot → Boot) : (s.modBoot f).wdg = s.wdg := (rfl)
@[simp ↓] theorem State.modBoot_chp (s : State) (f : Boot → Boot) : (s.modBoot f).chp = s.chp := (rfl)
@[simp ↓] theorem State.modBoot_evr (s : State) (f : Boot → Boot) : (s.modBoot f).evr = s.evr := (rfl)
@[simp ↓] theorem State.modBoot_pmc (s : State) (f : Boot → Boot) : (s.modBoot f).pmc = s.pmc := (rfl)
@[simp ↓] theorem State.modBoot_pending (s : State) (f : Boot → Boot) : (s.modBoot f).pending = s.pending := (rfl)
@[simp ↓] theorem State.modNv_glb (s : State) (f : Nv → Nv) : (s.modNv f).glb = s.glb := (rfl)
@[simp ↓] theorem State.modNv_pwr (s : State) (f : Nv → Nv) : (s.modNv f).pwr = s.pwr := (rfl)
@[simp ↓] theorem State.modNv_pins (s : State) (f : Nv → Nv) : (s.modNv f).pins = s.pins := (rfl)
@[simp ↓] theorem State.modNv_aon (s : State) (f : Nv → Nv) : (s.modNv f).aon = s.aon := (rfl)
@[simp ↓] theorem State.modNv_tbs (s : State) (f : Nv → Nv) : (s.modNv f).tbs = s.tbs := (rfl)
@[simp ↓] theorem State.modNv_rst (s : State) (f : Nv → Nv) : (s.modNv f).rst = s.rst := (rfl)
@[simp ↓] theorem State.modNv_boot (s : State) (f : Nv → Nv) : (s.modNv f).boot = s.boot := (rfl)
@[simp ↓] theorem State.modNv_nv (s : State) (f : Nv → Nv) : (s.modNv f).nv = f s.nv := (rfl)
@[simp ↓] theorem State.modNv_out (s : State) (f : Nv → Nv) : (s.modNv f).out = s.out := (rfl)
@[simp ↓] theorem State.modNv_fus (s : State) (f : Nv → Nv) : (s.modNv f).fus = s.fus := (rfl)
@[simp ↓] theorem State.modNv_wsh (s : State) (f : Nv → Nv) : (s.modNv f).wsh = s.wsh := (rfl)
@[simp ↓] theorem State.modNv_pln (s : State) (f : Nv → Nv) : (s.modNv f).pln = s.pln := (rfl)
@[simp ↓] theorem State.modNv_job (s : State) (f : Nv → Nv) : (s.modNv f).job = s.job := (rfl)
@[simp ↓] theorem State.modNv_hlk (s : State) (f : Nv → Nv) : (s.modNv f).hlk = s.hlk := (rfl)
@[simp ↓] theorem State.modNv_sdl (s : State) (f : Nv → Nv) : (s.modNv f).sdl = s.sdl := (rfl)
@[simp ↓] theorem State.modNv_prs (s : State) (f : Nv → Nv) : (s.modNv f).prs = s.prs := (rfl)
@[simp ↓] theorem State.modNv_ldg (s : State) (f : Nv → Nv) : (s.modNv f).ldg = s.ldg := (rfl)
@[simp ↓] theorem State.modNv_kvt (s : State) (f : Nv → Nv) : (s.modNv f).kvt = s.kvt := (rfl)
@[simp ↓] theorem State.modNv_ent (s : State) (f : Nv → Nv) : (s.modNv f).ent = s.ent := (rfl)
@[simp ↓] theorem State.modNv_att (s : State) (f : Nv → Nv) : (s.modNv f).att = s.att := (rfl)
@[simp ↓] theorem State.modNv_tmp (s : State) (f : Nv → Nv) : (s.modNv f).tmp = s.tmp := (rfl)
@[simp ↓] theorem State.modNv_wdg (s : State) (f : Nv → Nv) : (s.modNv f).wdg = s.wdg := (rfl)
@[simp ↓] theorem State.modNv_chp (s : State) (f : Nv → Nv) : (s.modNv f).chp = s.chp := (rfl)
@[simp ↓] theorem State.modNv_evr (s : State) (f : Nv → Nv) : (s.modNv f).evr = s.evr := (rfl)
@[simp ↓] theorem State.modNv_pmc (s : State) (f : Nv → Nv) : (s.modNv f).pmc = s.pmc := (rfl)
@[simp ↓] theorem State.modNv_pending (s : State) (f : Nv → Nv) : (s.modNv f).pending = s.pending := (rfl)
@[simp ↓] theorem State.modOut_glb (s : State) (f : Out → Out) : (s.modOut f).glb = s.glb := (rfl)
@[simp ↓] theorem State.modOut_pwr (s : State) (f : Out → Out) : (s.modOut f).pwr = s.pwr := (rfl)
@[simp ↓] theorem State.modOut_pins (s : State) (f : Out → Out) : (s.modOut f).pins = s.pins := (rfl)
@[simp ↓] theorem State.modOut_aon (s : State) (f : Out → Out) : (s.modOut f).aon = s.aon := (rfl)
@[simp ↓] theorem State.modOut_tbs (s : State) (f : Out → Out) : (s.modOut f).tbs = s.tbs := (rfl)
@[simp ↓] theorem State.modOut_rst (s : State) (f : Out → Out) : (s.modOut f).rst = s.rst := (rfl)
@[simp ↓] theorem State.modOut_boot (s : State) (f : Out → Out) : (s.modOut f).boot = s.boot := (rfl)
@[simp ↓] theorem State.modOut_nv (s : State) (f : Out → Out) : (s.modOut f).nv = s.nv := (rfl)
@[simp ↓] theorem State.modOut_out (s : State) (f : Out → Out) : (s.modOut f).out = f s.out := (rfl)
@[simp ↓] theorem State.modOut_fus (s : State) (f : Out → Out) : (s.modOut f).fus = s.fus := (rfl)
@[simp ↓] theorem State.modOut_wsh (s : State) (f : Out → Out) : (s.modOut f).wsh = s.wsh := (rfl)
@[simp ↓] theorem State.modOut_pln (s : State) (f : Out → Out) : (s.modOut f).pln = s.pln := (rfl)
@[simp ↓] theorem State.modOut_job (s : State) (f : Out → Out) : (s.modOut f).job = s.job := (rfl)
@[simp ↓] theorem State.modOut_hlk (s : State) (f : Out → Out) : (s.modOut f).hlk = s.hlk := (rfl)
@[simp ↓] theorem State.modOut_sdl (s : State) (f : Out → Out) : (s.modOut f).sdl = s.sdl := (rfl)
@[simp ↓] theorem State.modOut_prs (s : State) (f : Out → Out) : (s.modOut f).prs = s.prs := (rfl)
@[simp ↓] theorem State.modOut_ldg (s : State) (f : Out → Out) : (s.modOut f).ldg = s.ldg := (rfl)
@[simp ↓] theorem State.modOut_kvt (s : State) (f : Out → Out) : (s.modOut f).kvt = s.kvt := (rfl)
@[simp ↓] theorem State.modOut_ent (s : State) (f : Out → Out) : (s.modOut f).ent = s.ent := (rfl)
@[simp ↓] theorem State.modOut_att (s : State) (f : Out → Out) : (s.modOut f).att = s.att := (rfl)
@[simp ↓] theorem State.modOut_tmp (s : State) (f : Out → Out) : (s.modOut f).tmp = s.tmp := (rfl)
@[simp ↓] theorem State.modOut_wdg (s : State) (f : Out → Out) : (s.modOut f).wdg = s.wdg := (rfl)
@[simp ↓] theorem State.modOut_chp (s : State) (f : Out → Out) : (s.modOut f).chp = s.chp := (rfl)
@[simp ↓] theorem State.modOut_evr (s : State) (f : Out → Out) : (s.modOut f).evr = s.evr := (rfl)
@[simp ↓] theorem State.modOut_pmc (s : State) (f : Out → Out) : (s.modOut f).pmc = s.pmc := (rfl)
@[simp ↓] theorem State.modOut_pending (s : State) (f : Out → Out) : (s.modOut f).pending = s.pending := (rfl)
@[simp ↓] theorem State.modFus_glb (s : State) (f : Fus → Fus) : (s.modFus f).glb = s.glb := (rfl)
@[simp ↓] theorem State.modFus_pwr (s : State) (f : Fus → Fus) : (s.modFus f).pwr = s.pwr := (rfl)
@[simp ↓] theorem State.modFus_pins (s : State) (f : Fus → Fus) : (s.modFus f).pins = s.pins := (rfl)
@[simp ↓] theorem State.modFus_aon (s : State) (f : Fus → Fus) : (s.modFus f).aon = s.aon := (rfl)
@[simp ↓] theorem State.modFus_tbs (s : State) (f : Fus → Fus) : (s.modFus f).tbs = s.tbs := (rfl)
@[simp ↓] theorem State.modFus_rst (s : State) (f : Fus → Fus) : (s.modFus f).rst = s.rst := (rfl)
@[simp ↓] theorem State.modFus_boot (s : State) (f : Fus → Fus) : (s.modFus f).boot = s.boot := (rfl)
@[simp ↓] theorem State.modFus_nv (s : State) (f : Fus → Fus) : (s.modFus f).nv = s.nv := (rfl)
@[simp ↓] theorem State.modFus_out (s : State) (f : Fus → Fus) : (s.modFus f).out = s.out := (rfl)
@[simp ↓] theorem State.modFus_fus (s : State) (f : Fus → Fus) : (s.modFus f).fus = f s.fus := (rfl)
@[simp ↓] theorem State.modFus_wsh (s : State) (f : Fus → Fus) : (s.modFus f).wsh = s.wsh := (rfl)
@[simp ↓] theorem State.modFus_pln (s : State) (f : Fus → Fus) : (s.modFus f).pln = s.pln := (rfl)
@[simp ↓] theorem State.modFus_job (s : State) (f : Fus → Fus) : (s.modFus f).job = s.job := (rfl)
@[simp ↓] theorem State.modFus_hlk (s : State) (f : Fus → Fus) : (s.modFus f).hlk = s.hlk := (rfl)
@[simp ↓] theorem State.modFus_sdl (s : State) (f : Fus → Fus) : (s.modFus f).sdl = s.sdl := (rfl)
@[simp ↓] theorem State.modFus_prs (s : State) (f : Fus → Fus) : (s.modFus f).prs = s.prs := (rfl)
@[simp ↓] theorem State.modFus_ldg (s : State) (f : Fus → Fus) : (s.modFus f).ldg = s.ldg := (rfl)
@[simp ↓] theorem State.modFus_kvt (s : State) (f : Fus → Fus) : (s.modFus f).kvt = s.kvt := (rfl)
@[simp ↓] theorem State.modFus_ent (s : State) (f : Fus → Fus) : (s.modFus f).ent = s.ent := (rfl)
@[simp ↓] theorem State.modFus_att (s : State) (f : Fus → Fus) : (s.modFus f).att = s.att := (rfl)
@[simp ↓] theorem State.modFus_tmp (s : State) (f : Fus → Fus) : (s.modFus f).tmp = s.tmp := (rfl)
@[simp ↓] theorem State.modFus_wdg (s : State) (f : Fus → Fus) : (s.modFus f).wdg = s.wdg := (rfl)
@[simp ↓] theorem State.modFus_chp (s : State) (f : Fus → Fus) : (s.modFus f).chp = s.chp := (rfl)
@[simp ↓] theorem State.modFus_evr (s : State) (f : Fus → Fus) : (s.modFus f).evr = s.evr := (rfl)
@[simp ↓] theorem State.modFus_pmc (s : State) (f : Fus → Fus) : (s.modFus f).pmc = s.pmc := (rfl)
@[simp ↓] theorem State.modFus_pending (s : State) (f : Fus → Fus) : (s.modFus f).pending = s.pending := (rfl)
@[simp ↓] theorem State.modWsh_glb (s : State) (f : Wsh → Wsh) : (s.modWsh f).glb = s.glb := (rfl)
@[simp ↓] theorem State.modWsh_pwr (s : State) (f : Wsh → Wsh) : (s.modWsh f).pwr = s.pwr := (rfl)
@[simp ↓] theorem State.modWsh_pins (s : State) (f : Wsh → Wsh) : (s.modWsh f).pins = s.pins := (rfl)
@[simp ↓] theorem State.modWsh_aon (s : State) (f : Wsh → Wsh) : (s.modWsh f).aon = s.aon := (rfl)
@[simp ↓] theorem State.modWsh_tbs (s : State) (f : Wsh → Wsh) : (s.modWsh f).tbs = s.tbs := (rfl)
@[simp ↓] theorem State.modWsh_rst (s : State) (f : Wsh → Wsh) : (s.modWsh f).rst = s.rst := (rfl)
@[simp ↓] theorem State.modWsh_boot (s : State) (f : Wsh → Wsh) : (s.modWsh f).boot = s.boot := (rfl)
@[simp ↓] theorem State.modWsh_nv (s : State) (f : Wsh → Wsh) : (s.modWsh f).nv = s.nv := (rfl)
@[simp ↓] theorem State.modWsh_out (s : State) (f : Wsh → Wsh) : (s.modWsh f).out = s.out := (rfl)
@[simp ↓] theorem State.modWsh_fus (s : State) (f : Wsh → Wsh) : (s.modWsh f).fus = s.fus := (rfl)
@[simp ↓] theorem State.modWsh_wsh (s : State) (f : Wsh → Wsh) : (s.modWsh f).wsh = f s.wsh := (rfl)
@[simp ↓] theorem State.modWsh_pln (s : State) (f : Wsh → Wsh) : (s.modWsh f).pln = s.pln := (rfl)
@[simp ↓] theorem State.modWsh_job (s : State) (f : Wsh → Wsh) : (s.modWsh f).job = s.job := (rfl)
@[simp ↓] theorem State.modWsh_hlk (s : State) (f : Wsh → Wsh) : (s.modWsh f).hlk = s.hlk := (rfl)
@[simp ↓] theorem State.modWsh_sdl (s : State) (f : Wsh → Wsh) : (s.modWsh f).sdl = s.sdl := (rfl)
@[simp ↓] theorem State.modWsh_prs (s : State) (f : Wsh → Wsh) : (s.modWsh f).prs = s.prs := (rfl)
@[simp ↓] theorem State.modWsh_ldg (s : State) (f : Wsh → Wsh) : (s.modWsh f).ldg = s.ldg := (rfl)
@[simp ↓] theorem State.modWsh_kvt (s : State) (f : Wsh → Wsh) : (s.modWsh f).kvt = s.kvt := (rfl)
@[simp ↓] theorem State.modWsh_ent (s : State) (f : Wsh → Wsh) : (s.modWsh f).ent = s.ent := (rfl)
@[simp ↓] theorem State.modWsh_att (s : State) (f : Wsh → Wsh) : (s.modWsh f).att = s.att := (rfl)
@[simp ↓] theorem State.modWsh_tmp (s : State) (f : Wsh → Wsh) : (s.modWsh f).tmp = s.tmp := (rfl)
@[simp ↓] theorem State.modWsh_wdg (s : State) (f : Wsh → Wsh) : (s.modWsh f).wdg = s.wdg := (rfl)
@[simp ↓] theorem State.modWsh_chp (s : State) (f : Wsh → Wsh) : (s.modWsh f).chp = s.chp := (rfl)
@[simp ↓] theorem State.modWsh_evr (s : State) (f : Wsh → Wsh) : (s.modWsh f).evr = s.evr := (rfl)
@[simp ↓] theorem State.modWsh_pmc (s : State) (f : Wsh → Wsh) : (s.modWsh f).pmc = s.pmc := (rfl)
@[simp ↓] theorem State.modWsh_pending (s : State) (f : Wsh → Wsh) : (s.modWsh f).pending = s.pending := (rfl)
@[simp ↓] theorem State.modPln_glb (s : State) (f : Pln → Pln) : (s.modPln f).glb = s.glb := (rfl)
@[simp ↓] theorem State.modPln_pwr (s : State) (f : Pln → Pln) : (s.modPln f).pwr = s.pwr := (rfl)
@[simp ↓] theorem State.modPln_pins (s : State) (f : Pln → Pln) : (s.modPln f).pins = s.pins := (rfl)
@[simp ↓] theorem State.modPln_aon (s : State) (f : Pln → Pln) : (s.modPln f).aon = s.aon := (rfl)
@[simp ↓] theorem State.modPln_tbs (s : State) (f : Pln → Pln) : (s.modPln f).tbs = s.tbs := (rfl)
@[simp ↓] theorem State.modPln_rst (s : State) (f : Pln → Pln) : (s.modPln f).rst = s.rst := (rfl)
@[simp ↓] theorem State.modPln_boot (s : State) (f : Pln → Pln) : (s.modPln f).boot = s.boot := (rfl)
@[simp ↓] theorem State.modPln_nv (s : State) (f : Pln → Pln) : (s.modPln f).nv = s.nv := (rfl)
@[simp ↓] theorem State.modPln_out (s : State) (f : Pln → Pln) : (s.modPln f).out = s.out := (rfl)
@[simp ↓] theorem State.modPln_fus (s : State) (f : Pln → Pln) : (s.modPln f).fus = s.fus := (rfl)
@[simp ↓] theorem State.modPln_wsh (s : State) (f : Pln → Pln) : (s.modPln f).wsh = s.wsh := (rfl)
@[simp ↓] theorem State.modPln_pln (s : State) (f : Pln → Pln) : (s.modPln f).pln = f s.pln := (rfl)
@[simp ↓] theorem State.modPln_job (s : State) (f : Pln → Pln) : (s.modPln f).job = s.job := (rfl)
@[simp ↓] theorem State.modPln_hlk (s : State) (f : Pln → Pln) : (s.modPln f).hlk = s.hlk := (rfl)
@[simp ↓] theorem State.modPln_sdl (s : State) (f : Pln → Pln) : (s.modPln f).sdl = s.sdl := (rfl)
@[simp ↓] theorem State.modPln_prs (s : State) (f : Pln → Pln) : (s.modPln f).prs = s.prs := (rfl)
@[simp ↓] theorem State.modPln_ldg (s : State) (f : Pln → Pln) : (s.modPln f).ldg = s.ldg := (rfl)
@[simp ↓] theorem State.modPln_kvt (s : State) (f : Pln → Pln) : (s.modPln f).kvt = s.kvt := (rfl)
@[simp ↓] theorem State.modPln_ent (s : State) (f : Pln → Pln) : (s.modPln f).ent = s.ent := (rfl)
@[simp ↓] theorem State.modPln_att (s : State) (f : Pln → Pln) : (s.modPln f).att = s.att := (rfl)
@[simp ↓] theorem State.modPln_tmp (s : State) (f : Pln → Pln) : (s.modPln f).tmp = s.tmp := (rfl)
@[simp ↓] theorem State.modPln_wdg (s : State) (f : Pln → Pln) : (s.modPln f).wdg = s.wdg := (rfl)
@[simp ↓] theorem State.modPln_chp (s : State) (f : Pln → Pln) : (s.modPln f).chp = s.chp := (rfl)
@[simp ↓] theorem State.modPln_evr (s : State) (f : Pln → Pln) : (s.modPln f).evr = s.evr := (rfl)
@[simp ↓] theorem State.modPln_pmc (s : State) (f : Pln → Pln) : (s.modPln f).pmc = s.pmc := (rfl)
@[simp ↓] theorem State.modPln_pending (s : State) (f : Pln → Pln) : (s.modPln f).pending = s.pending := (rfl)
@[simp ↓] theorem State.modJob_glb (s : State) (f : JobB → JobB) : (s.modJob f).glb = s.glb := (rfl)
@[simp ↓] theorem State.modJob_pwr (s : State) (f : JobB → JobB) : (s.modJob f).pwr = s.pwr := (rfl)
@[simp ↓] theorem State.modJob_pins (s : State) (f : JobB → JobB) : (s.modJob f).pins = s.pins := (rfl)
@[simp ↓] theorem State.modJob_aon (s : State) (f : JobB → JobB) : (s.modJob f).aon = s.aon := (rfl)
@[simp ↓] theorem State.modJob_tbs (s : State) (f : JobB → JobB) : (s.modJob f).tbs = s.tbs := (rfl)
@[simp ↓] theorem State.modJob_rst (s : State) (f : JobB → JobB) : (s.modJob f).rst = s.rst := (rfl)
@[simp ↓] theorem State.modJob_boot (s : State) (f : JobB → JobB) : (s.modJob f).boot = s.boot := (rfl)
@[simp ↓] theorem State.modJob_nv (s : State) (f : JobB → JobB) : (s.modJob f).nv = s.nv := (rfl)
@[simp ↓] theorem State.modJob_out (s : State) (f : JobB → JobB) : (s.modJob f).out = s.out := (rfl)
@[simp ↓] theorem State.modJob_fus (s : State) (f : JobB → JobB) : (s.modJob f).fus = s.fus := (rfl)
@[simp ↓] theorem State.modJob_wsh (s : State) (f : JobB → JobB) : (s.modJob f).wsh = s.wsh := (rfl)
@[simp ↓] theorem State.modJob_pln (s : State) (f : JobB → JobB) : (s.modJob f).pln = s.pln := (rfl)
@[simp ↓] theorem State.modJob_job (s : State) (f : JobB → JobB) : (s.modJob f).job = f s.job := (rfl)
@[simp ↓] theorem State.modJob_hlk (s : State) (f : JobB → JobB) : (s.modJob f).hlk = s.hlk := (rfl)
@[simp ↓] theorem State.modJob_sdl (s : State) (f : JobB → JobB) : (s.modJob f).sdl = s.sdl := (rfl)
@[simp ↓] theorem State.modJob_prs (s : State) (f : JobB → JobB) : (s.modJob f).prs = s.prs := (rfl)
@[simp ↓] theorem State.modJob_ldg (s : State) (f : JobB → JobB) : (s.modJob f).ldg = s.ldg := (rfl)
@[simp ↓] theorem State.modJob_kvt (s : State) (f : JobB → JobB) : (s.modJob f).kvt = s.kvt := (rfl)
@[simp ↓] theorem State.modJob_ent (s : State) (f : JobB → JobB) : (s.modJob f).ent = s.ent := (rfl)
@[simp ↓] theorem State.modJob_att (s : State) (f : JobB → JobB) : (s.modJob f).att = s.att := (rfl)
@[simp ↓] theorem State.modJob_tmp (s : State) (f : JobB → JobB) : (s.modJob f).tmp = s.tmp := (rfl)
@[simp ↓] theorem State.modJob_wdg (s : State) (f : JobB → JobB) : (s.modJob f).wdg = s.wdg := (rfl)
@[simp ↓] theorem State.modJob_chp (s : State) (f : JobB → JobB) : (s.modJob f).chp = s.chp := (rfl)
@[simp ↓] theorem State.modJob_evr (s : State) (f : JobB → JobB) : (s.modJob f).evr = s.evr := (rfl)
@[simp ↓] theorem State.modJob_pmc (s : State) (f : JobB → JobB) : (s.modJob f).pmc = s.pmc := (rfl)
@[simp ↓] theorem State.modJob_pending (s : State) (f : JobB → JobB) : (s.modJob f).pending = s.pending := (rfl)
@[simp ↓] theorem State.modHlk_glb (s : State) (f : Hlk → Hlk) : (s.modHlk f).glb = s.glb := (rfl)
@[simp ↓] theorem State.modHlk_pwr (s : State) (f : Hlk → Hlk) : (s.modHlk f).pwr = s.pwr := (rfl)
@[simp ↓] theorem State.modHlk_pins (s : State) (f : Hlk → Hlk) : (s.modHlk f).pins = s.pins := (rfl)
@[simp ↓] theorem State.modHlk_aon (s : State) (f : Hlk → Hlk) : (s.modHlk f).aon = s.aon := (rfl)
@[simp ↓] theorem State.modHlk_tbs (s : State) (f : Hlk → Hlk) : (s.modHlk f).tbs = s.tbs := (rfl)
@[simp ↓] theorem State.modHlk_rst (s : State) (f : Hlk → Hlk) : (s.modHlk f).rst = s.rst := (rfl)
@[simp ↓] theorem State.modHlk_boot (s : State) (f : Hlk → Hlk) : (s.modHlk f).boot = s.boot := (rfl)
@[simp ↓] theorem State.modHlk_nv (s : State) (f : Hlk → Hlk) : (s.modHlk f).nv = s.nv := (rfl)
@[simp ↓] theorem State.modHlk_out (s : State) (f : Hlk → Hlk) : (s.modHlk f).out = s.out := (rfl)
@[simp ↓] theorem State.modHlk_fus (s : State) (f : Hlk → Hlk) : (s.modHlk f).fus = s.fus := (rfl)
@[simp ↓] theorem State.modHlk_wsh (s : State) (f : Hlk → Hlk) : (s.modHlk f).wsh = s.wsh := (rfl)
@[simp ↓] theorem State.modHlk_pln (s : State) (f : Hlk → Hlk) : (s.modHlk f).pln = s.pln := (rfl)
@[simp ↓] theorem State.modHlk_job (s : State) (f : Hlk → Hlk) : (s.modHlk f).job = s.job := (rfl)
@[simp ↓] theorem State.modHlk_hlk (s : State) (f : Hlk → Hlk) : (s.modHlk f).hlk = f s.hlk := (rfl)
@[simp ↓] theorem State.modHlk_sdl (s : State) (f : Hlk → Hlk) : (s.modHlk f).sdl = s.sdl := (rfl)
@[simp ↓] theorem State.modHlk_prs (s : State) (f : Hlk → Hlk) : (s.modHlk f).prs = s.prs := (rfl)
@[simp ↓] theorem State.modHlk_ldg (s : State) (f : Hlk → Hlk) : (s.modHlk f).ldg = s.ldg := (rfl)
@[simp ↓] theorem State.modHlk_kvt (s : State) (f : Hlk → Hlk) : (s.modHlk f).kvt = s.kvt := (rfl)
@[simp ↓] theorem State.modHlk_ent (s : State) (f : Hlk → Hlk) : (s.modHlk f).ent = s.ent := (rfl)
@[simp ↓] theorem State.modHlk_att (s : State) (f : Hlk → Hlk) : (s.modHlk f).att = s.att := (rfl)
@[simp ↓] theorem State.modHlk_tmp (s : State) (f : Hlk → Hlk) : (s.modHlk f).tmp = s.tmp := (rfl)
@[simp ↓] theorem State.modHlk_wdg (s : State) (f : Hlk → Hlk) : (s.modHlk f).wdg = s.wdg := (rfl)
@[simp ↓] theorem State.modHlk_chp (s : State) (f : Hlk → Hlk) : (s.modHlk f).chp = s.chp := (rfl)
@[simp ↓] theorem State.modHlk_evr (s : State) (f : Hlk → Hlk) : (s.modHlk f).evr = s.evr := (rfl)
@[simp ↓] theorem State.modHlk_pmc (s : State) (f : Hlk → Hlk) : (s.modHlk f).pmc = s.pmc := (rfl)
@[simp ↓] theorem State.modHlk_pending (s : State) (f : Hlk → Hlk) : (s.modHlk f).pending = s.pending := (rfl)
@[simp ↓] theorem State.modSdl_glb (s : State) (f : Sdl → Sdl) : (s.modSdl f).glb = s.glb := (rfl)
@[simp ↓] theorem State.modSdl_pwr (s : State) (f : Sdl → Sdl) : (s.modSdl f).pwr = s.pwr := (rfl)
@[simp ↓] theorem State.modSdl_pins (s : State) (f : Sdl → Sdl) : (s.modSdl f).pins = s.pins := (rfl)
@[simp ↓] theorem State.modSdl_aon (s : State) (f : Sdl → Sdl) : (s.modSdl f).aon = s.aon := (rfl)
@[simp ↓] theorem State.modSdl_tbs (s : State) (f : Sdl → Sdl) : (s.modSdl f).tbs = s.tbs := (rfl)
@[simp ↓] theorem State.modSdl_rst (s : State) (f : Sdl → Sdl) : (s.modSdl f).rst = s.rst := (rfl)
@[simp ↓] theorem State.modSdl_boot (s : State) (f : Sdl → Sdl) : (s.modSdl f).boot = s.boot := (rfl)
@[simp ↓] theorem State.modSdl_nv (s : State) (f : Sdl → Sdl) : (s.modSdl f).nv = s.nv := (rfl)
@[simp ↓] theorem State.modSdl_out (s : State) (f : Sdl → Sdl) : (s.modSdl f).out = s.out := (rfl)
@[simp ↓] theorem State.modSdl_fus (s : State) (f : Sdl → Sdl) : (s.modSdl f).fus = s.fus := (rfl)
@[simp ↓] theorem State.modSdl_wsh (s : State) (f : Sdl → Sdl) : (s.modSdl f).wsh = s.wsh := (rfl)
@[simp ↓] theorem State.modSdl_pln (s : State) (f : Sdl → Sdl) : (s.modSdl f).pln = s.pln := (rfl)
@[simp ↓] theorem State.modSdl_job (s : State) (f : Sdl → Sdl) : (s.modSdl f).job = s.job := (rfl)
@[simp ↓] theorem State.modSdl_hlk (s : State) (f : Sdl → Sdl) : (s.modSdl f).hlk = s.hlk := (rfl)
@[simp ↓] theorem State.modSdl_sdl (s : State) (f : Sdl → Sdl) : (s.modSdl f).sdl = f s.sdl := (rfl)
@[simp ↓] theorem State.modSdl_prs (s : State) (f : Sdl → Sdl) : (s.modSdl f).prs = s.prs := (rfl)
@[simp ↓] theorem State.modSdl_ldg (s : State) (f : Sdl → Sdl) : (s.modSdl f).ldg = s.ldg := (rfl)
@[simp ↓] theorem State.modSdl_kvt (s : State) (f : Sdl → Sdl) : (s.modSdl f).kvt = s.kvt := (rfl)
@[simp ↓] theorem State.modSdl_ent (s : State) (f : Sdl → Sdl) : (s.modSdl f).ent = s.ent := (rfl)
@[simp ↓] theorem State.modSdl_att (s : State) (f : Sdl → Sdl) : (s.modSdl f).att = s.att := (rfl)
@[simp ↓] theorem State.modSdl_tmp (s : State) (f : Sdl → Sdl) : (s.modSdl f).tmp = s.tmp := (rfl)
@[simp ↓] theorem State.modSdl_wdg (s : State) (f : Sdl → Sdl) : (s.modSdl f).wdg = s.wdg := (rfl)
@[simp ↓] theorem State.modSdl_chp (s : State) (f : Sdl → Sdl) : (s.modSdl f).chp = s.chp := (rfl)
@[simp ↓] theorem State.modSdl_evr (s : State) (f : Sdl → Sdl) : (s.modSdl f).evr = s.evr := (rfl)
@[simp ↓] theorem State.modSdl_pmc (s : State) (f : Sdl → Sdl) : (s.modSdl f).pmc = s.pmc := (rfl)
@[simp ↓] theorem State.modSdl_pending (s : State) (f : Sdl → Sdl) : (s.modSdl f).pending = s.pending := (rfl)
@[simp ↓] theorem State.modPrs_glb (s : State) (f : Prs → Prs) : (s.modPrs f).glb = s.glb := (rfl)
@[simp ↓] theorem State.modPrs_pwr (s : State) (f : Prs → Prs) : (s.modPrs f).pwr = s.pwr := (rfl)
@[simp ↓] theorem State.modPrs_pins (s : State) (f : Prs → Prs) : (s.modPrs f).pins = s.pins := (rfl)
@[simp ↓] theorem State.modPrs_aon (s : State) (f : Prs → Prs) : (s.modPrs f).aon = s.aon := (rfl)
@[simp ↓] theorem State.modPrs_tbs (s : State) (f : Prs → Prs) : (s.modPrs f).tbs = s.tbs := (rfl)
@[simp ↓] theorem State.modPrs_rst (s : State) (f : Prs → Prs) : (s.modPrs f).rst = s.rst := (rfl)
@[simp ↓] theorem State.modPrs_boot (s : State) (f : Prs → Prs) : (s.modPrs f).boot = s.boot := (rfl)
@[simp ↓] theorem State.modPrs_nv (s : State) (f : Prs → Prs) : (s.modPrs f).nv = s.nv := (rfl)
@[simp ↓] theorem State.modPrs_out (s : State) (f : Prs → Prs) : (s.modPrs f).out = s.out := (rfl)
@[simp ↓] theorem State.modPrs_fus (s : State) (f : Prs → Prs) : (s.modPrs f).fus = s.fus := (rfl)
@[simp ↓] theorem State.modPrs_wsh (s : State) (f : Prs → Prs) : (s.modPrs f).wsh = s.wsh := (rfl)
@[simp ↓] theorem State.modPrs_pln (s : State) (f : Prs → Prs) : (s.modPrs f).pln = s.pln := (rfl)
@[simp ↓] theorem State.modPrs_job (s : State) (f : Prs → Prs) : (s.modPrs f).job = s.job := (rfl)
@[simp ↓] theorem State.modPrs_hlk (s : State) (f : Prs → Prs) : (s.modPrs f).hlk = s.hlk := (rfl)
@[simp ↓] theorem State.modPrs_sdl (s : State) (f : Prs → Prs) : (s.modPrs f).sdl = s.sdl := (rfl)
@[simp ↓] theorem State.modPrs_prs (s : State) (f : Prs → Prs) : (s.modPrs f).prs = f s.prs := (rfl)
@[simp ↓] theorem State.modPrs_ldg (s : State) (f : Prs → Prs) : (s.modPrs f).ldg = s.ldg := (rfl)
@[simp ↓] theorem State.modPrs_kvt (s : State) (f : Prs → Prs) : (s.modPrs f).kvt = s.kvt := (rfl)
@[simp ↓] theorem State.modPrs_ent (s : State) (f : Prs → Prs) : (s.modPrs f).ent = s.ent := (rfl)
@[simp ↓] theorem State.modPrs_att (s : State) (f : Prs → Prs) : (s.modPrs f).att = s.att := (rfl)
@[simp ↓] theorem State.modPrs_tmp (s : State) (f : Prs → Prs) : (s.modPrs f).tmp = s.tmp := (rfl)
@[simp ↓] theorem State.modPrs_wdg (s : State) (f : Prs → Prs) : (s.modPrs f).wdg = s.wdg := (rfl)
@[simp ↓] theorem State.modPrs_chp (s : State) (f : Prs → Prs) : (s.modPrs f).chp = s.chp := (rfl)
@[simp ↓] theorem State.modPrs_evr (s : State) (f : Prs → Prs) : (s.modPrs f).evr = s.evr := (rfl)
@[simp ↓] theorem State.modPrs_pmc (s : State) (f : Prs → Prs) : (s.modPrs f).pmc = s.pmc := (rfl)
@[simp ↓] theorem State.modPrs_pending (s : State) (f : Prs → Prs) : (s.modPrs f).pending = s.pending := (rfl)
@[simp ↓] theorem State.modLdg_glb (s : State) (f : Ldg → Ldg) : (s.modLdg f).glb = s.glb := (rfl)
@[simp ↓] theorem State.modLdg_pwr (s : State) (f : Ldg → Ldg) : (s.modLdg f).pwr = s.pwr := (rfl)
@[simp ↓] theorem State.modLdg_pins (s : State) (f : Ldg → Ldg) : (s.modLdg f).pins = s.pins := (rfl)
@[simp ↓] theorem State.modLdg_aon (s : State) (f : Ldg → Ldg) : (s.modLdg f).aon = s.aon := (rfl)
@[simp ↓] theorem State.modLdg_tbs (s : State) (f : Ldg → Ldg) : (s.modLdg f).tbs = s.tbs := (rfl)
@[simp ↓] theorem State.modLdg_rst (s : State) (f : Ldg → Ldg) : (s.modLdg f).rst = s.rst := (rfl)
@[simp ↓] theorem State.modLdg_boot (s : State) (f : Ldg → Ldg) : (s.modLdg f).boot = s.boot := (rfl)
@[simp ↓] theorem State.modLdg_nv (s : State) (f : Ldg → Ldg) : (s.modLdg f).nv = s.nv := (rfl)
@[simp ↓] theorem State.modLdg_out (s : State) (f : Ldg → Ldg) : (s.modLdg f).out = s.out := (rfl)
@[simp ↓] theorem State.modLdg_fus (s : State) (f : Ldg → Ldg) : (s.modLdg f).fus = s.fus := (rfl)
@[simp ↓] theorem State.modLdg_wsh (s : State) (f : Ldg → Ldg) : (s.modLdg f).wsh = s.wsh := (rfl)
@[simp ↓] theorem State.modLdg_pln (s : State) (f : Ldg → Ldg) : (s.modLdg f).pln = s.pln := (rfl)
@[simp ↓] theorem State.modLdg_job (s : State) (f : Ldg → Ldg) : (s.modLdg f).job = s.job := (rfl)
@[simp ↓] theorem State.modLdg_hlk (s : State) (f : Ldg → Ldg) : (s.modLdg f).hlk = s.hlk := (rfl)
@[simp ↓] theorem State.modLdg_sdl (s : State) (f : Ldg → Ldg) : (s.modLdg f).sdl = s.sdl := (rfl)
@[simp ↓] theorem State.modLdg_prs (s : State) (f : Ldg → Ldg) : (s.modLdg f).prs = s.prs := (rfl)
@[simp ↓] theorem State.modLdg_ldg (s : State) (f : Ldg → Ldg) : (s.modLdg f).ldg = f s.ldg := (rfl)
@[simp ↓] theorem State.modLdg_kvt (s : State) (f : Ldg → Ldg) : (s.modLdg f).kvt = s.kvt := (rfl)
@[simp ↓] theorem State.modLdg_ent (s : State) (f : Ldg → Ldg) : (s.modLdg f).ent = s.ent := (rfl)
@[simp ↓] theorem State.modLdg_att (s : State) (f : Ldg → Ldg) : (s.modLdg f).att = s.att := (rfl)
@[simp ↓] theorem State.modLdg_tmp (s : State) (f : Ldg → Ldg) : (s.modLdg f).tmp = s.tmp := (rfl)
@[simp ↓] theorem State.modLdg_wdg (s : State) (f : Ldg → Ldg) : (s.modLdg f).wdg = s.wdg := (rfl)
@[simp ↓] theorem State.modLdg_chp (s : State) (f : Ldg → Ldg) : (s.modLdg f).chp = s.chp := (rfl)
@[simp ↓] theorem State.modLdg_evr (s : State) (f : Ldg → Ldg) : (s.modLdg f).evr = s.evr := (rfl)
@[simp ↓] theorem State.modLdg_pmc (s : State) (f : Ldg → Ldg) : (s.modLdg f).pmc = s.pmc := (rfl)
@[simp ↓] theorem State.modLdg_pending (s : State) (f : Ldg → Ldg) : (s.modLdg f).pending = s.pending := (rfl)
@[simp ↓] theorem State.modKvt_glb (s : State) (f : Kvt → Kvt) : (s.modKvt f).glb = s.glb := (rfl)
@[simp ↓] theorem State.modKvt_pwr (s : State) (f : Kvt → Kvt) : (s.modKvt f).pwr = s.pwr := (rfl)
@[simp ↓] theorem State.modKvt_pins (s : State) (f : Kvt → Kvt) : (s.modKvt f).pins = s.pins := (rfl)
@[simp ↓] theorem State.modKvt_aon (s : State) (f : Kvt → Kvt) : (s.modKvt f).aon = s.aon := (rfl)
@[simp ↓] theorem State.modKvt_tbs (s : State) (f : Kvt → Kvt) : (s.modKvt f).tbs = s.tbs := (rfl)
@[simp ↓] theorem State.modKvt_rst (s : State) (f : Kvt → Kvt) : (s.modKvt f).rst = s.rst := (rfl)
@[simp ↓] theorem State.modKvt_boot (s : State) (f : Kvt → Kvt) : (s.modKvt f).boot = s.boot := (rfl)
@[simp ↓] theorem State.modKvt_nv (s : State) (f : Kvt → Kvt) : (s.modKvt f).nv = s.nv := (rfl)
@[simp ↓] theorem State.modKvt_out (s : State) (f : Kvt → Kvt) : (s.modKvt f).out = s.out := (rfl)
@[simp ↓] theorem State.modKvt_fus (s : State) (f : Kvt → Kvt) : (s.modKvt f).fus = s.fus := (rfl)
@[simp ↓] theorem State.modKvt_wsh (s : State) (f : Kvt → Kvt) : (s.modKvt f).wsh = s.wsh := (rfl)
@[simp ↓] theorem State.modKvt_pln (s : State) (f : Kvt → Kvt) : (s.modKvt f).pln = s.pln := (rfl)
@[simp ↓] theorem State.modKvt_job (s : State) (f : Kvt → Kvt) : (s.modKvt f).job = s.job := (rfl)
@[simp ↓] theorem State.modKvt_hlk (s : State) (f : Kvt → Kvt) : (s.modKvt f).hlk = s.hlk := (rfl)
@[simp ↓] theorem State.modKvt_sdl (s : State) (f : Kvt → Kvt) : (s.modKvt f).sdl = s.sdl := (rfl)
@[simp ↓] theorem State.modKvt_prs (s : State) (f : Kvt → Kvt) : (s.modKvt f).prs = s.prs := (rfl)
@[simp ↓] theorem State.modKvt_ldg (s : State) (f : Kvt → Kvt) : (s.modKvt f).ldg = s.ldg := (rfl)
@[simp ↓] theorem State.modKvt_kvt (s : State) (f : Kvt → Kvt) : (s.modKvt f).kvt = f s.kvt := (rfl)
@[simp ↓] theorem State.modKvt_ent (s : State) (f : Kvt → Kvt) : (s.modKvt f).ent = s.ent := (rfl)
@[simp ↓] theorem State.modKvt_att (s : State) (f : Kvt → Kvt) : (s.modKvt f).att = s.att := (rfl)
@[simp ↓] theorem State.modKvt_tmp (s : State) (f : Kvt → Kvt) : (s.modKvt f).tmp = s.tmp := (rfl)
@[simp ↓] theorem State.modKvt_wdg (s : State) (f : Kvt → Kvt) : (s.modKvt f).wdg = s.wdg := (rfl)
@[simp ↓] theorem State.modKvt_chp (s : State) (f : Kvt → Kvt) : (s.modKvt f).chp = s.chp := (rfl)
@[simp ↓] theorem State.modKvt_evr (s : State) (f : Kvt → Kvt) : (s.modKvt f).evr = s.evr := (rfl)
@[simp ↓] theorem State.modKvt_pmc (s : State) (f : Kvt → Kvt) : (s.modKvt f).pmc = s.pmc := (rfl)
@[simp ↓] theorem State.modKvt_pending (s : State) (f : Kvt → Kvt) : (s.modKvt f).pending = s.pending := (rfl)
@[simp ↓] theorem State.modEnt_glb (s : State) (f : Ent → Ent) : (s.modEnt f).glb = s.glb := (rfl)
@[simp ↓] theorem State.modEnt_pwr (s : State) (f : Ent → Ent) : (s.modEnt f).pwr = s.pwr := (rfl)
@[simp ↓] theorem State.modEnt_pins (s : State) (f : Ent → Ent) : (s.modEnt f).pins = s.pins := (rfl)
@[simp ↓] theorem State.modEnt_aon (s : State) (f : Ent → Ent) : (s.modEnt f).aon = s.aon := (rfl)
@[simp ↓] theorem State.modEnt_tbs (s : State) (f : Ent → Ent) : (s.modEnt f).tbs = s.tbs := (rfl)
@[simp ↓] theorem State.modEnt_rst (s : State) (f : Ent → Ent) : (s.modEnt f).rst = s.rst := (rfl)
@[simp ↓] theorem State.modEnt_boot (s : State) (f : Ent → Ent) : (s.modEnt f).boot = s.boot := (rfl)
@[simp ↓] theorem State.modEnt_nv (s : State) (f : Ent → Ent) : (s.modEnt f).nv = s.nv := (rfl)
@[simp ↓] theorem State.modEnt_out (s : State) (f : Ent → Ent) : (s.modEnt f).out = s.out := (rfl)
@[simp ↓] theorem State.modEnt_fus (s : State) (f : Ent → Ent) : (s.modEnt f).fus = s.fus := (rfl)
@[simp ↓] theorem State.modEnt_wsh (s : State) (f : Ent → Ent) : (s.modEnt f).wsh = s.wsh := (rfl)
@[simp ↓] theorem State.modEnt_pln (s : State) (f : Ent → Ent) : (s.modEnt f).pln = s.pln := (rfl)
@[simp ↓] theorem State.modEnt_job (s : State) (f : Ent → Ent) : (s.modEnt f).job = s.job := (rfl)
@[simp ↓] theorem State.modEnt_hlk (s : State) (f : Ent → Ent) : (s.modEnt f).hlk = s.hlk := (rfl)
@[simp ↓] theorem State.modEnt_sdl (s : State) (f : Ent → Ent) : (s.modEnt f).sdl = s.sdl := (rfl)
@[simp ↓] theorem State.modEnt_prs (s : State) (f : Ent → Ent) : (s.modEnt f).prs = s.prs := (rfl)
@[simp ↓] theorem State.modEnt_ldg (s : State) (f : Ent → Ent) : (s.modEnt f).ldg = s.ldg := (rfl)
@[simp ↓] theorem State.modEnt_kvt (s : State) (f : Ent → Ent) : (s.modEnt f).kvt = s.kvt := (rfl)
@[simp ↓] theorem State.modEnt_ent (s : State) (f : Ent → Ent) : (s.modEnt f).ent = f s.ent := (rfl)
@[simp ↓] theorem State.modEnt_att (s : State) (f : Ent → Ent) : (s.modEnt f).att = s.att := (rfl)
@[simp ↓] theorem State.modEnt_tmp (s : State) (f : Ent → Ent) : (s.modEnt f).tmp = s.tmp := (rfl)
@[simp ↓] theorem State.modEnt_wdg (s : State) (f : Ent → Ent) : (s.modEnt f).wdg = s.wdg := (rfl)
@[simp ↓] theorem State.modEnt_chp (s : State) (f : Ent → Ent) : (s.modEnt f).chp = s.chp := (rfl)
@[simp ↓] theorem State.modEnt_evr (s : State) (f : Ent → Ent) : (s.modEnt f).evr = s.evr := (rfl)
@[simp ↓] theorem State.modEnt_pmc (s : State) (f : Ent → Ent) : (s.modEnt f).pmc = s.pmc := (rfl)
@[simp ↓] theorem State.modEnt_pending (s : State) (f : Ent → Ent) : (s.modEnt f).pending = s.pending := (rfl)
@[simp ↓] theorem State.modAtt_glb (s : State) (f : Att → Att) : (s.modAtt f).glb = s.glb := (rfl)
@[simp ↓] theorem State.modAtt_pwr (s : State) (f : Att → Att) : (s.modAtt f).pwr = s.pwr := (rfl)
@[simp ↓] theorem State.modAtt_pins (s : State) (f : Att → Att) : (s.modAtt f).pins = s.pins := (rfl)
@[simp ↓] theorem State.modAtt_aon (s : State) (f : Att → Att) : (s.modAtt f).aon = s.aon := (rfl)
@[simp ↓] theorem State.modAtt_tbs (s : State) (f : Att → Att) : (s.modAtt f).tbs = s.tbs := (rfl)
@[simp ↓] theorem State.modAtt_rst (s : State) (f : Att → Att) : (s.modAtt f).rst = s.rst := (rfl)
@[simp ↓] theorem State.modAtt_boot (s : State) (f : Att → Att) : (s.modAtt f).boot = s.boot := (rfl)
@[simp ↓] theorem State.modAtt_nv (s : State) (f : Att → Att) : (s.modAtt f).nv = s.nv := (rfl)
@[simp ↓] theorem State.modAtt_out (s : State) (f : Att → Att) : (s.modAtt f).out = s.out := (rfl)
@[simp ↓] theorem State.modAtt_fus (s : State) (f : Att → Att) : (s.modAtt f).fus = s.fus := (rfl)
@[simp ↓] theorem State.modAtt_wsh (s : State) (f : Att → Att) : (s.modAtt f).wsh = s.wsh := (rfl)
@[simp ↓] theorem State.modAtt_pln (s : State) (f : Att → Att) : (s.modAtt f).pln = s.pln := (rfl)
@[simp ↓] theorem State.modAtt_job (s : State) (f : Att → Att) : (s.modAtt f).job = s.job := (rfl)
@[simp ↓] theorem State.modAtt_hlk (s : State) (f : Att → Att) : (s.modAtt f).hlk = s.hlk := (rfl)
@[simp ↓] theorem State.modAtt_sdl (s : State) (f : Att → Att) : (s.modAtt f).sdl = s.sdl := (rfl)
@[simp ↓] theorem State.modAtt_prs (s : State) (f : Att → Att) : (s.modAtt f).prs = s.prs := (rfl)
@[simp ↓] theorem State.modAtt_ldg (s : State) (f : Att → Att) : (s.modAtt f).ldg = s.ldg := (rfl)
@[simp ↓] theorem State.modAtt_kvt (s : State) (f : Att → Att) : (s.modAtt f).kvt = s.kvt := (rfl)
@[simp ↓] theorem State.modAtt_ent (s : State) (f : Att → Att) : (s.modAtt f).ent = s.ent := (rfl)
@[simp ↓] theorem State.modAtt_att (s : State) (f : Att → Att) : (s.modAtt f).att = f s.att := (rfl)
@[simp ↓] theorem State.modAtt_tmp (s : State) (f : Att → Att) : (s.modAtt f).tmp = s.tmp := (rfl)
@[simp ↓] theorem State.modAtt_wdg (s : State) (f : Att → Att) : (s.modAtt f).wdg = s.wdg := (rfl)
@[simp ↓] theorem State.modAtt_chp (s : State) (f : Att → Att) : (s.modAtt f).chp = s.chp := (rfl)
@[simp ↓] theorem State.modAtt_evr (s : State) (f : Att → Att) : (s.modAtt f).evr = s.evr := (rfl)
@[simp ↓] theorem State.modAtt_pmc (s : State) (f : Att → Att) : (s.modAtt f).pmc = s.pmc := (rfl)
@[simp ↓] theorem State.modAtt_pending (s : State) (f : Att → Att) : (s.modAtt f).pending = s.pending := (rfl)
@[simp ↓] theorem State.modTmp_glb (s : State) (f : Tmp → Tmp) : (s.modTmp f).glb = s.glb := (rfl)
@[simp ↓] theorem State.modTmp_pwr (s : State) (f : Tmp → Tmp) : (s.modTmp f).pwr = s.pwr := (rfl)
@[simp ↓] theorem State.modTmp_pins (s : State) (f : Tmp → Tmp) : (s.modTmp f).pins = s.pins := (rfl)
@[simp ↓] theorem State.modTmp_aon (s : State) (f : Tmp → Tmp) : (s.modTmp f).aon = s.aon := (rfl)
@[simp ↓] theorem State.modTmp_tbs (s : State) (f : Tmp → Tmp) : (s.modTmp f).tbs = s.tbs := (rfl)
@[simp ↓] theorem State.modTmp_rst (s : State) (f : Tmp → Tmp) : (s.modTmp f).rst = s.rst := (rfl)
@[simp ↓] theorem State.modTmp_boot (s : State) (f : Tmp → Tmp) : (s.modTmp f).boot = s.boot := (rfl)
@[simp ↓] theorem State.modTmp_nv (s : State) (f : Tmp → Tmp) : (s.modTmp f).nv = s.nv := (rfl)
@[simp ↓] theorem State.modTmp_out (s : State) (f : Tmp → Tmp) : (s.modTmp f).out = s.out := (rfl)
@[simp ↓] theorem State.modTmp_fus (s : State) (f : Tmp → Tmp) : (s.modTmp f).fus = s.fus := (rfl)
@[simp ↓] theorem State.modTmp_wsh (s : State) (f : Tmp → Tmp) : (s.modTmp f).wsh = s.wsh := (rfl)
@[simp ↓] theorem State.modTmp_pln (s : State) (f : Tmp → Tmp) : (s.modTmp f).pln = s.pln := (rfl)
@[simp ↓] theorem State.modTmp_job (s : State) (f : Tmp → Tmp) : (s.modTmp f).job = s.job := (rfl)
@[simp ↓] theorem State.modTmp_hlk (s : State) (f : Tmp → Tmp) : (s.modTmp f).hlk = s.hlk := (rfl)
@[simp ↓] theorem State.modTmp_sdl (s : State) (f : Tmp → Tmp) : (s.modTmp f).sdl = s.sdl := (rfl)
@[simp ↓] theorem State.modTmp_prs (s : State) (f : Tmp → Tmp) : (s.modTmp f).prs = s.prs := (rfl)
@[simp ↓] theorem State.modTmp_ldg (s : State) (f : Tmp → Tmp) : (s.modTmp f).ldg = s.ldg := (rfl)
@[simp ↓] theorem State.modTmp_kvt (s : State) (f : Tmp → Tmp) : (s.modTmp f).kvt = s.kvt := (rfl)
@[simp ↓] theorem State.modTmp_ent (s : State) (f : Tmp → Tmp) : (s.modTmp f).ent = s.ent := (rfl)
@[simp ↓] theorem State.modTmp_att (s : State) (f : Tmp → Tmp) : (s.modTmp f).att = s.att := (rfl)
@[simp ↓] theorem State.modTmp_tmp (s : State) (f : Tmp → Tmp) : (s.modTmp f).tmp = f s.tmp := (rfl)
@[simp ↓] theorem State.modTmp_wdg (s : State) (f : Tmp → Tmp) : (s.modTmp f).wdg = s.wdg := (rfl)
@[simp ↓] theorem State.modTmp_chp (s : State) (f : Tmp → Tmp) : (s.modTmp f).chp = s.chp := (rfl)
@[simp ↓] theorem State.modTmp_evr (s : State) (f : Tmp → Tmp) : (s.modTmp f).evr = s.evr := (rfl)
@[simp ↓] theorem State.modTmp_pmc (s : State) (f : Tmp → Tmp) : (s.modTmp f).pmc = s.pmc := (rfl)
@[simp ↓] theorem State.modTmp_pending (s : State) (f : Tmp → Tmp) : (s.modTmp f).pending = s.pending := (rfl)
@[simp ↓] theorem State.modWdg_glb (s : State) (f : Wdg → Wdg) : (s.modWdg f).glb = s.glb := (rfl)
@[simp ↓] theorem State.modWdg_pwr (s : State) (f : Wdg → Wdg) : (s.modWdg f).pwr = s.pwr := (rfl)
@[simp ↓] theorem State.modWdg_pins (s : State) (f : Wdg → Wdg) : (s.modWdg f).pins = s.pins := (rfl)
@[simp ↓] theorem State.modWdg_aon (s : State) (f : Wdg → Wdg) : (s.modWdg f).aon = s.aon := (rfl)
@[simp ↓] theorem State.modWdg_tbs (s : State) (f : Wdg → Wdg) : (s.modWdg f).tbs = s.tbs := (rfl)
@[simp ↓] theorem State.modWdg_rst (s : State) (f : Wdg → Wdg) : (s.modWdg f).rst = s.rst := (rfl)
@[simp ↓] theorem State.modWdg_boot (s : State) (f : Wdg → Wdg) : (s.modWdg f).boot = s.boot := (rfl)
@[simp ↓] theorem State.modWdg_nv (s : State) (f : Wdg → Wdg) : (s.modWdg f).nv = s.nv := (rfl)
@[simp ↓] theorem State.modWdg_out (s : State) (f : Wdg → Wdg) : (s.modWdg f).out = s.out := (rfl)
@[simp ↓] theorem State.modWdg_fus (s : State) (f : Wdg → Wdg) : (s.modWdg f).fus = s.fus := (rfl)
@[simp ↓] theorem State.modWdg_wsh (s : State) (f : Wdg → Wdg) : (s.modWdg f).wsh = s.wsh := (rfl)
@[simp ↓] theorem State.modWdg_pln (s : State) (f : Wdg → Wdg) : (s.modWdg f).pln = s.pln := (rfl)
@[simp ↓] theorem State.modWdg_job (s : State) (f : Wdg → Wdg) : (s.modWdg f).job = s.job := (rfl)
@[simp ↓] theorem State.modWdg_hlk (s : State) (f : Wdg → Wdg) : (s.modWdg f).hlk = s.hlk := (rfl)
@[simp ↓] theorem State.modWdg_sdl (s : State) (f : Wdg → Wdg) : (s.modWdg f).sdl = s.sdl := (rfl)
@[simp ↓] theorem State.modWdg_prs (s : State) (f : Wdg → Wdg) : (s.modWdg f).prs = s.prs := (rfl)
@[simp ↓] theorem State.modWdg_ldg (s : State) (f : Wdg → Wdg) : (s.modWdg f).ldg = s.ldg := (rfl)
@[simp ↓] theorem State.modWdg_kvt (s : State) (f : Wdg → Wdg) : (s.modWdg f).kvt = s.kvt := (rfl)
@[simp ↓] theorem State.modWdg_ent (s : State) (f : Wdg → Wdg) : (s.modWdg f).ent = s.ent := (rfl)
@[simp ↓] theorem State.modWdg_att (s : State) (f : Wdg → Wdg) : (s.modWdg f).att = s.att := (rfl)
@[simp ↓] theorem State.modWdg_tmp (s : State) (f : Wdg → Wdg) : (s.modWdg f).tmp = s.tmp := (rfl)
@[simp ↓] theorem State.modWdg_wdg (s : State) (f : Wdg → Wdg) : (s.modWdg f).wdg = f s.wdg := (rfl)
@[simp ↓] theorem State.modWdg_chp (s : State) (f : Wdg → Wdg) : (s.modWdg f).chp = s.chp := (rfl)
@[simp ↓] theorem State.modWdg_evr (s : State) (f : Wdg → Wdg) : (s.modWdg f).evr = s.evr := (rfl)
@[simp ↓] theorem State.modWdg_pmc (s : State) (f : Wdg → Wdg) : (s.modWdg f).pmc = s.pmc := (rfl)
@[simp ↓] theorem State.modWdg_pending (s : State) (f : Wdg → Wdg) : (s.modWdg f).pending = s.pending := (rfl)
@[simp ↓] theorem State.modChp_glb (s : State) (f : Chp → Chp) : (s.modChp f).glb = s.glb := (rfl)
@[simp ↓] theorem State.modChp_pwr (s : State) (f : Chp → Chp) : (s.modChp f).pwr = s.pwr := (rfl)
@[simp ↓] theorem State.modChp_pins (s : State) (f : Chp → Chp) : (s.modChp f).pins = s.pins := (rfl)
@[simp ↓] theorem State.modChp_aon (s : State) (f : Chp → Chp) : (s.modChp f).aon = s.aon := (rfl)
@[simp ↓] theorem State.modChp_tbs (s : State) (f : Chp → Chp) : (s.modChp f).tbs = s.tbs := (rfl)
@[simp ↓] theorem State.modChp_rst (s : State) (f : Chp → Chp) : (s.modChp f).rst = s.rst := (rfl)
@[simp ↓] theorem State.modChp_boot (s : State) (f : Chp → Chp) : (s.modChp f).boot = s.boot := (rfl)
@[simp ↓] theorem State.modChp_nv (s : State) (f : Chp → Chp) : (s.modChp f).nv = s.nv := (rfl)
@[simp ↓] theorem State.modChp_out (s : State) (f : Chp → Chp) : (s.modChp f).out = s.out := (rfl)
@[simp ↓] theorem State.modChp_fus (s : State) (f : Chp → Chp) : (s.modChp f).fus = s.fus := (rfl)
@[simp ↓] theorem State.modChp_wsh (s : State) (f : Chp → Chp) : (s.modChp f).wsh = s.wsh := (rfl)
@[simp ↓] theorem State.modChp_pln (s : State) (f : Chp → Chp) : (s.modChp f).pln = s.pln := (rfl)
@[simp ↓] theorem State.modChp_job (s : State) (f : Chp → Chp) : (s.modChp f).job = s.job := (rfl)
@[simp ↓] theorem State.modChp_hlk (s : State) (f : Chp → Chp) : (s.modChp f).hlk = s.hlk := (rfl)
@[simp ↓] theorem State.modChp_sdl (s : State) (f : Chp → Chp) : (s.modChp f).sdl = s.sdl := (rfl)
@[simp ↓] theorem State.modChp_prs (s : State) (f : Chp → Chp) : (s.modChp f).prs = s.prs := (rfl)
@[simp ↓] theorem State.modChp_ldg (s : State) (f : Chp → Chp) : (s.modChp f).ldg = s.ldg := (rfl)
@[simp ↓] theorem State.modChp_kvt (s : State) (f : Chp → Chp) : (s.modChp f).kvt = s.kvt := (rfl)
@[simp ↓] theorem State.modChp_ent (s : State) (f : Chp → Chp) : (s.modChp f).ent = s.ent := (rfl)
@[simp ↓] theorem State.modChp_att (s : State) (f : Chp → Chp) : (s.modChp f).att = s.att := (rfl)
@[simp ↓] theorem State.modChp_tmp (s : State) (f : Chp → Chp) : (s.modChp f).tmp = s.tmp := (rfl)
@[simp ↓] theorem State.modChp_wdg (s : State) (f : Chp → Chp) : (s.modChp f).wdg = s.wdg := (rfl)
@[simp ↓] theorem State.modChp_chp (s : State) (f : Chp → Chp) : (s.modChp f).chp = f s.chp := (rfl)
@[simp ↓] theorem State.modChp_evr (s : State) (f : Chp → Chp) : (s.modChp f).evr = s.evr := (rfl)
@[simp ↓] theorem State.modChp_pmc (s : State) (f : Chp → Chp) : (s.modChp f).pmc = s.pmc := (rfl)
@[simp ↓] theorem State.modChp_pending (s : State) (f : Chp → Chp) : (s.modChp f).pending = s.pending := (rfl)
@[simp ↓] theorem State.modEvr_glb (s : State) (f : Evr → Evr) : (s.modEvr f).glb = s.glb := (rfl)
@[simp ↓] theorem State.modEvr_pwr (s : State) (f : Evr → Evr) : (s.modEvr f).pwr = s.pwr := (rfl)
@[simp ↓] theorem State.modEvr_pins (s : State) (f : Evr → Evr) : (s.modEvr f).pins = s.pins := (rfl)
@[simp ↓] theorem State.modEvr_aon (s : State) (f : Evr → Evr) : (s.modEvr f).aon = s.aon := (rfl)
@[simp ↓] theorem State.modEvr_tbs (s : State) (f : Evr → Evr) : (s.modEvr f).tbs = s.tbs := (rfl)
@[simp ↓] theorem State.modEvr_rst (s : State) (f : Evr → Evr) : (s.modEvr f).rst = s.rst := (rfl)
@[simp ↓] theorem State.modEvr_boot (s : State) (f : Evr → Evr) : (s.modEvr f).boot = s.boot := (rfl)
@[simp ↓] theorem State.modEvr_nv (s : State) (f : Evr → Evr) : (s.modEvr f).nv = s.nv := (rfl)
@[simp ↓] theorem State.modEvr_out (s : State) (f : Evr → Evr) : (s.modEvr f).out = s.out := (rfl)
@[simp ↓] theorem State.modEvr_fus (s : State) (f : Evr → Evr) : (s.modEvr f).fus = s.fus := (rfl)
@[simp ↓] theorem State.modEvr_wsh (s : State) (f : Evr → Evr) : (s.modEvr f).wsh = s.wsh := (rfl)
@[simp ↓] theorem State.modEvr_pln (s : State) (f : Evr → Evr) : (s.modEvr f).pln = s.pln := (rfl)
@[simp ↓] theorem State.modEvr_job (s : State) (f : Evr → Evr) : (s.modEvr f).job = s.job := (rfl)
@[simp ↓] theorem State.modEvr_hlk (s : State) (f : Evr → Evr) : (s.modEvr f).hlk = s.hlk := (rfl)
@[simp ↓] theorem State.modEvr_sdl (s : State) (f : Evr → Evr) : (s.modEvr f).sdl = s.sdl := (rfl)
@[simp ↓] theorem State.modEvr_prs (s : State) (f : Evr → Evr) : (s.modEvr f).prs = s.prs := (rfl)
@[simp ↓] theorem State.modEvr_ldg (s : State) (f : Evr → Evr) : (s.modEvr f).ldg = s.ldg := (rfl)
@[simp ↓] theorem State.modEvr_kvt (s : State) (f : Evr → Evr) : (s.modEvr f).kvt = s.kvt := (rfl)
@[simp ↓] theorem State.modEvr_ent (s : State) (f : Evr → Evr) : (s.modEvr f).ent = s.ent := (rfl)
@[simp ↓] theorem State.modEvr_att (s : State) (f : Evr → Evr) : (s.modEvr f).att = s.att := (rfl)
@[simp ↓] theorem State.modEvr_tmp (s : State) (f : Evr → Evr) : (s.modEvr f).tmp = s.tmp := (rfl)
@[simp ↓] theorem State.modEvr_wdg (s : State) (f : Evr → Evr) : (s.modEvr f).wdg = s.wdg := (rfl)
@[simp ↓] theorem State.modEvr_chp (s : State) (f : Evr → Evr) : (s.modEvr f).chp = s.chp := (rfl)
@[simp ↓] theorem State.modEvr_evr (s : State) (f : Evr → Evr) : (s.modEvr f).evr = f s.evr := (rfl)
@[simp ↓] theorem State.modEvr_pmc (s : State) (f : Evr → Evr) : (s.modEvr f).pmc = s.pmc := (rfl)
@[simp ↓] theorem State.modEvr_pending (s : State) (f : Evr → Evr) : (s.modEvr f).pending = s.pending := (rfl)
@[simp ↓] theorem State.modPmc_glb (s : State) (f : Pmc → Pmc) : (s.modPmc f).glb = s.glb := (rfl)
@[simp ↓] theorem State.modPmc_pwr (s : State) (f : Pmc → Pmc) : (s.modPmc f).pwr = s.pwr := (rfl)
@[simp ↓] theorem State.modPmc_pins (s : State) (f : Pmc → Pmc) : (s.modPmc f).pins = s.pins := (rfl)
@[simp ↓] theorem State.modPmc_aon (s : State) (f : Pmc → Pmc) : (s.modPmc f).aon = s.aon := (rfl)
@[simp ↓] theorem State.modPmc_tbs (s : State) (f : Pmc → Pmc) : (s.modPmc f).tbs = s.tbs := (rfl)
@[simp ↓] theorem State.modPmc_rst (s : State) (f : Pmc → Pmc) : (s.modPmc f).rst = s.rst := (rfl)
@[simp ↓] theorem State.modPmc_boot (s : State) (f : Pmc → Pmc) : (s.modPmc f).boot = s.boot := (rfl)
@[simp ↓] theorem State.modPmc_nv (s : State) (f : Pmc → Pmc) : (s.modPmc f).nv = s.nv := (rfl)
@[simp ↓] theorem State.modPmc_out (s : State) (f : Pmc → Pmc) : (s.modPmc f).out = s.out := (rfl)
@[simp ↓] theorem State.modPmc_fus (s : State) (f : Pmc → Pmc) : (s.modPmc f).fus = s.fus := (rfl)
@[simp ↓] theorem State.modPmc_wsh (s : State) (f : Pmc → Pmc) : (s.modPmc f).wsh = s.wsh := (rfl)
@[simp ↓] theorem State.modPmc_pln (s : State) (f : Pmc → Pmc) : (s.modPmc f).pln = s.pln := (rfl)
@[simp ↓] theorem State.modPmc_job (s : State) (f : Pmc → Pmc) : (s.modPmc f).job = s.job := (rfl)
@[simp ↓] theorem State.modPmc_hlk (s : State) (f : Pmc → Pmc) : (s.modPmc f).hlk = s.hlk := (rfl)
@[simp ↓] theorem State.modPmc_sdl (s : State) (f : Pmc → Pmc) : (s.modPmc f).sdl = s.sdl := (rfl)
@[simp ↓] theorem State.modPmc_prs (s : State) (f : Pmc → Pmc) : (s.modPmc f).prs = s.prs := (rfl)
@[simp ↓] theorem State.modPmc_ldg (s : State) (f : Pmc → Pmc) : (s.modPmc f).ldg = s.ldg := (rfl)
@[simp ↓] theorem State.modPmc_kvt (s : State) (f : Pmc → Pmc) : (s.modPmc f).kvt = s.kvt := (rfl)
@[simp ↓] theorem State.modPmc_ent (s : State) (f : Pmc → Pmc) : (s.modPmc f).ent = s.ent := (rfl)
@[simp ↓] theorem State.modPmc_att (s : State) (f : Pmc → Pmc) : (s.modPmc f).att = s.att := (rfl)
@[simp ↓] theorem State.modPmc_tmp (s : State) (f : Pmc → Pmc) : (s.modPmc f).tmp = s.tmp := (rfl)
@[simp ↓] theorem State.modPmc_wdg (s : State) (f : Pmc → Pmc) : (s.modPmc f).wdg = s.wdg := (rfl)
@[simp ↓] theorem State.modPmc_chp (s : State) (f : Pmc → Pmc) : (s.modPmc f).chp = s.chp := (rfl)
@[simp ↓] theorem State.modPmc_evr (s : State) (f : Pmc → Pmc) : (s.modPmc f).evr = s.evr := (rfl)
@[simp ↓] theorem State.modPmc_pmc (s : State) (f : Pmc → Pmc) : (s.modPmc f).pmc = f s.pmc := (rfl)
@[simp ↓] theorem State.modPmc_pending (s : State) (f : Pmc → Pmc) : (s.modPmc f).pending = s.pending := (rfl)

end Sys2Proof.Machine
end

