-- ==== Sys2Proof/Laws/Hide.lean ====
section
/-! SUPPORT. What an operation leaves of the state, said once for each: with the blocks it may change put out of sight, the
state after reads as the state before. -/

namespace Sys2Proof.Machine

/-- The state with the blocks of a mask out of sight, bit `i` for the `i`-th field of State. -/
def hide (m : BitVec 26) (s : State) : State where
  glb := bif m.getLsbD 0 then {} else s.glb
  pwr := bif m.getLsbD 1 then {} else s.pwr
  pins := bif m.getLsbD 2 then {} else s.pins
  aon := bif m.getLsbD 3 then {} else s.aon
  tbs := bif m.getLsbD 4 then {} else s.tbs
  rst := bif m.getLsbD 5 then {} else s.rst
  boot := bif m.getLsbD 6 then {} else s.boot
  nv := bif m.getLsbD 7 then {} else s.nv
  out := bif m.getLsbD 8 then {} else s.out
  fus := bif m.getLsbD 9 then {} else s.fus
  wsh := bif m.getLsbD 10 then {} else s.wsh
  pln := bif m.getLsbD 11 then {} else s.pln
  job := bif m.getLsbD 12 then {} else s.job
  hlk := bif m.getLsbD 13 then {} else s.hlk
  sdl := bif m.getLsbD 14 then {} else s.sdl
  prs := bif m.getLsbD 15 then {} else s.prs
  ldg := bif m.getLsbD 16 then {} else s.ldg
  kvt := bif m.getLsbD 17 then {} else s.kvt
  ent := bif m.getLsbD 18 then {} else s.ent
  att := bif m.getLsbD 19 then {} else s.att
  tmp := bif m.getLsbD 20 then {} else s.tmp
  wdg := bif m.getLsbD 21 then {} else s.wdg
  chp := bif m.getLsbD 22 then {} else s.chp
  evr := bif m.getLsbD 23 then {} else s.evr
  pmc := bif m.getLsbD 24 then {} else s.pmc
  pending := bif m.getLsbD 25 then [] else s.pending

theorem getLsbD_of_sub {k m : BitVec 26} (h : k &&& ~~~m = 0#26) (i : Nat) (hi : k.getLsbD i = true) : m.getLsbD i = true := by
  have := congrArg (·.getLsbD i) h
  simp only [BitVec.getLsbD_and, hi, BitVec.getLsbD_not, BitVec.getLsbD_zero, Bool.true_and] at this
  have l : i < 26 := BitVec.lt_of_getLsbD hi
  simpa [l] using this

theorem hide_glb {m : BitVec 26} {x y : State} (h : hide m x = hide m y) (hm : m.getLsbD 0 = false) : x.glb = y.glb := by
  simpa only [hide, hm, cond_false] using congrArg State.glb h
theorem hide_pwr {m : BitVec 26} {x y : State} (h : hide m x = hide m y) (hm : m.getLsbD 1 = false) : x.pwr = y.pwr := by
  simpa only [hide, hm, cond_false] using congrArg State.pwr h
theorem hide_pins {m : BitVec 26} {x y : State} (h : hide m x = hide m y) (hm : m.getLsbD 2 = false) : x.pins = y.pins := by
  simpa only [hide, hm, cond_false] using congrArg State.pins h
theorem hide_aon {m : BitVec 26} {x y : State} (h : hide m x = hide m y) (hm : m.getLsbD 3 = false) : x.aon = y.aon := by
  simpa only [hide, hm, cond_false] using congrArg State.aon h
theorem hide_tbs {m : BitVec 26} {x y : State} (h : hide m x = hide m y) (hm : m.getLsbD 4 = false) : x.tbs = y.tbs := by
  simpa only [hide, hm, cond_false] using congrArg State.tbs h
theorem hide_rst {m : BitVec 26} {x y : State} (h : hide m x = hide m y) (hm : m.getLsbD 5 = false) : x.rst = y.rst := by
  simpa only [hide, hm, cond_false] using congrArg State.rst h
theorem hide_boot {m : BitVec 26} {x y : State} (h : hide m x = hide m y) (hm : m.getLsbD 6 = false) : x.boot = y.boot := by
  simpa only [hide, hm, cond_false] using congrArg State.boot h
theorem hide_nv {m : BitVec 26} {x y : State} (h : hide m x = hide m y) (hm : m.getLsbD 7 = false) : x.nv = y.nv := by
  simpa only [hide, hm, cond_false] using congrArg State.nv h
theorem hide_out {m : BitVec 26} {x y : State} (h : hide m x = hide m y) (hm : m.getLsbD 8 = false) : x.out = y.out := by
  simpa only [hide, hm, cond_false] using congrArg State.out h
theorem hide_fus {m : BitVec 26} {x y : State} (h : hide m x = hide m y) (hm : m.getLsbD 9 = false) : x.fus = y.fus := by
  simpa only [hide, hm, cond_false] using congrArg State.fus h
theorem hide_wsh {m : BitVec 26} {x y : State} (h : hide m x = hide m y) (hm : m.getLsbD 10 = false) : x.wsh = y.wsh := by
  simpa only [hide, hm, cond_false] using congrArg State.wsh h
theorem hide_pln {m : BitVec 26} {x y : State} (h : hide m x = hide m y) (hm : m.getLsbD 11 = false) : x.pln = y.pln := by
  simpa only [hide, hm, cond_false] using congrArg State.pln h
theorem hide_job {m : BitVec 26} {x y : State} (h : hide m x = hide m y) (hm : m.getLsbD 12 = false) : x.job = y.job := by
  simpa only [hide, hm, cond_false] using congrArg State.job h
theorem hide_hlk {m : BitVec 26} {x y : State} (h : hide m x = hide m y) (hm : m.getLsbD 13 = false) : x.hlk = y.hlk := by
  simpa only [hide, hm, cond_false] using congrArg State.hlk h
theorem hide_sdl {m : BitVec 26} {x y : State} (h : hide m x = hide m y) (hm : m.getLsbD 14 = false) : x.sdl = y.sdl := by
  simpa only [hide, hm, cond_false] using congrArg State.sdl h
theorem hide_prs {m : BitVec 26} {x y : State} (h : hide m x = hide m y) (hm : m.getLsbD 15 = false) : x.prs = y.prs := by
  simpa only [hide, hm, cond_false] using congrArg State.prs h
theorem hide_ldg {m : BitVec 26} {x y : State} (h : hide m x = hide m y) (hm : m.getLsbD 16 = false) : x.ldg = y.ldg := by
  simpa only [hide, hm, cond_false] using congrArg State.ldg h
theorem hide_kvt {m : BitVec 26} {x y : State} (h : hide m x = hide m y) (hm : m.getLsbD 17 = false) : x.kvt = y.kvt := by
  simpa only [hide, hm, cond_false] using congrArg State.kvt h
theorem hide_ent {m : BitVec 26} {x y : State} (h : hide m x = hide m y) (hm : m.getLsbD 18 = false) : x.ent = y.ent := by
  simpa only [hide, hm, cond_false] using congrArg State.ent h
theorem hide_att {m : BitVec 26} {x y : State} (h : hide m x = hide m y) (hm : m.getLsbD 19 = false) : x.att = y.att := by
  simpa only [hide, hm, cond_false] using congrArg State.att h
theorem hide_tmp {m : BitVec 26} {x y : State} (h : hide m x = hide m y) (hm : m.getLsbD 20 = false) : x.tmp = y.tmp := by
  simpa only [hide, hm, cond_false] using congrArg State.tmp h
theorem hide_wdg {m : BitVec 26} {x y : State} (h : hide m x = hide m y) (hm : m.getLsbD 21 = false) : x.wdg = y.wdg := by
  simpa only [hide, hm, cond_false] using congrArg State.wdg h
theorem hide_chp {m : BitVec 26} {x y : State} (h : hide m x = hide m y) (hm : m.getLsbD 22 = false) : x.chp = y.chp := by
  simpa only [hide, hm, cond_false] using congrArg State.chp h
theorem hide_evr {m : BitVec 26} {x y : State} (h : hide m x = hide m y) (hm : m.getLsbD 23 = false) : x.evr = y.evr := by
  simpa only [hide, hm, cond_false] using congrArg State.evr h
theorem hide_pmc {m : BitVec 26} {x y : State} (h : hide m x = hide m y) (hm : m.getLsbD 24 = false) : x.pmc = y.pmc := by
  simpa only [hide, hm, cond_false] using congrArg State.pmc h
theorem hide_pending {m : BitVec 26} {x y : State} (h : hide m x = hide m y) (hm : m.getLsbD 25 = false) : x.pending = y.pending := by
  simpa only [hide, hm, cond_false] using congrArg State.pending h

theorem sub_trans {k l m : BitVec 26} (a : k &&& ~~~l = 0#26) (b : l &&& ~~~m = 0#26) : k &&& ~~~m = 0#26 := by
  ext i hi
  have q := getLsbD_of_sub b i
  have p := getLsbD_of_sub a i
  simp only [← BitVec.getLsbD_eq_getElem] at *
  simp only [BitVec.getLsbD_and, BitVec.getLsbD_not, BitVec.getLsbD_zero, hi, decide_true, Bool.true_and]
  cases hk : k.getLsbD i
  · rfl
  · rw [q (p hk)]; rfl

/-- Hiding more. -/
theorem hide_le {k m : BitVec 26} {x y : State} (h : hide k x = hide k y) (s : k &&& ~~~m = 0#26) : hide m x = hide m y := by
  have e : ∀ z, hide m (hide k z) = hide m z := by
    intro z
    have b : ∀ {α : Type} (i : Nat) (p q : α), (bif m.getLsbD i then p else bif k.getLsbD i then p else q) = bif m.getLsbD i then p else q := by
      intro α i p q
      cases hk : k.getLsbD i
      · rfl
      · rw [getLsbD_of_sub s i hk]; rfl
    simp only [hide, b]
  rw [← e x, h, e]

@[simp ↓] theorem hide_modGlb (m : BitVec 26) (s : State) (f : Glb → Glb) (h : 0x1#26 &&& ~~~m = 0#26) :
    hide m (s.modGlb f) = hide m s := hide_le (k := 0x1#26) rfl h
@[simp ↓] theorem hide_modPwr (m : BitVec 26) (s : State) (f : Pwr → Pwr) (h : 0x2#26 &&& ~~~m = 0#26) :
    hide m (s.modPwr f) = hide m s := hide_le (k := 0x2#26) rfl h
@[simp ↓] theorem hide_modPins (m : BitVec 26) (s : State) (f : Pins → Pins) (h : 0x4#26 &&& ~~~m = 0#26) :
    hide m (s.modPins f) = hide m s := hide_le (k := 0x4#26) rfl h
@[simp ↓] theorem hide_modAon (m : BitVec 26) (s : State) (f : Aon → Aon) (h : 0x8#26 &&& ~~~m = 0#26) :
    hide m (s.modAon f) = hide m s := hide_le (k := 0x8#26) rfl h
@[simp ↓] theorem hide_modTbs (m : BitVec 26) (s : State) (f : Tbs → Tbs) (h : 0x10#26 &&& ~~~m = 0#26) :
    hide m (s.modTbs f) = hide m s := hide_le (k := 0x10#26) rfl h
@[simp ↓] theorem hide_modRst (m : BitVec 26) (s : State) (f : Rst → Rst) (h : 0x20#26 &&& ~~~m = 0#26) :
    hide m (s.modRst f) = hide m s := hide_le (k := 0x20#26) rfl h
@[simp ↓] theorem hide_modBoot (m : BitVec 26) (s : State) (f : Boot → Boot) (h : 0x40#26 &&& ~~~m = 0#26) :
    hide m (s.modBoot f) = hide m s := hide_le (k := 0x40#26) rfl h
@[simp ↓] theorem hide_modNv (m : BitVec 26) (s : State) (f : Nv → Nv) (h : 0x80#26 &&& ~~~m = 0#26) :
    hide m (s.modNv f) = hide m s := hide_le (k := 0x80#26) rfl h
@[simp ↓] theorem hide_modOut (m : BitVec 26) (s : State) (f : Out → Out) (h : 0x100#26 &&& ~~~m = 0#26) :
    hide m (s.modOut f) = hide m s := hide_le (k := 0x100#26) rfl h
@[simp ↓] theorem hide_modFus (m : BitVec 26) (s : State) (f : Fus → Fus) (h : 0x200#26 &&& ~~~m = 0#26) :
    hide m (s.modFus f) = hide m s := hide_le (k := 0x200#26) rfl h
@[simp ↓] theorem hide_modWsh (m : BitVec 26) (s : State) (f : Wsh → Wsh) (h : 0x400#26 &&& ~~~m = 0#26) :
    hide m (s.modWsh f) = hide m s := hide_le (k := 0x400#26) rfl h
@[simp ↓] theorem hide_modPln (m : BitVec 26) (s : State) (f : Pln → Pln) (h : 0x800#26 &&& ~~~m = 0#26) :
    hide m (s.modPln f) = hide m s := hide_le (k := 0x800#26) rfl h
@[simp ↓] theorem hide_modJob (m : BitVec 26) (s : State) (f : JobB → JobB) (h : 0x1000#26 &&& ~~~m = 0#26) :
    hide m (s.modJob f) = hide m s := hide_le (k := 0x1000#26) rfl h
@[simp ↓] theorem hide_modHlk (m : BitVec 26) (s : State) (f : Hlk → Hlk) (h : 0x2000#26 &&& ~~~m = 0#26) :
    hide m (s.modHlk f) = hide m s := hide_le (k := 0x2000#26) rfl h
@[simp ↓] theorem hide_modSdl (m : BitVec 26) (s : State) (f : Sdl → Sdl) (h : 0x4000#26 &&& ~~~m = 0#26) :
    hide m (s.modSdl f) = hide m s := hide_le (k := 0x4000#26) rfl h
@[simp ↓] theorem hide_modPrs (m : BitVec 26) (s : State) (f : Prs → Prs) (h : 0x8000#26 &&& ~~~m = 0#26) :
    hide m (s.modPrs f) = hide m s := hide_le (k := 0x8000#26) rfl h
@[simp ↓] theorem hide_modLdg (m : BitVec 26) (s : State) (f : Ldg → Ldg) (h : 0x10000#26 &&& ~~~m = 0#26) :
    hide m (s.modLdg f) = hide m s := hide_le (k := 0x10000#26) rfl h
@[simp ↓] theorem hide_modKvt (m : BitVec 26) (s : State) (f : Kvt → Kvt) (h : 0x20000#26 &&& ~~~m = 0#26) :
    hide m (s.modKvt f) = hide m s := hide_le (k := 0x20000#26) rfl h
@[simp ↓] theorem hide_modEnt (m : BitVec 26) (s : State) (f : Ent → Ent) (h : 0x40000#26 &&& ~~~m = 0#26) :
    hide m (s.modEnt f) = hide m s := hide_le (k := 0x40000#26) rfl h
@[simp ↓] theorem hide_modAtt (m : BitVec 26) (s : State) (f : Att → Att) (h : 0x80000#26 &&& ~~~m = 0#26) :
    hide m (s.modAtt f) = hide m s := hide_le (k := 0x80000#26) rfl h
@[simp ↓] theorem hide_modTmp (m : BitVec 26) (s : State) (f : Tmp → Tmp) (h : 0x100000#26 &&& ~~~m = 0#26) :
    hide m (s.modTmp f) = hide m s := hide_le (k := 0x100000#26) rfl h
@[simp ↓] theorem hide_modWdg (m : BitVec 26) (s : State) (f : Wdg → Wdg) (h : 0x200000#26 &&& ~~~m = 0#26) :
    hide m (s.modWdg f) = hide m s := hide_le (k := 0x200000#26) rfl h
@[simp ↓] theorem hide_modChp (m : BitVec 26) (s : State) (f : Chp → Chp) (h : 0x400000#26 &&& ~~~m = 0#26) :
    hide m (s.modChp f) = hide m s := hide_le (k := 0x400000#26) rfl h
@[simp ↓] theorem hide_modEvr (m : BitVec 26) (s : State) (f : Evr → Evr) (h : 0x800000#26 &&& ~~~m = 0#26) :
    hide m (s.modEvr f) = hide m s := hide_le (k := 0x800000#26) rfl h
@[simp ↓] theorem hide_modPmc (m : BitVec 26) (s : State) (f : Pmc → Pmc) (h : 0x1000000#26 &&& ~~~m = 0#26) :
    hide m (s.modPmc f) = hide m s := hide_le (k := 0x1000000#26) rfl h

theorem hide_snd {α : Type} {m : BitVec 26} {p : α × State} {a : α} {t s : State} (e : p = (a, t)) (h : hide m p.2 = hide m s) :
    hide m t = hide m s := by rw [← h, e]
theorem hide_fst {α : Type} {m : BitVec 26} {p : State × α} {a : α} {t s : State} (e : p = (t, a)) (h : hide m p.1 = hide m s) :
    hide m t = hide m s := by rw [← h, e]
theorem hide_snd_snd {α β : Type} {m : BitVec 26} {p : α × β × State} {a : α} {b : β} {t s : State} (e : p = (a, b, t))
    (h : hide m p.2.2 = hide m s) : hide m t = hide m s := by rw [← h, e]
theorem hide_all {x y : State} (h : x.pending = y.pending) : hide 0x1ffffff#26 x = hide 0x1ffffff#26 y := by
  simp [hide, h]
@[simp ↓] theorem hide_ite (m : BitVec 26) (c : Prop) [Decidable c] (a b : State) :
    hide m (if c then a else b) = if c then hide m a else hide m b := by split <;> rfl
theorem hide_if {m : BitVec 26} {c : Prop} [Decidable c] {a b s : State} (x : c → hide m a = hide m s)
    (y : ¬ c → hide m b = hide m s) : hide m (if c then a else b) = hide m s := by split <;> simp_all
theorem hide_dif {m : BitVec 26} {c : Prop} [Decidable c] {a : c → State} {b : ¬ c → State} {s : State}
    (x : ∀ h, hide m (a h) = hide m s) (y : ∀ h, hide m (b h) = hide m s) : hide m (if h : c then a h else b h) = hide m s := by
  split <;> simp_all
@[simp ↓] theorem hide_snd_ite (m : BitVec 26) {α : Type} (c : Prop) [Decidable c] (a b : α × State) :
    hide m (if c then a else b).2 = if c then hide m a.2 else hide m b.2 := by split <;> rfl
@[simp ↓] theorem hide_snd_snd_ite (m : BitVec 26) {α β : Type} (c : Prop) [Decidable c] (a b : α × β × State) :
    hide m (if c then a else b).2.2 = if c then hide m a.2.2 else hide m b.2.2 := by split <;> rfl
@[simp ↓] theorem hide_foldl (m : BitVec 26) {α : Type} (g : State → α → State) (h : ∀ s a, hide m (g s a) = hide m s)
    (l : List α) (s : State) : hide m (l.foldl g s) = hide m s := by
  induction l generalizing s with
  | nil => rfl
  | cons a t ih => rw [List.foldl_cons, ih, h]
@[simp ↓] theorem hide_iterN (m : BitVec 26) (g : State → State) (h : ∀ s, hide m (g s) = hide m s) (n : Nat) (s : State) :
    hide m (iterN g n s) = hide m s := by
  induction n generalizing s with
  | zero => rfl
  | succ n ih => simp only [iterN, ih, h]
@[simp ↓] theorem hide_foldl_snd (m : BitVec 26) {α γ : Type} (g : α × State → γ → α × State)
    (h : ∀ r s c, hide m (g (r, s) c).2 = hide m s) (l : List γ) (r : α × State) : hide m (l.foldl g r).2 = hide m r.2 := by
  induction l generalizing r with
  | nil => rfl
  | cons a t ih => rw [List.foldl_cons, ih, ← h r.1 r.2 a]

end Sys2Proof.Machine
end

