-- ==== Sys2Proof/Laws/Keep.lean ====
section
/-! SUPPORT. What a choice, a pair and a fold leave of the state: a block that each part leaves as it was is left as it was. -/

namespace Sys2Proof.Machine

@[simp ↓] theorem ite_glb (c : Prop) [Decidable c] (a b : State) :
    (if c then a else b).glb = if c then a.glb else b.glb := by split <;> rfl
@[simp ↓] theorem ite_pwr (c : Prop) [Decidable c] (a b : State) :
    (if c then a else b).pwr = if c then a.pwr else b.pwr := by split <;> rfl
@[simp ↓] theorem ite_pins (c : Prop) [Decidable c] (a b : State) :
    (if c then a else b).pins = if c then a.pins else b.pins := by split <;> rfl
@[simp ↓] theorem ite_aon (c : Prop) [Decidable c] (a b : State) :
    (if c then a else b).aon = if c then a.aon else b.aon := by split <;> rfl
@[simp ↓] theorem ite_tbs (c : Prop) [Decidable c] (a b : State) :
    (if c then a else b).tbs = if c then a.tbs else b.tbs := by split <;> rfl
@[simp ↓] theorem ite_rst (c : Prop) [Decidable c] (a b : State) :
    (if c then a else b).rst = if c then a.rst else b.rst := by split <;> rfl
@[simp ↓] theorem ite_boot (c : Prop) [Decidable c] (a b : State) :
    (if c then a else b).boot = if c then a.boot else b.boot := by split <;> rfl
@[simp ↓] theorem ite_nv (c : Prop) [Decidable c] (a b : State) :
    (if c then a else b).nv = if c then a.nv else b.nv := by split <;> rfl
@[simp ↓] theorem ite_out (c : Prop) [Decidable c] (a b : State) :
    (if c then a else b).out = if c then a.out else b.out := by split <;> rfl
@[simp ↓] theorem ite_fus (c : Prop) [Decidable c] (a b : State) :
    (if c then a else b).fus = if c then a.fus else b.fus := by split <;> rfl
@[simp ↓] theorem ite_wsh (c : Prop) [Decidable c] (a b : State) :
    (if c then a else b).wsh = if c then a.wsh else b.wsh := by split <;> rfl
@[simp ↓] theorem ite_pln (c : Prop) [Decidable c] (a b : State) :
    (if c then a else b).pln = if c then a.pln else b.pln := by split <;> rfl
@[simp ↓] theorem ite_job (c : Prop) [Decidable c] (a b : State) :
    (if c then a else b).job = if c then a.job else b.job := by split <;> rfl
@[simp ↓] theorem ite_hlk (c : Prop) [Decidable c] (a b : State) :
    (if c then a else b).hlk = if c then a.hlk else b.hlk := by split <;> rfl
@[simp ↓] theorem ite_sdl (c : Prop) [Decidable c] (a b : State) :
    (if c then a else b).sdl = if c then a.sdl else b.sdl := by split <;> rfl
@[simp ↓] theorem ite_prs (c : Prop) [Decidable c] (a b : State) :
    (if c then a else b).prs = if c then a.prs else b.prs := by split <;> rfl
@[simp ↓] theorem ite_ldg (c : Prop) [Decidable c] (a b : State) :
    (if c then a else b).ldg = if c then a.ldg else b.ldg := by split <;> rfl
@[simp ↓] theorem ite_kvt (c : Prop) [Decidable c] (a b : State) :
    (if c then a else b).kvt = if c then a.kvt else b.kvt := by split <;> rfl
@[simp ↓] theorem ite_ent (c : Prop) [Decidable c] (a b : State) :
    (if c then a else b).ent = if c then a.ent else b.ent := by split <;> rfl
@[simp ↓] theorem ite_att (c : Prop) [Decidable c] (a b : State) :
    (if c then a else b).att = if c then a.att else b.att := by split <;> rfl
@[simp ↓] theorem ite_tmp (c : Prop) [Decidable c] (a b : State) :
    (if c then a else b).tmp = if c then a.tmp else b.tmp := by split <;> rfl
@[simp ↓] theorem ite_wdg (c : Prop) [Decidable c] (a b : State) :
    (if c then a else b).wdg = if c then a.wdg else b.wdg := by split <;> rfl
@[simp ↓] theorem ite_chp (c : Prop) [Decidable c] (a b : State) :
    (if c then a else b).chp = if c then a.chp else b.chp := by split <;> rfl
@[simp ↓] theorem ite_evr (c : Prop) [Decidable c] (a b : State) :
    (if c then a else b).evr = if c then a.evr else b.evr := by split <;> rfl
@[simp ↓] theorem ite_pmc (c : Prop) [Decidable c] (a b : State) :
    (if c then a else b).pmc = if c then a.pmc else b.pmc := by split <;> rfl
@[simp ↓] theorem ite_pending (c : Prop) [Decidable c] (a b : State) :
    (if c then a else b).pending = if c then a.pending else b.pending := by split <;> rfl
@[simp ↓] theorem foldl_glb {α : Type} (g : State → α → State) (h : ∀ s a, (g s a).glb = s.glb) (l : List α) (s : State) :
    (l.foldl g s).glb = s.glb := by
  induction l generalizing s with
  | nil => rfl
  | cons a t ih => simp [ih, h]
@[simp ↓] theorem foldl_pwr {α : Type} (g : State → α → State) (h : ∀ s a, (g s a).pwr = s.pwr) (l : List α) (s : State) :
    (l.foldl g s).pwr = s.pwr := by
  induction l generalizing s with
  | nil => rfl
  | cons a t ih => simp [ih, h]
@[simp ↓] theorem foldl_pins {α : Type} (g : State → α → State) (h : ∀ s a, (g s a).pins = s.pins) (l : List α) (s : State) :
    (l.foldl g s).pins = s.pins := by
  induction l generalizing s with
  | nil => rfl
  | cons a t ih => simp [ih, h]
@[simp ↓] theorem foldl_aon {α : Type} (g : State → α → State) (h : ∀ s a, (g s a).aon = s.aon) (l : List α) (s : State) :
    (l.foldl g s).aon = s.aon := by
  induction l generalizing s with
  | nil => rfl
  | cons a t ih => simp [ih, h]
@[simp ↓] theorem foldl_tbs {α : Type} (g : State → α → State) (h : ∀ s a, (g s a).tbs = s.tbs) (l : List α) (s : State) :
    (l.foldl g s).tbs = s.tbs := by
  induction l generalizing s with
  | nil => rfl
  | cons a t ih => simp [ih, h]
@[simp ↓] theorem foldl_rst {α : Type} (g : State → α → State) (h : ∀ s a, (g s a).rst = s.rst) (l : List α) (s : State) :
    (l.foldl g s).rst = s.rst := by
  induction l generalizing s with
  | nil => rfl
  | cons a t ih => simp [ih, h]
@[simp ↓] theorem foldl_boot {α : Type} (g : State → α → State) (h : ∀ s a, (g s a).boot = s.boot) (l : List α) (s : State) :
    (l.foldl g s).boot = s.boot := by
  induction l generalizing s with
  | nil => rfl
  | cons a t ih => simp [ih, h]
@[simp ↓] theorem foldl_nv {α : Type} (g : State → α → State) (h : ∀ s a, (g s a).nv = s.nv) (l : List α) (s : State) :
    (l.foldl g s).nv = s.nv := by
  induction l generalizing s with
  | nil => rfl
  | cons a t ih => simp [ih, h]
@[simp ↓] theorem foldl_out {α : Type} (g : State → α → State) (h : ∀ s a, (g s a).out = s.out) (l : List α) (s : State) :
    (l.foldl g s).out = s.out := by
  induction l generalizing s with
  | nil => rfl
  | cons a t ih => simp [ih, h]
@[simp ↓] theorem foldl_fus {α : Type} (g : State → α → State) (h : ∀ s a, (g s a).fus = s.fus) (l : List α) (s : State) :
    (l.foldl g s).fus = s.fus := by
  induction l generalizing s with
  | nil => rfl
  | cons a t ih => simp [ih, h]
@[simp ↓] theorem foldl_wsh {α : Type} (g : State → α → State) (h : ∀ s a, (g s a).wsh = s.wsh) (l : List α) (s : State) :
    (l.foldl g s).wsh = s.wsh := by
  induction l generalizing s with
  | nil => rfl
  | cons a t ih => simp [ih, h]
@[simp ↓] theorem foldl_pln {α : Type} (g : State → α → State) (h : ∀ s a, (g s a).pln = s.pln) (l : List α) (s : State) :
    (l.foldl g s).pln = s.pln := by
  induction l generalizing s with
  | nil => rfl
  | cons a t ih => simp [ih, h]
@[simp ↓] theorem foldl_job {α : Type} (g : State → α → State) (h : ∀ s a, (g s a).job = s.job) (l : List α) (s : State) :
    (l.foldl g s).job = s.job := by
  induction l generalizing s with
  | nil => rfl
  | cons a t ih => simp [ih, h]
@[simp ↓] theorem foldl_hlk {α : Type} (g : State → α → State) (h : ∀ s a, (g s a).hlk = s.hlk) (l : List α) (s : State) :
    (l.foldl g s).hlk = s.hlk := by
  induction l generalizing s with
  | nil => rfl
  | cons a t ih => simp [ih, h]
@[simp ↓] theorem foldl_sdl {α : Type} (g : State → α → State) (h : ∀ s a, (g s a).sdl = s.sdl) (l : List α) (s : State) :
    (l.foldl g s).sdl = s.sdl := by
  induction l generalizing s with
  | nil => rfl
  | cons a t ih => simp [ih, h]
@[simp ↓] theorem foldl_prs {α : Type} (g : State → α → State) (h : ∀ s a, (g s a).prs = s.prs) (l : List α) (s : State) :
    (l.foldl g s).prs = s.prs := by
  induction l generalizing s with
  | nil => rfl
  | cons a t ih => simp [ih, h]
@[simp ↓] theorem foldl_ldg {α : Type} (g : State → α → State) (h : ∀ s a, (g s a).ldg = s.ldg) (l : List α) (s : State) :
    (l.foldl g s).ldg = s.ldg := by
  induction l generalizing s with
  | nil => rfl
  | cons a t ih => simp [ih, h]
@[simp ↓] theorem foldl_kvt {α : Type} (g : State → α → State) (h : ∀ s a, (g s a).kvt = s.kvt) (l : List α) (s : State) :
    (l.foldl g s).kvt = s.kvt := by
  induction l generalizing s with
  | nil => rfl
  | cons a t ih => simp [ih, h]
@[simp ↓] theorem foldl_ent {α : Type} (g : State → α → State) (h : ∀ s a, (g s a).ent = s.ent) (l : List α) (s : State) :
    (l.foldl g s).ent = s.ent := by
  induction l generalizing s with
  | nil => rfl
  | cons a t ih => simp [ih, h]
@[simp ↓] theorem foldl_att {α : Type} (g : State → α → State) (h : ∀ s a, (g s a).att = s.att) (l : List α) (s : State) :
    (l.foldl g s).att = s.att := by
  induction l generalizing s with
  | nil => rfl
  | cons a t ih => simp [ih, h]
@[simp ↓] theorem foldl_tmp {α : Type} (g : State → α → State) (h : ∀ s a, (g s a).tmp = s.tmp) (l : List α) (s : State) :
    (l.foldl g s).tmp = s.tmp := by
  induction l generalizing s with
  | nil => rfl
  | cons a t ih => simp [ih, h]
@[simp ↓] theorem foldl_wdg {α : Type} (g : State → α → State) (h : ∀ s a, (g s a).wdg = s.wdg) (l : List α) (s : State) :
    (l.foldl g s).wdg = s.wdg := by
  induction l generalizing s with
  | nil => rfl
  | cons a t ih => simp [ih, h]
@[simp ↓] theorem foldl_chp {α : Type} (g : State → α → State) (h : ∀ s a, (g s a).chp = s.chp) (l : List α) (s : State) :
    (l.foldl g s).chp = s.chp := by
  induction l generalizing s with
  | nil => rfl
  | cons a t ih => simp [ih, h]
@[simp ↓] theorem foldl_evr {α : Type} (g : State → α → State) (h : ∀ s a, (g s a).evr = s.evr) (l : List α) (s : State) :
    (l.foldl g s).evr = s.evr := by
  induction l generalizing s with
  | nil => rfl
  | cons a t ih => simp [ih, h]
@[simp ↓] theorem foldl_pmc {α : Type} (g : State → α → State) (h : ∀ s a, (g s a).pmc = s.pmc) (l : List α) (s : State) :
    (l.foldl g s).pmc = s.pmc := by
  induction l generalizing s with
  | nil => rfl
  | cons a t ih => simp [ih, h]
@[simp ↓] theorem foldl_pending {α : Type} (g : State → α → State) (h : ∀ s a, (g s a).pending = s.pending) (l : List α) (s : State) :
    (l.foldl g s).pending = s.pending := by
  induction l generalizing s with
  | nil => rfl
  | cons a t ih => simp [ih, h]
@[simp ↓] theorem iterN_glb (g : State → State) (h : ∀ s, (g s).glb = s.glb) (n : Nat) (s : State) :
    (iterN g n s).glb = s.glb := by
  induction n generalizing s with
  | zero => rfl
  | succ n ih => simp [iterN, ih, h]
@[simp ↓] theorem iterN_pwr (g : State → State) (h : ∀ s, (g s).pwr = s.pwr) (n : Nat) (s : State) :
    (iterN g n s).pwr = s.pwr := by
  induction n generalizing s with
  | zero => rfl
  | succ n ih => simp [iterN, ih, h]
@[simp ↓] theorem iterN_pins (g : State → State) (h : ∀ s, (g s).pins = s.pins) (n : Nat) (s : State) :
    (iterN g n s).pins = s.pins := by
  induction n generalizing s with
  | zero => rfl
  | succ n ih => simp [iterN, ih, h]
@[simp ↓] theorem iterN_aon (g : State → State) (h : ∀ s, (g s).aon = s.aon) (n : Nat) (s : State) :
    (iterN g n s).aon = s.aon := by
  induction n generalizing s with
  | zero => rfl
  | succ n ih => simp [iterN, ih, h]
@[simp ↓] theorem iterN_tbs (g : State → State) (h : ∀ s, (g s).tbs = s.tbs) (n : Nat) (s : State) :
    (iterN g n s).tbs = s.tbs := by
  induction n generalizing s with
  | zero => rfl
  | succ n ih => simp [iterN, ih, h]
@[simp ↓] theorem iterN_rst (g : State → State) (h : ∀ s, (g s).rst = s.rst) (n : Nat) (s : State) :
    (iterN g n s).rst = s.rst := by
  induction n generalizing s with
  | zero => rfl
  | succ n ih => simp [iterN, ih, h]
@[simp ↓] theorem iterN_boot (g : State → State) (h : ∀ s, (g s).boot = s.boot) (n : Nat) (s : State) :
    (iterN g n s).boot = s.boot := by
  induction n generalizing s with
  | zero => rfl
  | succ n ih => simp [iterN, ih, h]
@[simp ↓] theorem iterN_nv (g : State → State) (h : ∀ s, (g s).nv = s.nv) (n : Nat) (s : State) :
    (iterN g n s).nv = s.nv := by
  induction n generalizing s with
  | zero => rfl
  | succ n ih => simp [iterN, ih, h]
@[simp ↓] theorem iterN_out (g : State → State) (h : ∀ s, (g s).out = s.out) (n : Nat) (s : State) :
    (iterN g n s).out = s.out := by
  induction n generalizing s with
  | zero => rfl
  | succ n ih => simp [iterN, ih, h]
@[simp ↓] theorem iterN_fus (g : State → State) (h : ∀ s, (g s).fus = s.fus) (n : Nat) (s : State) :
    (iterN g n s).fus = s.fus := by
  induction n generalizing s with
  | zero => rfl
  | succ n ih => simp [iterN, ih, h]
@[simp ↓] theorem iterN_wsh (g : State → State) (h : ∀ s, (g s).wsh = s.wsh) (n : Nat) (s : State) :
    (iterN g n s).wsh = s.wsh := by
  induction n generalizing s with
  | zero => rfl
  | succ n ih => simp [iterN, ih, h]
@[simp ↓] theorem iterN_pln (g : State → State) (h : ∀ s, (g s).pln = s.pln) (n : Nat) (s : State) :
    (iterN g n s).pln = s.pln := by
  induction n generalizing s with
  | zero => rfl
  | succ n ih => simp [iterN, ih, h]
@[simp ↓] theorem iterN_job (g : State → State) (h : ∀ s, (g s).job = s.job) (n : Nat) (s : State) :
    (iterN g n s).job = s.job := by
  induction n generalizing s with
  | zero => rfl
  | succ n ih => simp [iterN, ih, h]
@[simp ↓] theorem iterN_hlk (g : State → State) (h : ∀ s, (g s).hlk = s.hlk) (n : Nat) (s : State) :
    (iterN g n s).hlk = s.hlk := by
  induction n generalizing s with
  | zero => rfl
  | succ n ih => simp [iterN, ih, h]
@[simp ↓] theorem iterN_sdl (g : State → State) (h : ∀ s, (g s).sdl = s.sdl) (n : Nat) (s : State) :
    (iterN g n s).sdl = s.sdl := by
  induction n generalizing s with
  | zero => rfl
  | succ n ih => simp [iterN, ih, h]
@[simp ↓] theorem iterN_prs (g : State → State) (h : ∀ s, (g s).prs = s.prs) (n : Nat) (s : State) :
    (iterN g n s).prs = s.prs := by
  induction n generalizing s with
  | zero => rfl
  | succ n ih => simp [iterN, ih, h]
@[simp ↓] theorem iterN_ldg (g : State → State) (h : ∀ s, (g s).ldg = s.ldg) (n : Nat) (s : State) :
    (iterN g n s).ldg = s.ldg := by
  induction n generalizing s with
  | zero => rfl
  | succ n ih => simp [iterN, ih, h]
@[simp ↓] theorem iterN_kvt (g : State → State) (h : ∀ s, (g s).kvt = s.kvt) (n : Nat) (s : State) :
    (iterN g n s).kvt = s.kvt := by
  induction n generalizing s with
  | zero => rfl
  | succ n ih => simp [iterN, ih, h]
@[simp ↓] theorem iterN_ent (g : State → State) (h : ∀ s, (g s).ent = s.ent) (n : Nat) (s : State) :
    (iterN g n s).ent = s.ent := by
  induction n generalizing s with
  | zero => rfl
  | succ n ih => simp [iterN, ih, h]
@[simp ↓] theorem iterN_att (g : State → State) (h : ∀ s, (g s).att = s.att) (n : Nat) (s : State) :
    (iterN g n s).att = s.att := by
  induction n generalizing s with
  | zero => rfl
  | succ n ih => simp [iterN, ih, h]
@[simp ↓] theorem iterN_tmp (g : State → State) (h : ∀ s, (g s).tmp = s.tmp) (n : Nat) (s : State) :
    (iterN g n s).tmp = s.tmp := by
  induction n generalizing s with
  | zero => rfl
  | succ n ih => simp [iterN, ih, h]
@[simp ↓] theorem iterN_wdg (g : State → State) (h : ∀ s, (g s).wdg = s.wdg) (n : Nat) (s : State) :
    (iterN g n s).wdg = s.wdg := by
  induction n generalizing s with
  | zero => rfl
  | succ n ih => simp [iterN, ih, h]
@[simp ↓] theorem iterN_chp (g : State → State) (h : ∀ s, (g s).chp = s.chp) (n : Nat) (s : State) :
    (iterN g n s).chp = s.chp := by
  induction n generalizing s with
  | zero => rfl
  | succ n ih => simp [iterN, ih, h]
@[simp ↓] theorem iterN_evr (g : State → State) (h : ∀ s, (g s).evr = s.evr) (n : Nat) (s : State) :
    (iterN g n s).evr = s.evr := by
  induction n generalizing s with
  | zero => rfl
  | succ n ih => simp [iterN, ih, h]
@[simp ↓] theorem iterN_pmc (g : State → State) (h : ∀ s, (g s).pmc = s.pmc) (n : Nat) (s : State) :
    (iterN g n s).pmc = s.pmc := by
  induction n generalizing s with
  | zero => rfl
  | succ n ih => simp [iterN, ih, h]
@[simp ↓] theorem iterN_pending (g : State → State) (h : ∀ s, (g s).pending = s.pending) (n : Nat) (s : State) :
    (iterN g n s).pending = s.pending := by
  induction n generalizing s with
  | zero => rfl
  | succ n ih => simp [iterN, ih, h]
@[simp ↓] theorem snd_ite_glb {α : Type} (c : Prop) [Decidable c] (a b : α × State) :
    (if c then a else b).2.glb = if c then a.2.glb else b.2.glb := by split <;> rfl
@[simp ↓] theorem snd_snd_ite_glb {α β : Type} (c : Prop) [Decidable c] (a b : α × β × State) :
    (if c then a else b).2.2.glb = if c then a.2.2.glb else b.2.2.glb := by split <;> rfl
@[simp ↓] theorem foldl_snd_glb {α γ : Type} (g : α × State → γ → α × State) (h : ∀ r s c, (g (r, s) c).2.glb = s.glb)
    (l : List γ) (p : α × State) : (l.foldl g p).2.glb = p.2.glb := by
  induction l generalizing p with
  | nil => rfl
  | cons a t ih => simp [ih, h]
@[simp ↓] theorem snd_ite_pwr {α : Type} (c : Prop) [Decidable c] (a b : α × State) :
    (if c then a else b).2.pwr = if c then a.2.pwr else b.2.pwr := by split <;> rfl
@[simp ↓] theorem snd_snd_ite_pwr {α β : Type} (c : Prop) [Decidable c] (a b : α × β × State) :
    (if c then a else b).2.2.pwr = if c then a.2.2.pwr else b.2.2.pwr := by split <;> rfl
@[simp ↓] theorem foldl_snd_pwr {α γ : Type} (g : α × State → γ → α × State) (h : ∀ r s c, (g (r, s) c).2.pwr = s.pwr)
    (l : List γ) (p : α × State) : (l.foldl g p).2.pwr = p.2.pwr := by
  induction l generalizing p with
  | nil => rfl
  | cons a t ih => simp [ih, h]
@[simp ↓] theorem snd_ite_pins {α : Type} (c : Prop) [Decidable c] (a b : α × State) :
    (if c then a else b).2.pins = if c then a.2.pins else b.2.pins := by split <;> rfl
@[simp ↓] theorem snd_snd_ite_pins {α β : Type} (c : Prop) [Decidable c] (a b : α × β × State) :
    (if c then a else b).2.2.pins = if c then a.2.2.pins else b.2.2.pins := by split <;> rfl
@[simp ↓] theorem foldl_snd_pins {α γ : Type} (g : α × State → γ → α × State) (h : ∀ r s c, (g (r, s) c).2.pins = s.pins)
    (l : List γ) (p : α × State) : (l.foldl g p).2.pins = p.2.pins := by
  induction l generalizing p with
  | nil => rfl
  | cons a t ih => simp [ih, h]
@[simp ↓] theorem snd_ite_aon {α : Type} (c : Prop) [Decidable c] (a b : α × State) :
    (if c then a else b).2.aon = if c then a.2.aon else b.2.aon := by split <;> rfl
@[simp ↓] theorem snd_snd_ite_aon {α β : Type} (c : Prop) [Decidable c] (a b : α × β × State) :
    (if c then a else b).2.2.aon = if c then a.2.2.aon else b.2.2.aon := by split <;> rfl
@[simp ↓] theorem foldl_snd_aon {α γ : Type} (g : α × State → γ → α × State) (h : ∀ r s c, (g (r, s) c).2.aon = s.aon)
    (l : List γ) (p : α × State) : (l.foldl g p).2.aon = p.2.aon := by
  induction l generalizing p with
  | nil => rfl
  | cons a t ih => simp [ih, h]
@[simp ↓] theorem snd_ite_tbs {α : Type} (c : Prop) [Decidable c] (a b : α × State) :
    (if c then a else b).2.tbs = if c then a.2.tbs else b.2.tbs := by split <;> rfl
@[simp ↓] theorem snd_snd_ite_tbs {α β : Type} (c : Prop) [Decidable c] (a b : α × β × State) :
    (if c then a else b).2.2.tbs = if c then a.2.2.tbs else b.2.2.tbs := by split <;> rfl
@[simp ↓] theorem foldl_snd_tbs {α γ : Type} (g : α × State → γ → α × State) (h : ∀ r s c, (g (r, s) c).2.tbs = s.tbs)
    (l : List γ) (p : α × State) : (l.foldl g p).2.tbs = p.2.tbs := by
  induction l generalizing p with
  | nil => rfl
  | cons a t ih => simp [ih, h]
@[simp ↓] theorem snd_ite_rst {α : Type} (c : Prop) [Decidable c] (a b : α × State) :
    (if c then a else b).2.rst = if c then a.2.rst else b.2.rst := by split <;> rfl
@[simp ↓] theorem snd_snd_ite_rst {α β : Type} (c : Prop) [Decidable c] (a b : α × β × State) :
    (if c then a else b).2.2.rst = if c then a.2.2.rst else b.2.2.rst := by split <;> rfl
@[simp ↓] theorem foldl_snd_rst {α γ : Type} (g : α × State → γ → α × State) (h : ∀ r s c, (g (r, s) c).2.rst = s.rst)
    (l : List γ) (p : α × State) : (l.foldl g p).2.rst = p.2.rst := by
  induction l generalizing p with
  | nil => rfl
  | cons a t ih => simp [ih, h]
@[simp ↓] theorem snd_ite_boot {α : Type} (c : Prop) [Decidable c] (a b : α × State) :
    (if c then a else b).2.boot = if c then a.2.boot else b.2.boot := by split <;> rfl
@[simp ↓] theorem snd_snd_ite_boot {α β : Type} (c : Prop) [Decidable c] (a b : α × β × State) :
    (if c then a else b).2.2.boot = if c then a.2.2.boot else b.2.2.boot := by split <;> rfl
@[simp ↓] theorem foldl_snd_boot {α γ : Type} (g : α × State → γ → α × State) (h : ∀ r s c, (g (r, s) c).2.boot = s.boot)
    (l : List γ) (p : α × State) : (l.foldl g p).2.boot = p.2.boot := by
  induction l generalizing p with
  | nil => rfl
  | cons a t ih => simp [ih, h]
@[simp ↓] theorem snd_ite_nv {α : Type} (c : Prop) [Decidable c] (a b : α × State) :
    (if c then a else b).2.nv = if c then a.2.nv else b.2.nv := by split <;> rfl
@[simp ↓] theorem snd_snd_ite_nv {α β : Type} (c : Prop) [Decidable c] (a b : α × β × State) :
    (if c then a else b).2.2.nv = if c then a.2.2.nv else b.2.2.nv := by split <;> rfl
@[simp ↓] theorem foldl_snd_nv {α γ : Type} (g : α × State → γ → α × State) (h : ∀ r s c, (g (r, s) c).2.nv = s.nv)
    (l : List γ) (p : α × State) : (l.foldl g p).2.nv = p.2.nv := by
  induction l generalizing p with
  | nil => rfl
  | cons a t ih => simp [ih, h]
@[simp ↓] theorem snd_ite_out {α : Type} (c : Prop) [Decidable c] (a b : α × State) :
    (if c then a else b).2.out = if c then a.2.out else b.2.out := by split <;> rfl
@[simp ↓] theorem snd_snd_ite_out {α β : Type} (c : Prop) [Decidable c] (a b : α × β × State) :
    (if c then a else b).2.2.out = if c then a.2.2.out else b.2.2.out := by split <;> rfl
@[simp ↓] theorem foldl_snd_out {α γ : Type} (g : α × State → γ → α × State) (h : ∀ r s c, (g (r, s) c).2.out = s.out)
    (l : List γ) (p : α × State) : (l.foldl g p).2.out = p.2.out := by
  induction l generalizing p with
  | nil => rfl
  | cons a t ih => simp [ih, h]
@[simp ↓] theorem snd_ite_fus {α : Type} (c : Prop) [Decidable c] (a b : α × State) :
    (if c then a else b).2.fus = if c then a.2.fus else b.2.fus := by split <;> rfl
@[simp ↓] theorem snd_snd_ite_fus {α β : Type} (c : Prop) [Decidable c] (a b : α × β × State) :
    (if c then a else b).2.2.fus = if c then a.2.2.fus else b.2.2.fus := by split <;> rfl
@[simp ↓] theorem foldl_snd_fus {α γ : Type} (g : α × State → γ → α × State) (h : ∀ r s c, (g (r, s) c).2.fus = s.fus)
    (l : List γ) (p : α × State) : (l.foldl g p).2.fus = p.2.fus := by
  induction l generalizing p with
  | nil => rfl
  | cons a t ih => simp [ih, h]
@[simp ↓] theorem snd_ite_wsh {α : Type} (c : Prop) [Decidable c] (a b : α × State) :
    (if c then a else b).2.wsh = if c then a.2.wsh else b.2.wsh := by split <;> rfl
@[simp ↓] theorem snd_snd_ite_wsh {α β : Type} (c : Prop) [Decidable c] (a b : α × β × State) :
    (if c then a else b).2.2.wsh = if c then a.2.2.wsh else b.2.2.wsh := by split <;> rfl
@[simp ↓] theorem foldl_snd_wsh {α γ : Type} (g : α × State → γ → α × State) (h : ∀ r s c, (g (r, s) c).2.wsh = s.wsh)
    (l : List γ) (p : α × State) : (l.foldl g p).2.wsh = p.2.wsh := by
  induction l generalizing p with
  | nil => rfl
  | cons a t ih => simp [ih, h]
@[simp ↓] theorem snd_ite_pln {α : Type} (c : Prop) [Decidable c] (a b : α × State) :
    (if c then a else b).2.pln = if c then a.2.pln else b.2.pln := by split <;> rfl
@[simp ↓] theorem snd_snd_ite_pln {α β : Type} (c : Prop) [Decidable c] (a b : α × β × State) :
    (if c then a else b).2.2.pln = if c then a.2.2.pln else b.2.2.pln := by split <;> rfl
@[simp ↓] theorem foldl_snd_pln {α γ : Type} (g : α × State → γ → α × State) (h : ∀ r s c, (g (r, s) c).2.pln = s.pln)
    (l : List γ) (p : α × State) : (l.foldl g p).2.pln = p.2.pln := by
  induction l generalizing p with
  | nil => rfl
  | cons a t ih => simp [ih, h]
@[simp ↓] theorem snd_ite_job {α : Type} (c : Prop) [Decidable c] (a b : α × State) :
    (if c then a else b).2.job = if c then a.2.job else b.2.job := by split <;> rfl
@[simp ↓] theorem snd_snd_ite_job {α β : Type} (c : Prop) [Decidable c] (a b : α × β × State) :
    (if c then a else b).2.2.job = if c then a.2.2.job else b.2.2.job := by split <;> rfl
@[simp ↓] theorem foldl_snd_job {α γ : Type} (g : α × State → γ → α × State) (h : ∀ r s c, (g (r, s) c).2.job = s.job)
    (l : List γ) (p : α × State) : (l.foldl g p).2.job = p.2.job := by
  induction l generalizing p with
  | nil => rfl
  | cons a t ih => simp [ih, h]
@[simp ↓] theorem snd_ite_hlk {α : Type} (c : Prop) [Decidable c] (a b : α × State) :
    (if c then a else b).2.hlk = if c then a.2.hlk else b.2.hlk := by split <;> rfl
@[simp ↓] theorem snd_snd_ite_hlk {α β : Type} (c : Prop) [Decidable c] (a b : α × β × State) :
    (if c then a else b).2.2.hlk = if c then a.2.2.hlk else b.2.2.hlk := by split <;> rfl
@[simp ↓] theorem foldl_snd_hlk {α γ : Type} (g : α × State → γ → α × State) (h : ∀ r s c, (g (r, s) c).2.hlk = s.hlk)
    (l : List γ) (p : α × State) : (l.foldl g p).2.hlk = p.2.hlk := by
  induction l generalizing p with
  | nil => rfl
  | cons a t ih => simp [ih, h]
@[simp ↓] theorem snd_ite_sdl {α : Type} (c : Prop) [Decidable c] (a b : α × State) :
    (if c then a else b).2.sdl = if c then a.2.sdl else b.2.sdl := by split <;> rfl
@[simp ↓] theorem snd_snd_ite_sdl {α β : Type} (c : Prop) [Decidable c] (a b : α × β × State) :
    (if c then a else b).2.2.sdl = if c then a.2.2.sdl else b.2.2.sdl := by split <;> rfl
@[simp ↓] theorem foldl_snd_sdl {α γ : Type} (g : α × State → γ → α × State) (h : ∀ r s c, (g (r, s) c).2.sdl = s.sdl)
    (l : List γ) (p : α × State) : (l.foldl g p).2.sdl = p.2.sdl := by
  induction l generalizing p with
  | nil => rfl
  | cons a t ih => simp [ih, h]
@[simp ↓] theorem snd_ite_prs {α : Type} (c : Prop) [Decidable c] (a b : α × State) :
    (if c then a else b).2.prs = if c then a.2.prs else b.2.prs := by split <;> rfl
@[simp ↓] theorem snd_snd_ite_prs {α β : Type} (c : Prop) [Decidable c] (a b : α × β × State) :
    (if c then a else b).2.2.prs = if c then a.2.2.prs else b.2.2.prs := by split <;> rfl
@[simp ↓] theorem foldl_snd_prs {α γ : Type} (g : α × State → γ → α × State) (h : ∀ r s c, (g (r, s) c).2.prs = s.prs)
    (l : List γ) (p : α × State) : (l.foldl g p).2.prs = p.2.prs := by
  induction l generalizing p with
  | nil => rfl
  | cons a t ih => simp [ih, h]
@[simp ↓] theorem snd_ite_ldg {α : Type} (c : Prop) [Decidable c] (a b : α × State) :
    (if c then a else b).2.ldg = if c then a.2.ldg else b.2.ldg := by split <;> rfl
@[simp ↓] theorem snd_snd_ite_ldg {α β : Type} (c : Prop) [Decidable c] (a b : α × β × State) :
    (if c then a else b).2.2.ldg = if c then a.2.2.ldg else b.2.2.ldg := by split <;> rfl
@[simp ↓] theorem foldl_snd_ldg {α γ : Type} (g : α × State → γ → α × State) (h : ∀ r s c, (g (r, s) c).2.ldg = s.ldg)
    (l : List γ) (p : α × State) : (l.foldl g p).2.ldg = p.2.ldg := by
  induction l generalizing p with
  | nil => rfl
  | cons a t ih => simp [ih, h]
@[simp ↓] theorem snd_ite_kvt {α : Type} (c : Prop) [Decidable c] (a b : α × State) :
    (if c then a else b).2.kvt = if c then a.2.kvt else b.2.kvt := by split <;> rfl
@[simp ↓] theorem snd_snd_ite_kvt {α β : Type} (c : Prop) [Decidable c] (a b : α × β × State) :
    (if c then a else b).2.2.kvt = if c then a.2.2.kvt else b.2.2.kvt := by split <;> rfl
@[simp ↓] theorem foldl_snd_kvt {α γ : Type} (g : α × State → γ → α × State) (h : ∀ r s c, (g (r, s) c).2.kvt = s.kvt)
    (l : List γ) (p : α × State) : (l.foldl g p).2.kvt = p.2.kvt := by
  induction l generalizing p with
  | nil => rfl
  | cons a t ih => simp [ih, h]
@[simp ↓] theorem snd_ite_ent {α : Type} (c : Prop) [Decidable c] (a b : α × State) :
    (if c then a else b).2.ent = if c then a.2.ent else b.2.ent := by split <;> rfl
@[simp ↓] theorem snd_snd_ite_ent {α β : Type} (c : Prop) [Decidable c] (a b : α × β × State) :
    (if c then a else b).2.2.ent = if c then a.2.2.ent else b.2.2.ent := by split <;> rfl
@[simp ↓] theorem foldl_snd_ent {α γ : Type} (g : α × State → γ → α × State) (h : ∀ r s c, (g (r, s) c).2.ent = s.ent)
    (l : List γ) (p : α × State) : (l.foldl g p).2.ent = p.2.ent := by
  induction l generalizing p with
  | nil => rfl
  | cons a t ih => simp [ih, h]
@[simp ↓] theorem snd_ite_att {α : Type} (c : Prop) [Decidable c] (a b : α × State) :
    (if c then a else b).2.att = if c then a.2.att else b.2.att := by split <;> rfl
@[simp ↓] theorem snd_snd_ite_att {α β : Type} (c : Prop) [Decidable c] (a b : α × β × State) :
    (if c then a else b).2.2.att = if c then a.2.2.att else b.2.2.att := by split <;> rfl
@[simp ↓] theorem foldl_snd_att {α γ : Type} (g : α × State → γ → α × State) (h : ∀ r s c, (g (r, s) c).2.att = s.att)
    (l : List γ) (p : α × State) : (l.foldl g p).2.att = p.2.att := by
  induction l generalizing p with
  | nil => rfl
  | cons a t ih => simp [ih, h]
@[simp ↓] theorem snd_ite_tmp {α : Type} (c : Prop) [Decidable c] (a b : α × State) :
    (if c then a else b).2.tmp = if c then a.2.tmp else b.2.tmp := by split <;> rfl
@[simp ↓] theorem snd_snd_ite_tmp {α β : Type} (c : Prop) [Decidable c] (a b : α × β × State) :
    (if c then a else b).2.2.tmp = if c then a.2.2.tmp else b.2.2.tmp := by split <;> rfl
@[simp ↓] theorem foldl_snd_tmp {α γ : Type} (g : α × State → γ → α × State) (h : ∀ r s c, (g (r, s) c).2.tmp = s.tmp)
    (l : List γ) (p : α × State) : (l.foldl g p).2.tmp = p.2.tmp := by
  induction l generalizing p with
  | nil => rfl
  | cons a t ih => simp [ih, h]
@[simp ↓] theorem snd_ite_wdg {α : Type} (c : Prop) [Decidable c] (a b : α × State) :
    (if c then a else b).2.wdg = if c then a.2.wdg else b.2.wdg := by split <;> rfl
@[simp ↓] theorem snd_snd_ite_wdg {α β : Type} (c : Prop) [Decidable c] (a b : α × β × State) :
    (if c then a else b).2.2.wdg = if c then a.2.2.wdg else b.2.2.wdg := by split <;> rfl
@[simp ↓] theorem foldl_snd_wdg {α γ : Type} (g : α × State → γ → α × State) (h : ∀ r s c, (g (r, s) c).2.wdg = s.wdg)
    (l : List γ) (p : α × State) : (l.foldl g p).2.wdg = p.2.wdg := by
  induction l generalizing p with
  | nil => rfl
  | cons a t ih => simp [ih, h]
@[simp ↓] theorem snd_ite_chp {α : Type} (c : Prop) [Decidable c] (a b : α × State) :
    (if c then a else b).2.chp = if c then a.2.chp else b.2.chp := by split <;> rfl
@[simp ↓] theorem snd_snd_ite_chp {α β : Type} (c : Prop) [Decidable c] (a b : α × β × State) :
    (if c then a else b).2.2.chp = if c then a.2.2.chp else b.2.2.chp := by split <;> rfl
@[simp ↓] theorem foldl_snd_chp {α γ : Type} (g : α × State → γ → α × State) (h : ∀ r s c, (g (r, s) c).2.chp = s.chp)
    (l : List γ) (p : α × State) : (l.foldl g p).2.chp = p.2.chp := by
  induction l generalizing p with
  | nil => rfl
  | cons a t ih => simp [ih, h]
@[simp ↓] theorem snd_ite_evr {α : Type} (c : Prop) [Decidable c] (a b : α × State) :
    (if c then a else b).2.evr = if c then a.2.evr else b.2.evr := by split <;> rfl
@[simp ↓] theorem snd_snd_ite_evr {α β : Type} (c : Prop) [Decidable c] (a b : α × β × State) :
    (if c then a else b).2.2.evr = if c then a.2.2.evr else b.2.2.evr := by split <;> rfl
@[simp ↓] theorem foldl_snd_evr {α γ : Type} (g : α × State → γ → α × State) (h : ∀ r s c, (g (r, s) c).2.evr = s.evr)
    (l : List γ) (p : α × State) : (l.foldl g p).2.evr = p.2.evr := by
  induction l generalizing p with
  | nil => rfl
  | cons a t ih => simp [ih, h]
@[simp ↓] theorem snd_ite_pmc {α : Type} (c : Prop) [Decidable c] (a b : α × State) :
    (if c then a else b).2.pmc = if c then a.2.pmc else b.2.pmc := by split <;> rfl
@[simp ↓] theorem snd_snd_ite_pmc {α β : Type} (c : Prop) [Decidable c] (a b : α × β × State) :
    (if c then a else b).2.2.pmc = if c then a.2.2.pmc else b.2.2.pmc := by split <;> rfl
@[simp ↓] theorem foldl_snd_pmc {α γ : Type} (g : α × State → γ → α × State) (h : ∀ r s c, (g (r, s) c).2.pmc = s.pmc)
    (l : List γ) (p : α × State) : (l.foldl g p).2.pmc = p.2.pmc := by
  induction l generalizing p with
  | nil => rfl
  | cons a t ih => simp [ih, h]
@[simp ↓] theorem snd_ite_pending {α : Type} (c : Prop) [Decidable c] (a b : α × State) :
    (if c then a else b).2.pending = if c then a.2.pending else b.2.pending := by split <;> rfl
@[simp ↓] theorem snd_snd_ite_pending {α β : Type} (c : Prop) [Decidable c] (a b : α × β × State) :
    (if c then a else b).2.2.pending = if c then a.2.2.pending else b.2.2.pending := by split <;> rfl
@[simp ↓] theorem foldl_snd_pending {α γ : Type} (g : α × State → γ → α × State) (h : ∀ r s c, (g (r, s) c).2.pending = s.pending)
    (l : List γ) (p : α × State) : (l.foldl g p).2.pending = p.2.pending := by
  induction l generalizing p with
  | nil => rfl
  | cons a t ih => simp [ih, h]

end Sys2Proof.Machine
end

