-- ==== Sys2Proof/Laws/Events.lean ====
section
/-! SUPPORT. What the operations of Machine/Events.lean leave as it was: every block of the state they do not name, and the
queue. -/

namespace Sys2Proof.Machine

@[simp ↓] theorem pmcAdd_hide : ∀ i n s m, 0x1000000#26 &&& ~~~m = 0#26 → hide m (pmcAdd i n s) = hide m s := by
  intro i n s m h; refine hide_le (k := 0x1000000#26) ?_ h; unfold pmcAdd; simp

@[simp ↓] theorem pmcAdd_keeps : ∀ i n s, (pmcAdd i n s).glb = s.glb ∧ (pmcAdd i n s).pwr = s.pwr ∧ (pmcAdd i n
    s).pins = s.pins ∧ (pmcAdd i n s).aon = s.aon ∧ (pmcAdd i n s).tbs = s.tbs ∧ (pmcAdd i n s).rst = s.rst ∧ (pmcAdd
    i n s).boot = s.boot ∧ (pmcAdd i n s).nv = s.nv ∧ (pmcAdd i n s).out = s.out ∧ (pmcAdd i n s).fus = s.fus ∧
    (pmcAdd i n s).wsh = s.wsh ∧ (pmcAdd i n s).pln = s.pln ∧ (pmcAdd i n s).job = s.job ∧ (pmcAdd i n s).hlk = s.hlk
    ∧ (pmcAdd i n s).sdl = s.sdl ∧ (pmcAdd i n s).prs = s.prs ∧ (pmcAdd i n s).ldg = s.ldg ∧ (pmcAdd i n s).kvt =
    s.kvt ∧ (pmcAdd i n s).ent = s.ent ∧ (pmcAdd i n s).att = s.att ∧ (pmcAdd i n s).tmp = s.tmp ∧ (pmcAdd i n s).wdg
    = s.wdg ∧ (pmcAdd i n s).chp = s.chp ∧ (pmcAdd i n s).evr = s.evr ∧ (pmcAdd i n s).pending = s.pending := by
  intro i n s; have h := pmcAdd_hide i n s 0x1000000#26 rfl; exact ⟨hide_glb h rfl, hide_pwr h rfl, hide_pins h rfl,
    hide_aon h rfl, hide_tbs h rfl, hide_rst h rfl, hide_boot h rfl, hide_nv h rfl, hide_out h rfl, hide_fus h rfl,
    hide_wsh h rfl, hide_pln h rfl, hide_job h rfl, hide_hlk h rfl, hide_sdl h rfl, hide_prs h rfl, hide_ldg h rfl,
    hide_kvt h rfl, hide_ent h rfl, hide_att h rfl, hide_tmp h rfl, hide_wdg h rfl, hide_chp h rfl, hide_evr h rfl,
    hide_pending h rfl⟩

@[simp ↓] theorem emit_hide : ∀ e s m, 0x100#26 &&& ~~~m = 0#26 → hide m (emit e s) = hide m s := by
  intro e s m h; refine hide_le (k := 0x100#26) ?_ h; unfold emit; simp

@[simp ↓] theorem emit_keeps : ∀ e s, (emit e s).glb = s.glb ∧ (emit e s).pwr = s.pwr ∧ (emit e s).pins = s.pins ∧
    (emit e s).aon = s.aon ∧ (emit e s).tbs = s.tbs ∧ (emit e s).rst = s.rst ∧ (emit e s).boot = s.boot ∧ (emit e
    s).nv = s.nv ∧ (emit e s).fus = s.fus ∧ (emit e s).wsh = s.wsh ∧ (emit e s).pln = s.pln ∧ (emit e s).job = s.job ∧
    (emit e s).hlk = s.hlk ∧ (emit e s).sdl = s.sdl ∧ (emit e s).prs = s.prs ∧ (emit e s).ldg = s.ldg ∧ (emit e s).kvt
    = s.kvt ∧ (emit e s).ent = s.ent ∧ (emit e s).att = s.att ∧ (emit e s).tmp = s.tmp ∧ (emit e s).wdg = s.wdg ∧
    (emit e s).chp = s.chp ∧ (emit e s).evr = s.evr ∧ (emit e s).pmc = s.pmc ∧ (emit e s).pending = s.pending := by
  intro e s; have h := emit_hide e s 0x100#26 rfl; exact ⟨hide_glb h rfl, hide_pwr h rfl, hide_pins h rfl, hide_aon h
    rfl, hide_tbs h rfl, hide_rst h rfl, hide_boot h rfl, hide_nv h rfl, hide_fus h rfl, hide_wsh h rfl, hide_pln h
    rfl, hide_job h rfl, hide_hlk h rfl, hide_sdl h rfl, hide_prs h rfl, hide_ldg h rfl, hide_kvt h rfl, hide_ent h
    rfl, hide_att h rfl, hide_tmp h rfl, hide_wdg h rfl, hide_chp h rfl, hide_evr h rfl, hide_pmc h rfl, hide_pending
    h rfl⟩

@[simp ↓] theorem drawFree_hide : ∀ w s m, 0x100#26 &&& ~~~m = 0#26 → hide m (drawFree w s).2 = hide m s := by
  intro w s m h; refine hide_le (k := 0x100#26) ?_ h; unfold drawFree; simp

@[simp ↓] theorem drawFree_keeps : ∀ w s, (drawFree w s).2.glb = s.glb ∧ (drawFree w s).2.pwr = s.pwr ∧ (drawFree w
    s).2.pins = s.pins ∧ (drawFree w s).2.aon = s.aon ∧ (drawFree w s).2.tbs = s.tbs ∧ (drawFree w s).2.rst = s.rst ∧
    (drawFree w s).2.boot = s.boot ∧ (drawFree w s).2.nv = s.nv ∧ (drawFree w s).2.fus = s.fus ∧ (drawFree w s).2.wsh
    = s.wsh ∧ (drawFree w s).2.pln = s.pln ∧ (drawFree w s).2.job = s.job ∧ (drawFree w s).2.hlk = s.hlk ∧ (drawFree w
    s).2.sdl = s.sdl ∧ (drawFree w s).2.prs = s.prs ∧ (drawFree w s).2.ldg = s.ldg ∧ (drawFree w s).2.kvt = s.kvt ∧
    (drawFree w s).2.ent = s.ent ∧ (drawFree w s).2.att = s.att ∧ (drawFree w s).2.tmp = s.tmp ∧ (drawFree w s).2.wdg
    = s.wdg ∧ (drawFree w s).2.chp = s.chp ∧ (drawFree w s).2.evr = s.evr ∧ (drawFree w s).2.pmc = s.pmc ∧ (drawFree w
    s).2.pending = s.pending := by
  intro w s; have h := drawFree_hide w s 0x100#26 rfl; exact ⟨hide_glb h rfl, hide_pwr h rfl, hide_pins h rfl, hide_aon
    h rfl, hide_tbs h rfl, hide_rst h rfl, hide_boot h rfl, hide_nv h rfl, hide_fus h rfl, hide_wsh h rfl, hide_pln h
    rfl, hide_job h rfl, hide_hlk h rfl, hide_sdl h rfl, hide_prs h rfl, hide_ldg h rfl, hide_kvt h rfl, hide_ent h
    rfl, hide_att h rfl, hide_tmp h rfl, hide_wdg h rfl, hide_chp h rfl, hide_evr h rfl, hide_pmc h rfl, hide_pending
    h rfl⟩

@[simp ↓] theorem drawRandom_hide : ∀ n s m, 0x40100#26 &&& ~~~m = 0#26 → hide m (drawRandom n s).2 = hide m s := by
  intro n s m h; refine hide_le (k := 0x40100#26) ?_ h; unfold drawRandom; simp

@[simp ↓] theorem queueMsg_hide : ∀ r s m, 0x2000#26 &&& ~~~m = 0#26 → hide m (queueMsg r s) = hide m s := by
  intro r s m h; refine hide_le (k := 0x2000#26) ?_ h; unfold queueMsg; simp

@[simp ↓] theorem queueMsg_keeps : ∀ r s, (queueMsg r s).glb = s.glb ∧ (queueMsg r s).pwr = s.pwr ∧ (queueMsg r
    s).pins = s.pins ∧ (queueMsg r s).aon = s.aon ∧ (queueMsg r s).tbs = s.tbs ∧ (queueMsg r s).rst = s.rst ∧
    (queueMsg r s).boot = s.boot ∧ (queueMsg r s).nv = s.nv ∧ (queueMsg r s).out = s.out ∧ (queueMsg r s).fus = s.fus
    ∧ (queueMsg r s).wsh = s.wsh ∧ (queueMsg r s).pln = s.pln ∧ (queueMsg r s).job = s.job ∧ (queueMsg r s).sdl =
    s.sdl ∧ (queueMsg r s).prs = s.prs ∧ (queueMsg r s).ldg = s.ldg ∧ (queueMsg r s).kvt = s.kvt ∧ (queueMsg r s).ent
    = s.ent ∧ (queueMsg r s).att = s.att ∧ (queueMsg r s).tmp = s.tmp ∧ (queueMsg r s).wdg = s.wdg ∧ (queueMsg r
    s).chp = s.chp ∧ (queueMsg r s).evr = s.evr ∧ (queueMsg r s).pmc = s.pmc ∧ (queueMsg r s).pending = s.pending :=
    by
  intro r s; have h := queueMsg_hide r s 0x2000#26 rfl; exact ⟨hide_glb h rfl, hide_pwr h rfl, hide_pins h rfl, hide_aon
    h rfl, hide_tbs h rfl, hide_rst h rfl, hide_boot h rfl, hide_nv h rfl, hide_out h rfl, hide_fus h rfl, hide_wsh h
    rfl, hide_pln h rfl, hide_job h rfl, hide_sdl h rfl, hide_prs h rfl, hide_ldg h rfl, hide_kvt h rfl, hide_ent h
    rfl, hide_att h rfl, hide_tmp h rfl, hide_wdg h rfl, hide_chp h rfl, hide_evr h rfl, hide_pmc h rfl, hide_pending
    h rfl⟩

@[simp ↓] theorem takeSeq_hide : ∀ r s m, 0x8#26 &&& ~~~m = 0#26 → hide m (takeSeq r s).2 = hide m s := by
  intro r s m h; refine hide_le (k := 0x8#26) ?_ h; unfold takeSeq; simp

@[simp ↓] theorem ringPut_hide : ∀ r s m, 0x800000#26 &&& ~~~m = 0#26 → hide m (ringPut r s) = hide m s := by
  intro r s m h; refine hide_le (k := 0x800000#26) ?_ h; unfold ringPut; simp

@[simp ↓] theorem ringPut_keeps : ∀ r s, (ringPut r s).glb = s.glb ∧ (ringPut r s).pwr = s.pwr ∧ (ringPut r s).pins =
    s.pins ∧ (ringPut r s).aon = s.aon ∧ (ringPut r s).tbs = s.tbs ∧ (ringPut r s).rst = s.rst ∧ (ringPut r s).boot =
    s.boot ∧ (ringPut r s).nv = s.nv ∧ (ringPut r s).out = s.out ∧ (ringPut r s).fus = s.fus ∧ (ringPut r s).wsh =
    s.wsh ∧ (ringPut r s).pln = s.pln ∧ (ringPut r s).job = s.job ∧ (ringPut r s).hlk = s.hlk ∧ (ringPut r s).sdl =
    s.sdl ∧ (ringPut r s).prs = s.prs ∧ (ringPut r s).ldg = s.ldg ∧ (ringPut r s).kvt = s.kvt ∧ (ringPut r s).ent =
    s.ent ∧ (ringPut r s).att = s.att ∧ (ringPut r s).tmp = s.tmp ∧ (ringPut r s).wdg = s.wdg ∧ (ringPut r s).chp =
    s.chp ∧ (ringPut r s).pmc = s.pmc ∧ (ringPut r s).pending = s.pending := by
  intro r s; have h := ringPut_hide r s 0x800000#26 rfl; exact ⟨hide_glb h rfl, hide_pwr h rfl, hide_pins h rfl,
    hide_aon h rfl, hide_tbs h rfl, hide_rst h rfl, hide_boot h rfl, hide_nv h rfl, hide_out h rfl, hide_fus h rfl,
    hide_wsh h rfl, hide_pln h rfl, hide_job h rfl, hide_hlk h rfl, hide_sdl h rfl, hide_prs h rfl, hide_ldg h rfl,
    hide_kvt h rfl, hide_ent h rfl, hide_att h rfl, hide_tmp h rfl, hide_wdg h rfl, hide_chp h rfl, hide_pmc h rfl,
    hide_pending h rfl⟩

@[simp ↓] theorem recordNow_hide : ∀ r s m, 0x1802008#26 &&& ~~~m = 0#26 → hide m (recordNow r s) = hide m s := by
  intro r s m h; refine hide_le (k := 0x1802008#26) ?_ h; unfold recordNow; simp

@[simp ↓] theorem countMissed_hide : ∀ n s m, 0x1800000#26 &&& ~~~m = 0#26 → hide m (countMissed n s) = hide m s := by
  intro n s m h; refine hide_le (k := 0x1800000#26) ?_ h; unfold countMissed; simp

@[simp ↓] theorem countMissed_keeps : ∀ n s, (countMissed n s).glb = s.glb ∧ (countMissed n s).pwr = s.pwr ∧
    (countMissed n s).pins = s.pins ∧ (countMissed n s).aon = s.aon ∧ (countMissed n s).tbs = s.tbs ∧ (countMissed n
    s).rst = s.rst ∧ (countMissed n s).boot = s.boot ∧ (countMissed n s).nv = s.nv ∧ (countMissed n s).out = s.out ∧
    (countMissed n s).fus = s.fus ∧ (countMissed n s).wsh = s.wsh ∧ (countMissed n s).pln = s.pln ∧ (countMissed n
    s).job = s.job ∧ (countMissed n s).hlk = s.hlk ∧ (countMissed n s).sdl = s.sdl ∧ (countMissed n s).prs = s.prs ∧
    (countMissed n s).ldg = s.ldg ∧ (countMissed n s).kvt = s.kvt ∧ (countMissed n s).ent = s.ent ∧ (countMissed n
    s).att = s.att ∧ (countMissed n s).tmp = s.tmp ∧ (countMissed n s).wdg = s.wdg ∧ (countMissed n s).chp = s.chp ∧
    (countMissed n s).pending = s.pending := by
  intro n s; have h := countMissed_hide n s 0x1800000#26 rfl; exact ⟨hide_glb h rfl, hide_pwr h rfl, hide_pins h rfl,
    hide_aon h rfl, hide_tbs h rfl, hide_rst h rfl, hide_boot h rfl, hide_nv h rfl, hide_out h rfl, hide_fus h rfl,
    hide_wsh h rfl, hide_pln h rfl, hide_job h rfl, hide_hlk h rfl, hide_sdl h rfl, hide_prs h rfl, hide_ldg h rfl,
    hide_kvt h rfl, hide_ent h rfl, hide_att h rfl, hide_tmp h rfl, hide_wdg h rfl, hide_chp h rfl, hide_pending h
    rfl⟩

@[simp ↓] theorem raise_hide : ∀ code p0 p1 p2 s m, 0x1802008#26 &&& ~~~m = 0#26 → hide m (raise code p0 p1 p2 s) =
    hide m s := by
  intro code p0 p1 p2 s m h; refine hide_le (k := 0x1802008#26) ?_ h; unfold raise; (repeat' first | split | dsimp only) <;> simp

@[simp ↓] theorem raise_keeps : ∀ code p0 p1 p2 s, (raise code p0 p1 p2 s).glb = s.glb ∧ (raise code p0 p1 p2 s).pwr =
    s.pwr ∧ (raise code p0 p1 p2 s).pins = s.pins ∧ (raise code p0 p1 p2 s).tbs = s.tbs ∧ (raise code p0 p1 p2 s).rst
    = s.rst ∧ (raise code p0 p1 p2 s).boot = s.boot ∧ (raise code p0 p1 p2 s).nv = s.nv ∧ (raise code p0 p1 p2 s).out
    = s.out ∧ (raise code p0 p1 p2 s).fus = s.fus ∧ (raise code p0 p1 p2 s).wsh = s.wsh ∧ (raise code p0 p1 p2 s).pln
    = s.pln ∧ (raise code p0 p1 p2 s).job = s.job ∧ (raise code p0 p1 p2 s).sdl = s.sdl ∧ (raise code p0 p1 p2 s).prs
    = s.prs ∧ (raise code p0 p1 p2 s).ldg = s.ldg ∧ (raise code p0 p1 p2 s).kvt = s.kvt ∧ (raise code p0 p1 p2 s).ent
    = s.ent ∧ (raise code p0 p1 p2 s).att = s.att ∧ (raise code p0 p1 p2 s).tmp = s.tmp ∧ (raise code p0 p1 p2 s).wdg
    = s.wdg ∧ (raise code p0 p1 p2 s).chp = s.chp ∧ (raise code p0 p1 p2 s).pending = s.pending := by
  intro code p0 p1 p2 s; have h := raise_hide code p0 p1 p2 s 0x1802008#26 rfl; exact ⟨hide_glb h rfl, hide_pwr h rfl,
    hide_pins h rfl, hide_tbs h rfl, hide_rst h rfl, hide_boot h rfl, hide_nv h rfl, hide_out h rfl, hide_fus h rfl,
    hide_wsh h rfl, hide_pln h rfl, hide_job h rfl, hide_sdl h rfl, hide_prs h rfl, hide_ldg h rfl, hide_kvt h rfl,
    hide_ent h rfl, hide_att h rfl, hide_tmp h rfl, hide_wdg h rfl, hide_chp h rfl, hide_pending h rfl⟩

@[simp ↓] theorem ev_hide : ∀ code p0 p1 p2 s m, 0x1802008#26 &&& ~~~m = 0#26 → hide m (ev code p0 p1 p2 s) = hide m s
    := by
  intro code p0 p1 p2 s m h; refine hide_le (k := 0x1802008#26) ?_ h; unfold ev; simp

@[simp ↓] theorem ev_keeps : ∀ code p0 p1 p2 s, (ev code p0 p1 p2 s).glb = s.glb ∧ (ev code p0 p1 p2 s).pwr = s.pwr ∧
    (ev code p0 p1 p2 s).pins = s.pins ∧ (ev code p0 p1 p2 s).tbs = s.tbs ∧ (ev code p0 p1 p2 s).rst = s.rst ∧ (ev
    code p0 p1 p2 s).boot = s.boot ∧ (ev code p0 p1 p2 s).nv = s.nv ∧ (ev code p0 p1 p2 s).out = s.out ∧ (ev code p0
    p1 p2 s).fus = s.fus ∧ (ev code p0 p1 p2 s).wsh = s.wsh ∧ (ev code p0 p1 p2 s).pln = s.pln ∧ (ev code p0 p1 p2
    s).job = s.job ∧ (ev code p0 p1 p2 s).sdl = s.sdl ∧ (ev code p0 p1 p2 s).prs = s.prs ∧ (ev code p0 p1 p2 s).ldg =
    s.ldg ∧ (ev code p0 p1 p2 s).kvt = s.kvt ∧ (ev code p0 p1 p2 s).ent = s.ent ∧ (ev code p0 p1 p2 s).att = s.att ∧
    (ev code p0 p1 p2 s).tmp = s.tmp ∧ (ev code p0 p1 p2 s).wdg = s.wdg ∧ (ev code p0 p1 p2 s).chp = s.chp ∧ (ev code
    p0 p1 p2 s).pending = s.pending := by
  intro code p0 p1 p2 s; have h := ev_hide code p0 p1 p2 s 0x1802008#26 rfl; exact ⟨hide_glb h rfl, hide_pwr h rfl, hide_pins
    h rfl, hide_tbs h rfl, hide_rst h rfl, hide_boot h rfl, hide_nv h rfl, hide_out h rfl, hide_fus h rfl, hide_wsh h
    rfl, hide_pln h rfl, hide_job h rfl, hide_sdl h rfl, hide_prs h rfl, hide_ldg h rfl, hide_kvt h rfl, hide_ent h
    rfl, hide_att h rfl, hide_tmp h rfl, hide_wdg h rfl, hide_chp h rfl, hide_pending h rfl⟩

@[simp ↓] theorem mergeBattery_hide : ∀ s m, 0x1802008#26 &&& ~~~m = 0#26 → hide m (mergeBattery s) = hide m s := by
  intro s m h; refine hide_le (k := 0x1802008#26) ?_ h; unfold mergeBattery; simp

@[simp ↓] theorem flushStaged_hide : ∀ s m, 0x1802008#26 &&& ~~~m = 0#26 → hide m (flushStaged s) = hide m s := by
  intro s m h; refine hide_le (k := 0x1802008#26) ?_ h; unfold flushStaged; simp

@[simp ↓] theorem flushStaged_keeps : ∀ s, (flushStaged s).glb = s.glb ∧ (flushStaged s).pwr = s.pwr ∧ (flushStaged
    s).pins = s.pins ∧ (flushStaged s).tbs = s.tbs ∧ (flushStaged s).rst = s.rst ∧ (flushStaged s).boot = s.boot ∧
    (flushStaged s).nv = s.nv ∧ (flushStaged s).out = s.out ∧ (flushStaged s).fus = s.fus ∧ (flushStaged s).wsh =
    s.wsh ∧ (flushStaged s).pln = s.pln ∧ (flushStaged s).job = s.job ∧ (flushStaged s).sdl = s.sdl ∧ (flushStaged
    s).prs = s.prs ∧ (flushStaged s).ldg = s.ldg ∧ (flushStaged s).kvt = s.kvt ∧ (flushStaged s).ent = s.ent ∧
    (flushStaged s).att = s.att ∧ (flushStaged s).tmp = s.tmp ∧ (flushStaged s).wdg = s.wdg ∧ (flushStaged s).chp =
    s.chp ∧ (flushStaged s).pending = s.pending := by
  intro s; have h := flushStaged_hide s 0x1802008#26 rfl; exact ⟨hide_glb h rfl, hide_pwr h rfl, hide_pins h rfl,
    hide_tbs h rfl, hide_rst h rfl, hide_boot h rfl, hide_nv h rfl, hide_out h rfl, hide_fus h rfl, hide_wsh h rfl,
    hide_pln h rfl, hide_job h rfl, hide_sdl h rfl, hide_prs h rfl, hide_ldg h rfl, hide_kvt h rfl, hide_ent h rfl,
    hide_att h rfl, hide_tmp h rfl, hide_wdg h rfl, hide_chp h rfl, hide_pending h rfl⟩

@[simp ↓] theorem endFreeze_hide : ∀ cause s m, 0x1802008#26 &&& ~~~m = 0#26 → hide m (endFreeze cause s) = hide m s
    := by
  intro cause s m h; refine hide_le (k := 0x1802008#26) ?_ h; unfold endFreeze; simp

@[simp ↓] theorem endDropRun_hide : ∀ queueFull s m, 0x1802008#26 &&& ~~~m = 0#26 → hide m (endDropRun queueFull s) =
    hide m s := by
  intro queueFull s m h; refine hide_le (k := 0x1802008#26) ?_ h; unfold endDropRun; simp

@[simp ↓] theorem frameDropRuns_hide : ∀ s m, 0x1802008#26 &&& ~~~m = 0#26 → hide m (frameDropRuns s) = hide m s := by
  intro s m h; refine hide_le (k := 0x1802008#26) ?_ h; unfold frameDropRuns; simp

@[simp ↓] theorem frameLossRun_hide : ∀ s m, 0x1802008#26 &&& ~~~m = 0#26 → hide m (frameLossRun s) = hide m s := by
  intro s m h; refine hide_le (k := 0x1802008#26) ?_ h; unfold frameLossRun; simp

end Sys2Proof.Machine
end

