-- ==== Sys2Proof/Laws/Fuse.lean ====
section
/-! SUPPORT. What the operations of Machine/Fuse.lean leave as it was: every block of the state they do not name, and the
queue. -/

namespace Sys2Proof.Machine

@[simp ↓] theorem logRead_hide : ∀ a x s m, 0x1802208#26 &&& ~~~m = 0#26 → hide m (logRead a x s) = hide m s := by
  intro a x s m h; refine hide_le (k := 0x1802208#26) ?_ h; unfold logRead; simp

@[simp ↓] theorem loadRegion_hide : ∀ early r s m, 0x1802208#26 &&& ~~~m = 0#26 → hide m (loadRegion early r s) = hide
    m s := by
  intro early r s m h; refine hide_le (k := 0x1802208#26) ?_ h; unfold loadRegion; (repeat' first | split | dsimp only) <;> simp

@[simp ↓] theorem loadRegion_keeps : ∀ early r s, (loadRegion early r s).glb = s.glb ∧ (loadRegion early r s).pwr =
    s.pwr ∧ (loadRegion early r s).pins = s.pins ∧ (loadRegion early r s).tbs = s.tbs ∧ (loadRegion early r s).rst =
    s.rst ∧ (loadRegion early r s).boot = s.boot ∧ (loadRegion early r s).nv = s.nv ∧ (loadRegion early r s).out =
    s.out ∧ (loadRegion early r s).wsh = s.wsh ∧ (loadRegion early r s).pln = s.pln ∧ (loadRegion early r s).job =
    s.job ∧ (loadRegion early r s).sdl = s.sdl ∧ (loadRegion early r s).prs = s.prs ∧ (loadRegion early r s).ldg =
    s.ldg ∧ (loadRegion early r s).kvt = s.kvt ∧ (loadRegion early r s).ent = s.ent ∧ (loadRegion early r s).att =
    s.att ∧ (loadRegion early r s).tmp = s.tmp ∧ (loadRegion early r s).wdg = s.wdg ∧ (loadRegion early r s).chp =
    s.chp ∧ (loadRegion early r s).pending = s.pending := by
  intro early r s; have h := loadRegion_hide early r s 0x1802208#26 rfl; exact ⟨hide_glb h rfl, hide_pwr h rfl, hide_pins h
    rfl, hide_tbs h rfl, hide_rst h rfl, hide_boot h rfl, hide_nv h rfl, hide_out h rfl, hide_wsh h rfl, hide_pln h
    rfl, hide_job h rfl, hide_sdl h rfl, hide_prs h rfl, hide_ldg h rfl, hide_kvt h rfl, hide_ent h rfl, hide_att h
    rfl, hide_tmp h rfl, hide_wdg h rfl, hide_chp h rfl, hide_pending h rfl⟩

end Sys2Proof.Machine
end

