-- ==== Sys2Proof/Laws/Ops.lean ====
section
/-! SUPPORT. What the operations of Machine/Ops.lean leave as it was: every block of the state they do not name, and the
queue. -/

namespace Sys2Proof.Machine

@[simp ↓] theorem evFree1_hide : ∀ code p0 s m, 0x1802108#26 &&& ~~~m = 0#26 → hide m (evFree1 code p0 s) = hide m s
    := by
  intro code p0 s m h; refine hide_le (k := 0x1802108#26) ?_ h; unfold evFree1; simp

@[simp ↓] theorem evFree1_keeps : ∀ code p0 s, (evFree1 code p0 s).glb = s.glb ∧ (evFree1 code p0 s).pwr = s.pwr ∧
    (evFree1 code p0 s).pins = s.pins ∧ (evFree1 code p0 s).tbs = s.tbs ∧ (evFree1 code p0 s).rst = s.rst ∧ (evFree1
    code p0 s).boot = s.boot ∧ (evFree1 code p0 s).nv = s.nv ∧ (evFree1 code p0 s).fus = s.fus ∧ (evFree1 code p0
    s).wsh = s.wsh ∧ (evFree1 code p0 s).pln = s.pln ∧ (evFree1 code p0 s).job = s.job ∧ (evFree1 code p0 s).sdl =
    s.sdl ∧ (evFree1 code p0 s).prs = s.prs ∧ (evFree1 code p0 s).ldg = s.ldg ∧ (evFree1 code p0 s).kvt = s.kvt ∧
    (evFree1 code p0 s).ent = s.ent ∧ (evFree1 code p0 s).att = s.att ∧ (evFree1 code p0 s).tmp = s.tmp ∧ (evFree1
    code p0 s).wdg = s.wdg ∧ (evFree1 code p0 s).chp = s.chp ∧ (evFree1 code p0 s).pending = s.pending := by
  intro code p0 s; have h := evFree1_hide code p0 s 0x1802108#26 rfl; exact ⟨hide_glb h rfl, hide_pwr h rfl, hide_pins h
    rfl, hide_tbs h rfl, hide_rst h rfl, hide_boot h rfl, hide_nv h rfl, hide_fus h rfl, hide_wsh h rfl, hide_pln h
    rfl, hide_job h rfl, hide_sdl h rfl, hide_prs h rfl, hide_ldg h rfl, hide_kvt h rfl, hide_ent h rfl, hide_att h
    rfl, hide_tmp h rfl, hide_wdg h rfl, hide_chp h rfl, hide_pending h rfl⟩

@[simp ↓] theorem evFree2_hide : ∀ code p0 p1 s m, 0x1802108#26 &&& ~~~m = 0#26 → hide m (evFree2 code p0 p1 s) = hide
    m s := by
  intro code p0 p1 s m h; refine hide_le (k := 0x1802108#26) ?_ h; unfold evFree2; simp

@[simp ↓] theorem evFree2_keeps : ∀ code p0 p1 s, (evFree2 code p0 p1 s).glb = s.glb ∧ (evFree2 code p0 p1 s).pwr =
    s.pwr ∧ (evFree2 code p0 p1 s).pins = s.pins ∧ (evFree2 code p0 p1 s).tbs = s.tbs ∧ (evFree2 code p0 p1 s).rst =
    s.rst ∧ (evFree2 code p0 p1 s).boot = s.boot ∧ (evFree2 code p0 p1 s).nv = s.nv ∧ (evFree2 code p0 p1 s).fus =
    s.fus ∧ (evFree2 code p0 p1 s).wsh = s.wsh ∧ (evFree2 code p0 p1 s).pln = s.pln ∧ (evFree2 code p0 p1 s).job =
    s.job ∧ (evFree2 code p0 p1 s).sdl = s.sdl ∧ (evFree2 code p0 p1 s).prs = s.prs ∧ (evFree2 code p0 p1 s).ldg =
    s.ldg ∧ (evFree2 code p0 p1 s).kvt = s.kvt ∧ (evFree2 code p0 p1 s).ent = s.ent ∧ (evFree2 code p0 p1 s).att =
    s.att ∧ (evFree2 code p0 p1 s).tmp = s.tmp ∧ (evFree2 code p0 p1 s).wdg = s.wdg ∧ (evFree2 code p0 p1 s).chp =
    s.chp ∧ (evFree2 code p0 p1 s).pending = s.pending := by
  intro code p0 p1 s; have h := evFree2_hide code p0 p1 s 0x1802108#26 rfl; exact ⟨hide_glb h rfl, hide_pwr h rfl, hide_pins
    h rfl, hide_tbs h rfl, hide_rst h rfl, hide_boot h rfl, hide_nv h rfl, hide_fus h rfl, hide_wsh h rfl, hide_pln h
    rfl, hide_job h rfl, hide_sdl h rfl, hide_prs h rfl, hide_ldg h rfl, hide_kvt h rfl, hide_ent h rfl, hide_att h
    rfl, hide_tmp h rfl, hide_wdg h rfl, hide_chp h rfl, hide_pending h rfl⟩

@[simp ↓] theorem modCluster_hide : ∀ c f s m, 0x800#26 &&& ~~~m = 0#26 → hide m (modCluster c f s) = hide m s := by
  intro c f s m h; refine hide_le (k := 0x800#26) ?_ h; unfold modCluster; simp

@[simp ↓] theorem modCluster_keeps : ∀ c f s, (modCluster c f s).glb = s.glb ∧ (modCluster c f s).pwr = s.pwr ∧
    (modCluster c f s).pins = s.pins ∧ (modCluster c f s).aon = s.aon ∧ (modCluster c f s).tbs = s.tbs ∧ (modCluster c
    f s).rst = s.rst ∧ (modCluster c f s).boot = s.boot ∧ (modCluster c f s).nv = s.nv ∧ (modCluster c f s).out =
    s.out ∧ (modCluster c f s).fus = s.fus ∧ (modCluster c f s).wsh = s.wsh ∧ (modCluster c f s).job = s.job ∧
    (modCluster c f s).hlk = s.hlk ∧ (modCluster c f s).sdl = s.sdl ∧ (modCluster c f s).prs = s.prs ∧ (modCluster c f
    s).ldg = s.ldg ∧ (modCluster c f s).kvt = s.kvt ∧ (modCluster c f s).ent = s.ent ∧ (modCluster c f s).att = s.att
    ∧ (modCluster c f s).tmp = s.tmp ∧ (modCluster c f s).wdg = s.wdg ∧ (modCluster c f s).chp = s.chp ∧ (modCluster c
    f s).evr = s.evr ∧ (modCluster c f s).pmc = s.pmc ∧ (modCluster c f s).pending = s.pending := by
  intro c f s; have h := modCluster_hide c f s 0x800#26 rfl; exact ⟨hide_glb h rfl, hide_pwr h rfl, hide_pins h rfl,
    hide_aon h rfl, hide_tbs h rfl, hide_rst h rfl, hide_boot h rfl, hide_nv h rfl, hide_out h rfl, hide_fus h rfl,
    hide_wsh h rfl, hide_job h rfl, hide_hlk h rfl, hide_sdl h rfl, hide_prs h rfl, hide_ldg h rfl, hide_kvt h rfl,
    hide_ent h rfl, hide_att h rfl, hide_tmp h rfl, hide_wdg h rfl, hide_chp h rfl, hide_evr h rfl, hide_pmc h rfl,
    hide_pending h rfl⟩

@[simp ↓] theorem gateCluster_hide : ∀ c s m, 0x1000800#26 &&& ~~~m = 0#26 → hide m (gateCluster c s) = hide m s := by
  intro c s m h; refine hide_le (k := 0x1000800#26) ?_ h; unfold gateCluster; simp

@[simp ↓] theorem clusterPower_hide : ∀ s m, 0x1000800#26 &&& ~~~m = 0#26 → hide m (clusterPower s) = hide m s := by
  intro s m h; refine hide_le (k := 0x1000800#26) ?_ h; unfold clusterPower; simp

@[simp ↓] theorem clusterPower_keeps : ∀ s, (clusterPower s).glb = s.glb ∧ (clusterPower s).pwr = s.pwr ∧
    (clusterPower s).pins = s.pins ∧ (clusterPower s).aon = s.aon ∧ (clusterPower s).tbs = s.tbs ∧ (clusterPower
    s).rst = s.rst ∧ (clusterPower s).boot = s.boot ∧ (clusterPower s).nv = s.nv ∧ (clusterPower s).out = s.out ∧
    (clusterPower s).fus = s.fus ∧ (clusterPower s).wsh = s.wsh ∧ (clusterPower s).job = s.job ∧ (clusterPower s).hlk
    = s.hlk ∧ (clusterPower s).sdl = s.sdl ∧ (clusterPower s).prs = s.prs ∧ (clusterPower s).ldg = s.ldg ∧
    (clusterPower s).kvt = s.kvt ∧ (clusterPower s).ent = s.ent ∧ (clusterPower s).att = s.att ∧ (clusterPower s).tmp
    = s.tmp ∧ (clusterPower s).wdg = s.wdg ∧ (clusterPower s).chp = s.chp ∧ (clusterPower s).evr = s.evr ∧
    (clusterPower s).pending = s.pending := by
  intro s; have h := clusterPower_hide s 0x1000800#26 rfl; exact ⟨hide_glb h rfl, hide_pwr h rfl, hide_pins h rfl,
    hide_aon h rfl, hide_tbs h rfl, hide_rst h rfl, hide_boot h rfl, hide_nv h rfl, hide_out h rfl, hide_fus h rfl,
    hide_wsh h rfl, hide_job h rfl, hide_hlk h rfl, hide_sdl h rfl, hide_prs h rfl, hide_ldg h rfl, hide_kvt h rfl,
    hide_ent h rfl, hide_att h rfl, hide_tmp h rfl, hide_wdg h rfl, hide_chp h rfl, hide_evr h rfl, hide_pending h
    rfl⟩

@[simp ↓] theorem forceNow_hide : ∀ s m, 0x1000802#26 &&& ~~~m = 0#26 → hide m (forceNow s) = hide m s := by
  intro s m h; refine hide_le (k := 0x1000802#26) ?_ h; unfold forceNow; simp

@[simp ↓] theorem forceNow_keeps : ∀ s, (forceNow s).glb = s.glb ∧ (forceNow s).pins = s.pins ∧ (forceNow s).aon =
    s.aon ∧ (forceNow s).tbs = s.tbs ∧ (forceNow s).rst = s.rst ∧ (forceNow s).boot = s.boot ∧ (forceNow s).nv = s.nv
    ∧ (forceNow s).out = s.out ∧ (forceNow s).fus = s.fus ∧ (forceNow s).wsh = s.wsh ∧ (forceNow s).job = s.job ∧
    (forceNow s).hlk = s.hlk ∧ (forceNow s).sdl = s.sdl ∧ (forceNow s).prs = s.prs ∧ (forceNow s).ldg = s.ldg ∧
    (forceNow s).kvt = s.kvt ∧ (forceNow s).ent = s.ent ∧ (forceNow s).att = s.att ∧ (forceNow s).tmp = s.tmp ∧
    (forceNow s).wdg = s.wdg ∧ (forceNow s).chp = s.chp ∧ (forceNow s).evr = s.evr ∧ (forceNow s).pending = s.pending
    := by
  intro s; have h := forceNow_hide s 0x1000802#26 rfl; exact ⟨hide_glb h rfl, hide_pins h rfl, hide_aon h rfl, hide_tbs
    h rfl, hide_rst h rfl, hide_boot h rfl, hide_nv h rfl, hide_out h rfl, hide_fus h rfl, hide_wsh h rfl, hide_job h
    rfl, hide_hlk h rfl, hide_sdl h rfl, hide_prs h rfl, hide_ldg h rfl, hide_kvt h rfl, hide_ent h rfl, hide_att h
    rfl, hide_tmp h rfl, hide_wdg h rfl, hide_chp h rfl, hide_evr h rfl, hide_pending h rfl⟩

@[simp ↓] theorem forceEnds_hide : ∀ s m, 0x1000802#26 &&& ~~~m = 0#26 → hide m (forceEnds s) = hide m s := by
  intro s m h; refine hide_le (k := 0x1000802#26) ?_ h; unfold forceEnds; simp

@[simp ↓] theorem enterRung_hide : ∀ r s m, 0x180210a#26 &&& ~~~m = 0#26 → hide m (enterRung r s) = hide m s := by
  intro r s m h; refine hide_le (k := 0x180210a#26) ?_ h; unfold enterRung; simp

@[simp ↓] theorem enterRung_keeps : ∀ r s, (enterRung r s).glb = s.glb ∧ (enterRung r s).pins = s.pins ∧ (enterRung r
    s).tbs = s.tbs ∧ (enterRung r s).rst = s.rst ∧ (enterRung r s).boot = s.boot ∧ (enterRung r s).nv = s.nv ∧
    (enterRung r s).fus = s.fus ∧ (enterRung r s).wsh = s.wsh ∧ (enterRung r s).pln = s.pln ∧ (enterRung r s).job =
    s.job ∧ (enterRung r s).sdl = s.sdl ∧ (enterRung r s).prs = s.prs ∧ (enterRung r s).ldg = s.ldg ∧ (enterRung r
    s).kvt = s.kvt ∧ (enterRung r s).ent = s.ent ∧ (enterRung r s).att = s.att ∧ (enterRung r s).tmp = s.tmp ∧
    (enterRung r s).wdg = s.wdg ∧ (enterRung r s).chp = s.chp ∧ (enterRung r s).pending = s.pending := by
  intro r s; have h := enterRung_hide r s 0x180210a#26 rfl; exact ⟨hide_glb h rfl, hide_pins h rfl, hide_tbs h rfl,
    hide_rst h rfl, hide_boot h rfl, hide_nv h rfl, hide_fus h rfl, hide_wsh h rfl, hide_pln h rfl, hide_job h rfl,
    hide_sdl h rfl, hide_prs h rfl, hide_ldg h rfl, hide_kvt h rfl, hide_ent h rfl, hide_att h rfl, hide_tmp h rfl,
    hide_wdg h rfl, hide_chp h rfl, hide_pending h rfl⟩

@[simp ↓] theorem linkPm_hide : ∀ n s m, 0x2004#26 &&& ~~~m = 0#26 → hide m (linkPm n s) = hide m s := by
  intro n s m h; refine hide_le (k := 0x2004#26) ?_ h; unfold linkPm; simp

@[simp ↓] theorem linkPm_keeps : ∀ n s, (linkPm n s).glb = s.glb ∧ (linkPm n s).pwr = s.pwr ∧ (linkPm n s).aon = s.aon
    ∧ (linkPm n s).tbs = s.tbs ∧ (linkPm n s).rst = s.rst ∧ (linkPm n s).boot = s.boot ∧ (linkPm n s).nv = s.nv ∧
    (linkPm n s).out = s.out ∧ (linkPm n s).fus = s.fus ∧ (linkPm n s).wsh = s.wsh ∧ (linkPm n s).pln = s.pln ∧
    (linkPm n s).job = s.job ∧ (linkPm n s).sdl = s.sdl ∧ (linkPm n s).prs = s.prs ∧ (linkPm n s).ldg = s.ldg ∧
    (linkPm n s).kvt = s.kvt ∧ (linkPm n s).ent = s.ent ∧ (linkPm n s).att = s.att ∧ (linkPm n s).tmp = s.tmp ∧
    (linkPm n s).wdg = s.wdg ∧ (linkPm n s).chp = s.chp ∧ (linkPm n s).evr = s.evr ∧ (linkPm n s).pmc = s.pmc ∧
    (linkPm n s).pending = s.pending := by
  intro n s; have h := linkPm_hide n s 0x2004#26 rfl; exact ⟨hide_glb h rfl, hide_pwr h rfl, hide_aon h rfl, hide_tbs h
    rfl, hide_rst h rfl, hide_boot h rfl, hide_nv h rfl, hide_out h rfl, hide_fus h rfl, hide_wsh h rfl, hide_pln h
    rfl, hide_job h rfl, hide_sdl h rfl, hide_prs h rfl, hide_ldg h rfl, hide_kvt h rfl, hide_ent h rfl, hide_att h
    rfl, hide_tmp h rfl, hide_wdg h rfl, hide_chp h rfl, hide_evr h rfl, hide_pmc h rfl, hide_pending h rfl⟩

@[simp ↓] theorem leaveIdle_hide : ∀ s m, 0x180290e#26 &&& ~~~m = 0#26 → hide m (leaveIdle s) = hide m s := by
  intro s m h; refine hide_le (k := 0x180290e#26) ?_ h; unfold leaveIdle; simp

@[simp ↓] theorem leaveIdle_keeps : ∀ s, (leaveIdle s).glb = s.glb ∧ (leaveIdle s).tbs = s.tbs ∧ (leaveIdle s).rst =
    s.rst ∧ (leaveIdle s).boot = s.boot ∧ (leaveIdle s).nv = s.nv ∧ (leaveIdle s).fus = s.fus ∧ (leaveIdle s).wsh =
    s.wsh ∧ (leaveIdle s).job = s.job ∧ (leaveIdle s).sdl = s.sdl ∧ (leaveIdle s).prs = s.prs ∧ (leaveIdle s).ldg =
    s.ldg ∧ (leaveIdle s).kvt = s.kvt ∧ (leaveIdle s).ent = s.ent ∧ (leaveIdle s).att = s.att ∧ (leaveIdle s).tmp =
    s.tmp ∧ (leaveIdle s).wdg = s.wdg ∧ (leaveIdle s).chp = s.chp ∧ (leaveIdle s).pending = s.pending := by
  intro s; have h := leaveIdle_hide s 0x180290e#26 rfl; exact ⟨hide_glb h rfl, hide_tbs h rfl, hide_rst h rfl, hide_boot
    h rfl, hide_nv h rfl, hide_fus h rfl, hide_wsh h rfl, hide_job h rfl, hide_sdl h rfl, hide_prs h rfl, hide_ldg h
    rfl, hide_kvt h rfl, hide_ent h rfl, hide_att h rfl, hide_tmp h rfl, hide_wdg h rfl, hide_chp h rfl, hide_pending
    h rfl⟩

@[simp ↓] theorem unserved_hide : ∀ bar off s m, 0x1802009#26 &&& ~~~m = 0#26 → hide m (unserved bar off s) = hide m s
    := by
  intro bar off s m h; refine hide_le (k := 0x1802009#26) ?_ h; unfold unserved; simp

@[simp ↓] theorem unserved_keeps : ∀ bar off s, (unserved bar off s).pwr = s.pwr ∧ (unserved bar off s).pins = s.pins
    ∧ (unserved bar off s).tbs = s.tbs ∧ (unserved bar off s).rst = s.rst ∧ (unserved bar off s).boot = s.boot ∧
    (unserved bar off s).nv = s.nv ∧ (unserved bar off s).out = s.out ∧ (unserved bar off s).fus = s.fus ∧ (unserved
    bar off s).wsh = s.wsh ∧ (unserved bar off s).pln = s.pln ∧ (unserved bar off s).job = s.job ∧ (unserved bar off
    s).sdl = s.sdl ∧ (unserved bar off s).prs = s.prs ∧ (unserved bar off s).ldg = s.ldg ∧ (unserved bar off s).kvt =
    s.kvt ∧ (unserved bar off s).ent = s.ent ∧ (unserved bar off s).att = s.att ∧ (unserved bar off s).tmp = s.tmp ∧
    (unserved bar off s).wdg = s.wdg ∧ (unserved bar off s).chp = s.chp ∧ (unserved bar off s).pending = s.pending :=
    by
  intro bar off s; have h := unserved_hide bar off s 0x1802009#26 rfl; exact ⟨hide_pwr h rfl, hide_pins h rfl, hide_tbs h
    rfl, hide_rst h rfl, hide_boot h rfl, hide_nv h rfl, hide_out h rfl, hide_fus h rfl, hide_wsh h rfl, hide_pln h
    rfl, hide_job h rfl, hide_sdl h rfl, hide_prs h rfl, hide_ldg h rfl, hide_kvt h rfl, hide_ent h rfl, hide_att h
    rfl, hide_tmp h rfl, hide_wdg h rfl, hide_chp h rfl, hide_pending h rfl⟩

@[simp ↓] theorem access_hide (a : Agent) (off : Nat) (k : State → State) (s : State) (m : BitVec 26) (hm :
    0x180290f#26 &&& ~~~m = 0#26) (h : ∀ s, hide m (k s) = hide m s) : hide m (access a off k s) = hide m s := by
  have t (k : BitVec 26) (hk : k &&& ~~~0x180290f#26 = 0#26) : k &&& ~~~m = 0#26 := sub_trans hk hm
  unfold access; (repeat' first | split | dsimp only) <;> simp [h, t]

@[simp ↓] theorem accessPf0_hide (a : Agent) (off : Nat) (k : State → State) (s : State) (m : BitVec 26) (hm :
    0x180290f#26 &&& ~~~m = 0#26) (h : ∀ s, hide m (k s) = hide m s) : hide m (accessPf0 a off k s) = hide m s := by
  have t (k : BitVec 26) (hk : k &&& ~~~0x180290f#26 = 0#26) : k &&& ~~~m = 0#26 := sub_trans hk hm
  unfold accessPf0; (repeat' first | split | dsimp only) <;> simp [h, t]

@[simp ↓] theorem accessBar_hide (f : Fin 16) (bar off : Nat) (k : State → State) (s : State) (m : BitVec 26) (hm :
    0x180290f#26 &&& ~~~m = 0#26) (h : ∀ s, hide m (k s) = hide m s) : hide m (accessBar f bar off k s) = hide m s :=
    by
  have t (k : BitVec 26) (hk : k &&& ~~~0x180290f#26 = 0#26) : k &&& ~~~m = 0#26 := sub_trans hk hm
  unfold accessBar; (repeat' first | split | dsimp only) <;> simp [h, t]

@[simp ↓] theorem modPart_hide : ∀ p f s m, 0x400#26 &&& ~~~m = 0#26 → hide m (modPart p f s) = hide m s := by
  intro p f s m h; refine hide_le (k := 0x400#26) ?_ h; unfold modPart; simp

@[simp ↓] theorem charge_hide : ∀ p r n s m, 0x1000400#26 &&& ~~~m = 0#26 → hide m (charge p r n s) = hide m s := by
  intro p r n s m h; refine hide_le (k := 0x1000400#26) ?_ h; unfold charge; simp

@[simp ↓] theorem chargeDma_hide : ∀ p out bytes s m, 0x1000400#26 &&& ~~~m = 0#26 → hide m (chargeDma p out bytes s)
    = hide m s := by
  intro p out bytes s m h; refine hide_le (k := 0x1000400#26) ?_ h; unfold chargeDma; simp

@[simp ↓] theorem hostWrite_hide : ∀ fn addr b s m, 0x1000100#26 &&& ~~~m = 0#26 → hide m (hostWrite fn addr b s) =
    hide m s := by
  intro fn addr b s m h; refine hide_le (k := 0x1000100#26) ?_ h; unfold hostWrite; simp

@[simp ↓] theorem modFn_hide : ∀ f g s m, 0x2000#26 &&& ~~~m = 0#26 → hide m (modFn f g s) = hide m s := by
  intro f g s m h; refine hide_le (k := 0x2000#26) ?_ h; unfold modFn; simp

@[simp ↓] theorem sendMsix_hide : ∀ f v s m, 0x1002100#26 &&& ~~~m = 0#26 → hide m (sendMsix f v s) = hide m s := by
  intro f v s m h; refine hide_le (k := 0x1002100#26) ?_ h; unfold sendMsix; simp

@[simp ↓] theorem ringMsix_hide : ∀ s m, 0x1002100#26 &&& ~~~m = 0#26 → hide m (ringMsix s) = hide m s := by
  intro s m h; refine hide_le (k := 0x1002100#26) ?_ h; unfold ringMsix; simp

@[simp ↓] theorem batchEnd_hide : ∀ s m, 0x1002100#26 &&& ~~~m = 0#26 → hide m (batchEnd s) = hide m s := by
  intro s m h; refine hide_le (k := 0x1002100#26) ?_ h; unfold batchEnd; simp

@[simp ↓] theorem postOne_hide : ∀ s m, 0x1802508#26 &&& ~~~m = 0#26 → hide m (postOne s) = hide m s := by
  intro s m h; refine hide_le (k := 0x1802508#26) ?_ h; unfold postOne; (repeat' first | split | dsimp only) <;> simp

@[simp ↓] theorem markQueued_hide : ∀ s m, 0x2000#26 &&& ~~~m = 0#26 → hide m (markQueued s) = hide m s := by
  intro s m h; refine hide_le (k := 0x2000#26) ?_ h; unfold markQueued; simp

@[simp ↓] theorem modJob_hide : ∀ id f s m, 0x1000#26 &&& ~~~m = 0#26 → hide m (modJob id f s) = hide m s := by
  intro id f s m h; refine hide_le (k := 0x1000#26) ?_ h; unfold modJob; simp

@[simp ↓] theorem chargeStandby_hide : ∀ s m, 0x400#26 &&& ~~~m = 0#26 → hide m (chargeStandby s) = hide m s := by
  intro s m h; refine hide_le (k := 0x400#26) ?_ h; unfold chargeStandby; exact hide_foldl _ _ (by intros; (repeat' first | split | dsimp only) <;> simp) _ _

@[simp ↓] theorem chargeTick_hide : ∀ s m, 0x1001400#26 &&& ~~~m = 0#26 → hide m (chargeTick s) = hide m s := by
  intro s m h; refine hide_le (k := 0x1001400#26) ?_ h; unfold chargeTick; simp

@[simp ↓] theorem pmcTick_hide : ∀ s m, 0x1000000#26 &&& ~~~m = 0#26 → hide m (pmcTick s) = hide m s := by
  intro s m h; refine hide_le (k := 0x1000000#26) ?_ h; unfold pmcTick; (repeat' first | split | dsimp only) <;> simp

@[simp ↓] theorem calTickStep_hide : ∀ s m, 0x8#26 &&& ~~~m = 0#26 → hide m (calTickStep s) = hide m s := by
  intro s m h; refine hide_le (k := 0x8#26) ?_ h; unfold calTickStep; simp

@[simp ↓] theorem tickStep_hide : ∀ s m, 0x1001418#26 &&& ~~~m = 0#26 → hide m (tickStep s) = hide m s := by
  intro s m h; refine hide_le (k := 0x1001418#26) ?_ h; unfold tickStep; simp

@[simp ↓] theorem modCh_hide : ∀ c f s m, 0x4000#26 &&& ~~~m = 0#26 → hide m (modCh c f s) = hide m s := by
  intro c f s m h; refine hide_le (k := 0x4000#26) ?_ h; unfold modCh; simp

@[simp ↓] theorem modCh_keeps : ∀ c f s, (modCh c f s).glb = s.glb ∧ (modCh c f s).pwr = s.pwr ∧ (modCh c f s).pins =
    s.pins ∧ (modCh c f s).aon = s.aon ∧ (modCh c f s).tbs = s.tbs ∧ (modCh c f s).rst = s.rst ∧ (modCh c f s).boot =
    s.boot ∧ (modCh c f s).nv = s.nv ∧ (modCh c f s).out = s.out ∧ (modCh c f s).fus = s.fus ∧ (modCh c f s).wsh =
    s.wsh ∧ (modCh c f s).pln = s.pln ∧ (modCh c f s).job = s.job ∧ (modCh c f s).hlk = s.hlk ∧ (modCh c f s).prs =
    s.prs ∧ (modCh c f s).ldg = s.ldg ∧ (modCh c f s).kvt = s.kvt ∧ (modCh c f s).ent = s.ent ∧ (modCh c f s).att =
    s.att ∧ (modCh c f s).tmp = s.tmp ∧ (modCh c f s).wdg = s.wdg ∧ (modCh c f s).chp = s.chp ∧ (modCh c f s).evr =
    s.evr ∧ (modCh c f s).pmc = s.pmc ∧ (modCh c f s).pending = s.pending := by
  intro c f s; have h := modCh_hide c f s 0x4000#26 rfl; exact ⟨hide_glb h rfl, hide_pwr h rfl, hide_pins h rfl,
    hide_aon h rfl, hide_tbs h rfl, hide_rst h rfl, hide_boot h rfl, hide_nv h rfl, hide_out h rfl, hide_fus h rfl,
    hide_wsh h rfl, hide_pln h rfl, hide_job h rfl, hide_hlk h rfl, hide_prs h rfl, hide_ldg h rfl, hide_kvt h rfl,
    hide_ent h rfl, hide_att h rfl, hide_tmp h rfl, hide_wdg h rfl, hide_chp h rfl, hide_evr h rfl, hide_pmc h rfl,
    hide_pending h rfl⟩

@[simp ↓] theorem modDom_hide : ∀ d f s m, 0x8000#26 &&& ~~~m = 0#26 → hide m (modDom d f s) = hide m s := by
  intro d f s m h; refine hide_le (k := 0x8000#26) ?_ h; unfold modDom; simp

@[simp ↓] theorem modObj_hide : ∀ o f s m, 0x10000#26 &&& ~~~m = 0#26 → hide m (modObj o f s) = hide m s := by
  intro o f s m h; refine hide_le (k := 0x10000#26) ?_ h; unfold modObj; simp

@[simp ↓] theorem modObj_keeps : ∀ o f s, (modObj o f s).glb = s.glb ∧ (modObj o f s).pwr = s.pwr ∧ (modObj o f
    s).pins = s.pins ∧ (modObj o f s).aon = s.aon ∧ (modObj o f s).tbs = s.tbs ∧ (modObj o f s).rst = s.rst ∧ (modObj
    o f s).boot = s.boot ∧ (modObj o f s).nv = s.nv ∧ (modObj o f s).out = s.out ∧ (modObj o f s).fus = s.fus ∧
    (modObj o f s).wsh = s.wsh ∧ (modObj o f s).pln = s.pln ∧ (modObj o f s).job = s.job ∧ (modObj o f s).hlk = s.hlk
    ∧ (modObj o f s).sdl = s.sdl ∧ (modObj o f s).prs = s.prs ∧ (modObj o f s).kvt = s.kvt ∧ (modObj o f s).ent =
    s.ent ∧ (modObj o f s).att = s.att ∧ (modObj o f s).tmp = s.tmp ∧ (modObj o f s).wdg = s.wdg ∧ (modObj o f s).chp
    = s.chp ∧ (modObj o f s).evr = s.evr ∧ (modObj o f s).pmc = s.pmc ∧ (modObj o f s).pending = s.pending := by
  intro o f s; have h := modObj_hide o f s 0x10000#26 rfl; exact ⟨hide_glb h rfl, hide_pwr h rfl, hide_pins h rfl,
    hide_aon h rfl, hide_tbs h rfl, hide_rst h rfl, hide_boot h rfl, hide_nv h rfl, hide_out h rfl, hide_fus h rfl,
    hide_wsh h rfl, hide_pln h rfl, hide_job h rfl, hide_hlk h rfl, hide_sdl h rfl, hide_prs h rfl, hide_kvt h rfl,
    hide_ent h rfl, hide_att h rfl, hide_tmp h rfl, hide_wdg h rfl, hide_chp h rfl, hide_evr h rfl, hide_pmc h rfl,
    hide_pending h rfl⟩

end Sys2Proof.Machine
end

