-- ==== Sys2Proof/Laws/Ledop.lean ====
section
/-! SUPPORT. What the operations of Machine/Ledop.lean leave as it was: every block of the state they do not name, and the
queue. -/

namespace Sys2Proof.Machine

@[simp ↓] theorem setWp_hide : ∀ c high s m, 0x4004#26 &&& ~~~m = 0#26 → hide m (setWp c high s) = hide m s := by
  intro c high s m h; refine hide_le (k := 0x4004#26) ?_ h; unfold setWp; simp

@[simp ↓] theorem setMode_hide : ∀ c m s mk, 0x180600c#26 &&& ~~~mk = 0#26 → hide mk (setMode c m s) = hide mk s := by
  intro c m s mk h; refine hide_le (k := 0x180600c#26) ?_ h; unfold setMode; simp

@[simp ↓] theorem sealAll_hide : ∀ s m, 0x180600c#26 &&& ~~~m = 0#26 → hide m (sealAll s) = hide m s := by
  intro s m h; refine hide_le (k := 0x180600c#26) ?_ h; unfold sealAll; simp

@[simp ↓] theorem chVerify_hide : ∀ c s m, 0x180600c#26 &&& ~~~m = 0#26 → hide m (chVerify c s) = hide m s := by
  intro c s m h; refine hide_le (k := 0x180600c#26) ?_ h; unfold chVerify; simp

@[simp ↓] theorem eregLoad_hide : ∀ c s m, 0x4000#26 &&& ~~~m = 0#26 → hide m (eregLoad c s) = hide m s := by
  intro c s m h; refine hide_le (k := 0x4000#26) ?_ h; unfold eregLoad; simp

@[simp ↓] theorem cvEnter_hide : ∀ c s m, 0x1806008#26 &&& ~~~m = 0#26 → hide m (cvEnter c s) = hide m s := by
  intro c s m h; refine hide_le (k := 0x1806008#26) ?_ h; unfold cvEnter; simp

@[simp ↓] theorem chRelease_hide : ∀ c s m, 0x180600c#26 &&& ~~~m = 0#26 → hide m (chRelease c s) = hide m s := by
  intro c s m h; refine hide_le (k := 0x180600c#26) ?_ h; unfold chRelease; simp

@[simp ↓] theorem flashErase_hide : ∀ c cs1 base len s m, 0x100#26 &&& ~~~m = 0#26 → hide m (flashErase c cs1 base len
    s) = hide m s := by
  intro c cs1 base len s m h; refine hide_le (k := 0x100#26) ?_ h; unfold flashErase; simp

@[simp ↓] theorem putSector_hide : ∀ one l s m, 0x80#26 &&& ~~~m = 0#26 → hide m (putSector one l s) = hide m s := by
  intro one l s m h; refine hide_le (k := 0x80#26) ?_ h; unfold putSector; simp

@[simp ↓] theorem ledEmpty_hide : ∀ cause s m, 0x1812008#26 &&& ~~~m = 0#26 → hide m (ledEmpty cause s) = hide m s :=
    by
  intro cause s m h; refine hide_le (k := 0x1812008#26) ?_ h; unfold ledEmpty; simp

@[simp ↓] theorem readSector_hide : ∀ one s m, 0x1812008#26 &&& ~~~m = 0#26 → hide m (readSector one s) = hide m s :=
    by
  intro one s m h; refine hide_le (k := 0x1812008#26) ?_ h; unfold readSector; simp

@[simp ↓] theorem readLedger_hide : ∀ s m, 0x1812008#26 &&& ~~~m = 0#26 → hide m (readLedger s) = hide m s := by
  intro s m h; refine hide_le (k := 0x1812008#26) ?_ h; unfold readLedger; (repeat' first | split | dsimp only) <;> simp

@[simp ↓] theorem compact_hide : ∀ s m, 0x1812088#26 &&& ~~~m = 0#26 → hide m (compact s) = hide m s := by
  intro s m h; refine hide_le (k := 0x1812088#26) ?_ h; unfold compact; simp

@[simp ↓] theorem ledPut_hide : ∀ r s m, 0x10080#26 &&& ~~~m = 0#26 → hide m (ledPut r s) = hide m s := by
  intro r s m h; refine hide_le (k := 0x10080#26) ?_ h; unfold ledPut; simp

@[simp ↓] theorem ledTry_hide : ∀ r bad s m, 0x1812088#26 &&& ~~~m = 0#26 → hide m (ledTry r bad s).2 = hide m s := by
  intro r bad s m h; refine hide_le (k := 0x1812088#26) ?_ h; unfold ledTry; simp

@[simp ↓] theorem unstand_hide : ∀ o b s m, 0x10000#26 &&& ~~~m = 0#26 → hide m (unstand o b s) = hide m s := by
  intro o b s m h; refine hide_le (k := 0x10000#26) ?_ h; unfold unstand; simp

@[simp ↓] theorem ledAppend_hide : ∀ o b st origin ver sec dig s m, 0x1812088#26 &&& ~~~m = 0#26 → hide m (ledAppend o
    b st origin ver sec dig s).2 = hide m s := by
  intro o b st origin ver sec dig s m h; refine hide_le (k := 0x1812088#26) ?_ h; unfold ledAppend; simp

@[simp ↓] theorem ledRestate_hide : ∀ o b st origin s m, 0x1812088#26 &&& ~~~m = 0#26 → hide m (ledRestate o b st
    origin s).2 = hide m s := by
  intro o b st origin s m h; refine hide_le (k := 0x1812088#26) ?_ h; unfold ledRestate; (repeat' first | split | dsimp only) <;> simp

end Sys2Proof.Machine
end

