-- ==== Sys2Proof/Laws/Platform.lean ====
section
/-! SUPPORT. What the operations of Machine/Platform.lean leave as it was: every block of the state they do not name, and the
queue. -/

namespace Sys2Proof.Machine

@[simp ↓] theorem driveRst_hide : ∀ d assert s m, 0x8004#26 &&& ~~~m = 0#26 → hide m (driveRst d assert s) = hide m s
    := by
  intro d assert s m h; refine hide_le (k := 0x8004#26) ?_ h; unfold driveRst; simp

@[simp ↓] theorem modPlat_hide : ∀ d f s m, 0x200000#26 &&& ~~~m = 0#26 → hide m (modPlat d f s) = hide m s := by
  intro d f s m h; refine hide_le (k := 0x200000#26) ?_ h; unfold modPlat; simp

@[simp ↓] theorem armPlat_hide : ∀ d s m, 0x1a02008#26 &&& ~~~m = 0#26 → hide m (armPlat d s) = hide m s := by
  intro d s m h; refine hide_le (k := 0x1a02008#26) ?_ h; unfold armPlat; simp

@[simp ↓] theorem disarmPlat_hide : ∀ d s m, 0x200000#26 &&& ~~~m = 0#26 → hide m (disarmPlat d s) = hide m s := by
  intro d s m h; refine hide_le (k := 0x200000#26) ?_ h; unfold disarmPlat; simp

@[simp ↓] theorem setMbox_hide : ∀ c o st res s m, 0x4000#26 &&& ~~~m = 0#26 → hide m (setMbox c o st res s) = hide m
    s := by
  intro c o st res s m h; refine hide_le (k := 0x4000#26) ?_ h; unfold setMbox; simp

@[simp ↓] theorem eraseSlot_hide : ∀ o b s m, 0x10100#26 &&& ~~~m = 0#26 → hide m (eraseSlot o b s) = hide m s := by
  intro o b s m h; refine hide_le (k := 0x10100#26) ?_ h; unfold eraseSlot; (repeat' first | split | dsimp only) <;> simp

@[simp ↓] theorem endAbandon_hide : ∀ o cause s m, 0x1816188#26 &&& ~~~m = 0#26 → hide m (endAbandon o cause s) = hide
    m s := by
  intro o cause s m h; refine hide_le (k := 0x1816188#26) ?_ h; unfold endAbandon; (repeat' first | split | dsimp only) <;> simp

@[simp ↓] theorem abandonRedir_hide : ∀ o cause s m, 0x1816188#26 &&& ~~~m = 0#26 → hide m (abandonRedir o cause s) =
    hide m s := by
  intro o cause s m h; refine hide_le (k := 0x1816188#26) ?_ h; unfold abandonRedir; simp

@[simp ↓] theorem holdChannels_hide : ∀ d s m, 0x181618c#26 &&& ~~~m = 0#26 → hide m (holdChannels d s) = hide m s :=
    by
  intro d s m h; refine hide_le (k := 0x181618c#26) ?_ h; unfold holdChannels
  refine hide_foldl _ _ (fun s c => ?_) _ _
  dsimp only; rw [hide_foldl _ _ (fun s o => by simp)]; simp

@[simp ↓] theorem leaveReleased_hide : ∀ d tgt s m, 0x1a1e18c#26 &&& ~~~m = 0#26 → hide m (leaveReleased d tgt s) =
    hide m s := by
  intro d tgt s m h; refine hide_le (k := 0x1a1e18c#26) ?_ h; unfold leaveReleased; simp

@[simp ↓] theorem holdDomain_hide : ∀ x0 x1 x2 s m, 0x1a1e18c#26 &&& ~~~m = 0#26 → hide m (holdDomain x0 x1 x2 s) =
    hide m s := by
  intro n; induction n with
  | zero => intros; rfl
  | succ n ih =>
    intro d b s m h; refine hide_le (k := 0x1a1e18c#26) ?_ h; unfold holdDomain; dsimp only; split
    · rw [hide_foldl _ _ (fun s e => by split <;> simp [ih])]; simp
    · simp

@[simp ↓] theorem hold_hide : ∀ d bitNo s m, 0x1a1e18c#26 &&& ~~~m = 0#26 → hide m (hold d bitNo s) = hide m s := by
  intro d bitNo s m h; refine hide_le (k := 0x1a1e18c#26) ?_ h; unfold hold; simp

@[simp ↓] theorem hold_keeps : ∀ d bitNo s, (hold d bitNo s).glb = s.glb ∧ (hold d bitNo s).pwr = s.pwr ∧ (hold d
    bitNo s).tbs = s.tbs ∧ (hold d bitNo s).rst = s.rst ∧ (hold d bitNo s).boot = s.boot ∧ (hold d bitNo s).fus =
    s.fus ∧ (hold d bitNo s).wsh = s.wsh ∧ (hold d bitNo s).pln = s.pln ∧ (hold d bitNo s).job = s.job ∧ (hold d bitNo
    s).kvt = s.kvt ∧ (hold d bitNo s).ent = s.ent ∧ (hold d bitNo s).att = s.att ∧ (hold d bitNo s).tmp = s.tmp ∧
    (hold d bitNo s).chp = s.chp ∧ (hold d bitNo s).pending = s.pending := by
  intro d bitNo s; have h := hold_hide d bitNo s 0x1a1e18c#26 rfl; exact ⟨hide_glb h rfl, hide_pwr h rfl, hide_tbs h rfl,
    hide_rst h rfl, hide_boot h rfl, hide_fus h rfl, hide_wsh h rfl, hide_pln h rfl, hide_job h rfl, hide_kvt h rfl,
    hide_ent h rfl, hide_att h rfl, hide_tmp h rfl, hide_chp h rfl, hide_pending h rfl⟩

@[simp ↓] theorem unhold_hide : ∀ d bitNo s m, 0x8000#26 &&& ~~~m = 0#26 → hide m (unhold d bitNo s) = hide m s := by
  intro d bitNo s m h; refine hide_le (k := 0x8000#26) ?_ h; unfold unhold; simp

@[simp ↓] theorem cascadeFrom_hide : ∀ d s m, 0x1a1e18c#26 &&& ~~~m = 0#26 → hide m (cascadeFrom d s) = hide m s := by
  intro d s m h; refine hide_le (k := 0x1a1e18c#26) ?_ h; unfold cascadeFrom; simp

@[simp ↓] theorem startVerify_hide : ∀ d s m, 0x180a008#26 &&& ~~~m = 0#26 → hide m (startVerify d s) = hide m s := by
  intro d s m h; refine hide_le (k := 0x180a008#26) ?_ h; unfold startVerify; simp

@[simp ↓] theorem quarantine_hide : ∀ d o s m, 0x180a008#26 &&& ~~~m = 0#26 → hide m (quarantine d o s) = hide m s :=
    by
  intro d o s m h; refine hide_le (k := 0x180a008#26) ?_ h; unfold quarantine; simp

@[simp ↓] theorem chooseSlot_hide : ∀ o s m, 0x1816008#26 &&& ~~~m = 0#26 → hide m (chooseSlot o s) = hide m s := by
  intro o s m h; refine hide_le (k := 0x1816008#26) ?_ h; unfold chooseSlot; (repeat' first | split | dsimp only) <;> simp

@[simp ↓] theorem judge_hide : ∀ d s m, 0x180a008#26 &&& ~~~m = 0#26 → hide m (judge d s) = hide m s := by
  intro d s m h; refine hide_le (k := 0x180a008#26) ?_ h; unfold judge; (repeat' first | split | dsimp only) <;> simp

@[simp ↓] theorem releaseLine_hide : ∀ d golden s m, 0x1a0e00c#26 &&& ~~~m = 0#26 → hide m (releaseLine d golden s) =
    hide m s := by
  intro d golden s m h; refine hide_le (k := 0x1a0e00c#26) ?_ h; unfold releaseLine; simp

@[simp ↓] theorem releaseRecords_hide : ∀ o s m, 0x1812088#26 &&& ~~~m = 0#26 → hide m (releaseRecords o s) = hide m s
    := by
  intro o s m h; refine hide_le (k := 0x1812088#26) ?_ h; unfold releaseRecords; simp

@[simp ↓] theorem release_hide : ∀ d s m, 0x1a1e08c#26 &&& ~~~m = 0#26 → hide m (release d s) = hide m s := by
  intro d s m h; refine hide_le (k := 0x1a1e08c#26) ?_ h; unfold release; simp

@[simp ↓] theorem settleRound_hide : ∀ s m, 0x1a1e08c#26 &&& ~~~m = 0#26 → hide m (settleRound s) = hide m s := by
  intro s m h; refine hide_le (k := 0x1a1e08c#26) ?_ h; unfold settleRound; exact hide_foldl _ _ (by intros; (repeat' first | split | dsimp only) <;> simp) _ _

@[simp ↓] theorem settleRound_keeps : ∀ s, (settleRound s).glb = s.glb ∧ (settleRound s).pwr = s.pwr ∧ (settleRound
    s).tbs = s.tbs ∧ (settleRound s).rst = s.rst ∧ (settleRound s).boot = s.boot ∧ (settleRound s).out = s.out ∧
    (settleRound s).fus = s.fus ∧ (settleRound s).wsh = s.wsh ∧ (settleRound s).pln = s.pln ∧ (settleRound s).job =
    s.job ∧ (settleRound s).kvt = s.kvt ∧ (settleRound s).ent = s.ent ∧ (settleRound s).att = s.att ∧ (settleRound
    s).tmp = s.tmp ∧ (settleRound s).chp = s.chp ∧ (settleRound s).pending = s.pending := by
  intro s; have h := settleRound_hide s 0x1a1e08c#26 rfl; exact ⟨hide_glb h rfl, hide_pwr h rfl, hide_tbs h rfl,
    hide_rst h rfl, hide_boot h rfl, hide_out h rfl, hide_fus h rfl, hide_wsh h rfl, hide_pln h rfl, hide_job h rfl,
    hide_kvt h rfl, hide_ent h rfl, hide_att h rfl, hide_tmp h rfl, hide_chp h rfl, hide_pending h rfl⟩

@[simp ↓] theorem joinRecovery_hide : ∀ o s m, 0x8000#26 &&& ~~~m = 0#26 → hide m (joinRecovery o s) = hide m s := by
  intro o s m h; refine hide_le (k := 0x8000#26) ?_ h; unfold joinRecovery; simp

@[simp ↓] theorem joinRecovery_keeps : ∀ o s, (joinRecovery o s).glb = s.glb ∧ (joinRecovery o s).pwr = s.pwr ∧
    (joinRecovery o s).pins = s.pins ∧ (joinRecovery o s).aon = s.aon ∧ (joinRecovery o s).tbs = s.tbs ∧ (joinRecovery
    o s).rst = s.rst ∧ (joinRecovery o s).boot = s.boot ∧ (joinRecovery o s).nv = s.nv ∧ (joinRecovery o s).out =
    s.out ∧ (joinRecovery o s).fus = s.fus ∧ (joinRecovery o s).wsh = s.wsh ∧ (joinRecovery o s).pln = s.pln ∧
    (joinRecovery o s).job = s.job ∧ (joinRecovery o s).hlk = s.hlk ∧ (joinRecovery o s).sdl = s.sdl ∧ (joinRecovery o
    s).ldg = s.ldg ∧ (joinRecovery o s).kvt = s.kvt ∧ (joinRecovery o s).ent = s.ent ∧ (joinRecovery o s).att = s.att
    ∧ (joinRecovery o s).tmp = s.tmp ∧ (joinRecovery o s).wdg = s.wdg ∧ (joinRecovery o s).chp = s.chp ∧ (joinRecovery
    o s).evr = s.evr ∧ (joinRecovery o s).pmc = s.pmc ∧ (joinRecovery o s).pending = s.pending := by
  intro o s; have h := joinRecovery_hide o s 0x8000#26 rfl; exact ⟨hide_glb h rfl, hide_pwr h rfl, hide_pins h rfl,
    hide_aon h rfl, hide_tbs h rfl, hide_rst h rfl, hide_boot h rfl, hide_nv h rfl, hide_out h rfl, hide_fus h rfl,
    hide_wsh h rfl, hide_pln h rfl, hide_job h rfl, hide_hlk h rfl, hide_sdl h rfl, hide_ldg h rfl, hide_kvt h rfl,
    hide_ent h rfl, hide_att h rfl, hide_tmp h rfl, hide_wdg h rfl, hide_chp h rfl, hide_evr h rfl, hide_pmc h rfl,
    hide_pending h rfl⟩

@[simp ↓] theorem recovered_hide : ∀ s m, 0x180a008#26 &&& ~~~m = 0#26 → hide m (recovered s) = hide m s := by
  intro s m h; refine hide_le (k := 0x180a008#26) ?_ h; unfold recovered; simp

@[simp ↓] theorem endRecovery_hide : ∀ s m, 0x18000#26 &&& ~~~m = 0#26 → hide m (endRecovery s) = hide m s := by
  intro s m h; refine hide_le (k := 0x18000#26) ?_ h; unfold endRecovery; simp

@[simp ↓] theorem endRecovery_keeps : ∀ s, (endRecovery s).glb = s.glb ∧ (endRecovery s).pwr = s.pwr ∧ (endRecovery
    s).pins = s.pins ∧ (endRecovery s).aon = s.aon ∧ (endRecovery s).tbs = s.tbs ∧ (endRecovery s).rst = s.rst ∧
    (endRecovery s).boot = s.boot ∧ (endRecovery s).nv = s.nv ∧ (endRecovery s).out = s.out ∧ (endRecovery s).fus =
    s.fus ∧ (endRecovery s).wsh = s.wsh ∧ (endRecovery s).pln = s.pln ∧ (endRecovery s).job = s.job ∧ (endRecovery
    s).hlk = s.hlk ∧ (endRecovery s).sdl = s.sdl ∧ (endRecovery s).kvt = s.kvt ∧ (endRecovery s).ent = s.ent ∧
    (endRecovery s).att = s.att ∧ (endRecovery s).tmp = s.tmp ∧ (endRecovery s).wdg = s.wdg ∧ (endRecovery s).chp =
    s.chp ∧ (endRecovery s).evr = s.evr ∧ (endRecovery s).pmc = s.pmc ∧ (endRecovery s).pending = s.pending := by
  intro s; have h := endRecovery_hide s 0x18000#26 rfl; exact ⟨hide_glb h rfl, hide_pwr h rfl, hide_pins h rfl, hide_aon
    h rfl, hide_tbs h rfl, hide_rst h rfl, hide_boot h rfl, hide_nv h rfl, hide_out h rfl, hide_fus h rfl, hide_wsh h
    rfl, hide_pln h rfl, hide_job h rfl, hide_hlk h rfl, hide_sdl h rfl, hide_kvt h rfl, hide_ent h rfl, hide_att h
    rfl, hide_tmp h rfl, hide_wdg h rfl, hide_chp h rfl, hide_evr h rfl, hide_pmc h rfl, hide_pending h rfl⟩

@[simp ↓] theorem driveStrap_hide : ∀ on s m, 0x4#26 &&& ~~~m = 0#26 → hide m (driveStrap on s) = hide m s := by
  intro on s m h; refine hide_le (k := 0x4#26) ?_ h; unfold driveStrap; (repeat' first | split | dsimp only) <;> simp

@[simp ↓] theorem openSession_hide : ∀ src o s m, 0x1812008#26 &&& ~~~m = 0#26 → hide m (openSession src o s) = hide m
    s := by
  intro src o s m h; refine hide_le (k := 0x1812008#26) ?_ h; unfold openSession; simp

@[simp ↓] theorem openSession_keeps : ∀ src o s, (openSession src o s).glb = s.glb ∧ (openSession src o s).pwr = s.pwr
    ∧ (openSession src o s).pins = s.pins ∧ (openSession src o s).tbs = s.tbs ∧ (openSession src o s).rst = s.rst ∧
    (openSession src o s).boot = s.boot ∧ (openSession src o s).nv = s.nv ∧ (openSession src o s).out = s.out ∧
    (openSession src o s).fus = s.fus ∧ (openSession src o s).wsh = s.wsh ∧ (openSession src o s).pln = s.pln ∧
    (openSession src o s).job = s.job ∧ (openSession src o s).sdl = s.sdl ∧ (openSession src o s).prs = s.prs ∧
    (openSession src o s).kvt = s.kvt ∧ (openSession src o s).ent = s.ent ∧ (openSession src o s).att = s.att ∧
    (openSession src o s).tmp = s.tmp ∧ (openSession src o s).wdg = s.wdg ∧ (openSession src o s).chp = s.chp ∧
    (openSession src o s).pending = s.pending := by
  intro src o s; have h := openSession_hide src o s 0x1812008#26 rfl; exact ⟨hide_glb h rfl, hide_pwr h rfl, hide_pins h
    rfl, hide_tbs h rfl, hide_rst h rfl, hide_boot h rfl, hide_nv h rfl, hide_out h rfl, hide_fus h rfl, hide_wsh h
    rfl, hide_pln h rfl, hide_job h rfl, hide_sdl h rfl, hide_prs h rfl, hide_kvt h rfl, hide_ent h rfl, hide_att h
    rfl, hide_tmp h rfl, hide_wdg h rfl, hide_chp h rfl, hide_pending h rfl⟩

@[simp ↓] theorem driveRdy_hide : ∀ high s m, 0x4#26 &&& ~~~m = 0#26 → hide m (driveRdy high s) = hide m s := by
  intro high s m h; refine hide_le (k := 0x4#26) ?_ h; unfold driveRdy; (repeat' first | split | dsimp only) <;> simp

@[simp ↓] theorem selsUp_hide : ∀ s m, 0x4#26 &&& ~~~m = 0#26 → hide m (selsUp s) = hide m s := by
  intro s m h; refine hide_le (k := 0x4#26) ?_ h; unfold selsUp; simp

@[simp ↓] theorem toolOpen_hide : ∀ o s m, 0x1c1200c#26 &&& ~~~m = 0#26 → hide m (toolOpen o s) = hide m s := by
  intro o s m h; refine hide_le (k := 0x1c1200c#26) ?_ h; unfold toolOpen; simp

@[simp ↓] theorem toolOpen_keeps : ∀ o s, (toolOpen o s).glb = s.glb ∧ (toolOpen o s).pwr = s.pwr ∧ (toolOpen o s).tbs
    = s.tbs ∧ (toolOpen o s).rst = s.rst ∧ (toolOpen o s).boot = s.boot ∧ (toolOpen o s).nv = s.nv ∧ (toolOpen o
    s).out = s.out ∧ (toolOpen o s).fus = s.fus ∧ (toolOpen o s).wsh = s.wsh ∧ (toolOpen o s).pln = s.pln ∧ (toolOpen
    o s).job = s.job ∧ (toolOpen o s).sdl = s.sdl ∧ (toolOpen o s).prs = s.prs ∧ (toolOpen o s).kvt = s.kvt ∧
    (toolOpen o s).ent = s.ent ∧ (toolOpen o s).att = s.att ∧ (toolOpen o s).tmp = s.tmp ∧ (toolOpen o s).wdg = s.wdg
    ∧ (toolOpen o s).pending = s.pending := by
  intro o s; have h := toolOpen_hide o s 0x1c1200c#26 rfl; exact ⟨hide_glb h rfl, hide_pwr h rfl, hide_tbs h rfl,
    hide_rst h rfl, hide_boot h rfl, hide_nv h rfl, hide_out h rfl, hide_fus h rfl, hide_wsh h rfl, hide_pln h rfl,
    hide_job h rfl, hide_sdl h rfl, hide_prs h rfl, hide_kvt h rfl, hide_ent h rfl, hide_att h rfl, hide_tmp h rfl,
    hide_wdg h rfl, hide_pending h rfl⟩

@[simp ↓] theorem toolEnd_hide : ∀ cause s m, 0x1c0200c#26 &&& ~~~m = 0#26 → hide m (toolEnd cause s) = hide m s := by
  intro cause s m h; refine hide_le (k := 0x1c0200c#26) ?_ h; unfold toolEnd; simp

@[simp ↓] theorem failAttempt_hide : ∀ cause s m, 0x1c1200c#26 &&& ~~~m = 0#26 → hide m (failAttempt cause s) = hide m
    s := by
  intro cause s m h; refine hide_le (k := 0x1c1200c#26) ?_ h; unfold failAttempt; simp

@[simp ↓] theorem failAttempt_keeps : ∀ cause s, (failAttempt cause s).glb = s.glb ∧ (failAttempt cause s).pwr = s.pwr
    ∧ (failAttempt cause s).tbs = s.tbs ∧ (failAttempt cause s).rst = s.rst ∧ (failAttempt cause s).boot = s.boot ∧
    (failAttempt cause s).nv = s.nv ∧ (failAttempt cause s).out = s.out ∧ (failAttempt cause s).fus = s.fus ∧
    (failAttempt cause s).wsh = s.wsh ∧ (failAttempt cause s).pln = s.pln ∧ (failAttempt cause s).job = s.job ∧
    (failAttempt cause s).sdl = s.sdl ∧ (failAttempt cause s).prs = s.prs ∧ (failAttempt cause s).kvt = s.kvt ∧
    (failAttempt cause s).ent = s.ent ∧ (failAttempt cause s).att = s.att ∧ (failAttempt cause s).tmp = s.tmp ∧
    (failAttempt cause s).wdg = s.wdg ∧ (failAttempt cause s).pending = s.pending := by
  intro cause s; have h := failAttempt_hide cause s 0x1c1200c#26 rfl; exact ⟨hide_glb h rfl, hide_pwr h rfl, hide_tbs h rfl,
    hide_rst h rfl, hide_boot h rfl, hide_nv h rfl, hide_out h rfl, hide_fus h rfl, hide_wsh h rfl, hide_pln h rfl,
    hide_job h rfl, hide_sdl h rfl, hide_prs h rfl, hide_kvt h rfl, hide_ent h rfl, hide_att h rfl, hide_tmp h rfl,
    hide_wdg h rfl, hide_pending h rfl⟩

@[simp ↓] theorem rcvTurn_hide (peer : Fin 64 → State → State) (s : State) (m : BitVec 26) (hm : 0x1c1a00c#26 &&& ~~~m
    = 0#26) (h : ∀ d s, hide m (peer d s) = hide m s) : hide m (rcvTurn peer s).2 = hide m s := by
  have t (k : BitVec 26) (hk : k &&& ~~~0x1c1a00c#26 = 0#26) : k &&& ~~~m = 0#26 := sub_trans hk hm
  unfold rcvTurn; (repeat' first | split | dsimp only) <;> simp [h, t]

@[simp ↓] theorem rcvNext_hide (peer : Fin 64 → State → State) (n : Nat) (s : State) (m : BitVec 26) (hm :
    0x1c1a00c#26 &&& ~~~m = 0#26) (h : ∀ d s, hide m (peer d s) = hide m s) : hide m (rcvNext peer n s) = hide m s :=
    by
  have t (k : BitVec 26) (hk : k &&& ~~~0x1c1a00c#26 = 0#26) : k &&& ~~~m = 0#26 := sub_trans hk hm
  induction n generalizing s with
  | zero => simp [rcvNext]
  | succ n ih => simp only [rcvNext]; split <;> simp [ih, h, t]

@[simp ↓] theorem startRecovery_hide (peer : Fin 64 → State → State) (s : State) (m : BitVec 26) (hm : 0x1c1a00c#26
    &&& ~~~m = 0#26) (h : ∀ d s, hide m (peer d s) = hide m s) : hide m (startRecovery peer s) = hide m s := by
  have t (k : BitVec 26) (hk : k &&& ~~~0x1c1a00c#26 = 0#26) : k &&& ~~~m = 0#26 := sub_trans hk hm
  unfold startRecovery; (repeat' first | split | dsimp only) <;> simp [h, t]

@[simp ↓] theorem settleWith_hide (peer : Fin 64 → State → State) (s : State) (m : BitVec 26) (hm : 0x1e1e08c#26 &&&
    ~~~m = 0#26) (h : ∀ d s, hide m (peer d s) = hide m s) : hide m (settleWith peer s) = hide m s := by
  have t (k : BitVec 26) (hk : k &&& ~~~0x1e1e08c#26 = 0#26) : k &&& ~~~m = 0#26 := sub_trans hk hm
  have i (n : Nat) (s : State) : hide m (iterN settleRound n s) = hide m s := hide_iterN _ _ (fun s => by simp [t]) n s
  unfold settleWith; dsimp only; split <;> simp [i, h, t]

@[simp ↓] theorem sweep_hide : ∀ s m, 0x1812188#26 &&& ~~~m = 0#26 → hide m (sweep s) = hide m s := by
  intro s m h; refine hide_le (k := 0x1812188#26) ?_ h; unfold sweep; simp

@[simp ↓] theorem eraseEnds_hide : ∀ s m, 0x1c1a00c#26 &&& ~~~m = 0#26 → hide m (eraseEnds s) = hide m s := by
  intro s m h; refine hide_le (k := 0x1c1a00c#26) ?_ h; unfold eraseEnds; simp

@[simp ↓] theorem vflashDown_hide : ∀ s m, 0x1a1e18e#26 &&& ~~~m = 0#26 → hide m (vflashDown s) = hide m s := by
  intro s m h; refine hide_le (k := 0x1a1e18e#26) ?_ h; unfold vflashDown; simp

@[simp ↓] theorem vflashUp_hide : ∀ s m, 0x180e00e#26 &&& ~~~m = 0#26 → hide m (vflashUp s) = hide m s := by
  intro s m h; refine hide_le (k := 0x180e00e#26) ?_ h; unfold vflashUp; simp

end Sys2Proof.Machine
end

