-- ==== Sys2Proof/Laws/Fedop.lean ====
section
/-! SUPPORT. What the operations of Machine/Fedop.lean leave as it was: every block of the state they do not name, and the
queue. -/

namespace Sys2Proof.Machine

@[simp ↓] theorem txWrite_hide : ∀ dst f s m, 0x1080500#26 &&& ~~~m = 0#26 → hide m (txWrite dst f s) = hide m s := by
  intro dst f s m h; refine hide_le (k := 0x1080500#26) ?_ h; unfold txWrite; simp

@[simp ↓] theorem txRing_hide : ∀ dst f s m, 0x1882508#26 &&& ~~~m = 0#26 → hide m (txRing dst f s) = hide m s := by
  intro dst f s m h; refine hide_le (k := 0x1882508#26) ?_ h; unfold txRing; simp

@[simp ↓] theorem txDrain_hide : ∀ x0 s m, 0x1080500#26 &&& ~~~m = 0#26 → hide m (txDrain x0 s) = hide m s := by
  intro n; induction n with
  | zero => intros; rfl
  | succ n ih =>
    intro s m h; refine hide_le (k := 0x1080500#26) ?_ h; unfold txDrain; (repeat' first | split | dsimp only) <;> simp [ih]

@[simp ↓] theorem sendFrame_hide : ∀ dst f s m, 0x1882508#26 &&& ~~~m = 0#26 → hide m (sendFrame dst f s) = hide m s
    := by
  intro dst f s m h; refine hide_le (k := 0x1882508#26) ?_ h; unfold sendFrame; simp

@[simp ↓] theorem sendPlain_hide : ∀ typ dst payload s m, 0x1882508#26 &&& ~~~m = 0#26 → hide m (sendPlain typ dst
    payload s) = hide m s := by
  intro typ dst payload s m h; refine hide_le (k := 0x1882508#26) ?_ h; unfold sendPlain; simp

@[simp ↓] theorem sendOn_hide : ∀ typ l payload s m, 0x1882508#26 &&& ~~~m = 0#26 → hide m (sendOn typ l payload s).2
    = hide m s := by
  intro typ l payload s m h; refine hide_le (k := 0x1882508#26) ?_ h; unfold sendOn; simp

@[simp ↓] theorem sendUp_hide : ∀ typ payload s m, 0x1882508#26 &&& ~~~m = 0#26 → hide m (sendUp typ payload s) = hide
    m s := by
  intro typ payload s m h; refine hide_le (k := 0x1882508#26) ?_ h; unfold sendUp
  (repeat' first | split | dsimp only) <;> ((try simp) <;> (repeat (refine hide_snd (by assumption) ?_; try simp)))

@[simp ↓] theorem sendDown_hide : ∀ typ m payload s mk, 0x1882508#26 &&& ~~~mk = 0#26 → hide mk (sendDown typ m
    payload s) = hide mk s := by
  intro typ m payload s mk h; refine hide_le (k := 0x1882508#26) ?_ h; unfold sendDown
  (repeat' first | split | dsimp only) <;> ((try simp) <;> (repeat (refine hide_snd (by assumption) ?_; try simp)))

@[simp ↓] theorem askPeer_hide : ∀ o s m, 0x1882508#26 &&& ~~~m = 0#26 → hide m (askPeer o s) = hide m s := by
  intro o s m h; refine hide_le (k := 0x1882508#26) ?_ h; unfold askPeer; simp

@[simp ↓] theorem settle_hide : ∀ s m, 0x1e9e58c#26 &&& ~~~m = 0#26 → hide m (settle s) = hide m s := by
  intro s m h; refine hide_le (k := 0x1e9e58c#26) ?_ h; unfold settle; simp

@[simp ↓] theorem nextAttempt_hide : ∀ s m, 0x1e9e58c#26 &&& ~~~m = 0#26 → hide m (nextAttempt s) = hide m s := by
  intro s m h; refine hide_le (k := 0x1e9e58c#26) ?_ h; unfold nextAttempt; simp

@[simp ↓] theorem sendHello_hide : ∀ s m, 0x1882508#26 &&& ~~~m = 0#26 → hide m (sendHello s) = hide m s := by
  intro s m h; refine hide_le (k := 0x1882508#26) ?_ h; unfold sendHello; simp

@[simp ↓] theorem endLinks_hide : ∀ s m, 0x80000#26 &&& ~~~m = 0#26 → hide m (endLinks s) = hide m s := by
  intro s m h; refine hide_le (k := 0x80000#26) ?_ h; unfold endLinks; simp

end Sys2Proof.Machine
end

