-- ==== Sys2Proof/Laws/Vaultop.lean ====
section
/-! SUPPORT. What the operations of Machine/Vaultop.lean leave as it was: every block of the state they do not name, and the
queue. -/

namespace Sys2Proof.Machine

@[simp ↓] theorem putSlot_hide : ∀ n kt a owner ver key s m, 0x60100#26 &&& ~~~m = 0#26 → hide m (putSlot n kt a owner
    ver key s) = hide m s := by
  intro n kt a owner ver key s m h; refine hide_le (k := 0x60100#26) ?_ h; unfold putSlot; simp

@[simp ↓] theorem stopKeyJobs_hide : ∀ p s m, 0x1100#26 &&& ~~~m = 0#26 → hide m (stopKeyJobs p s) = hide m s := by
  intro p s m h; refine hide_le (k := 0x1100#26) ?_ h; unfold stopKeyJobs; simp

@[simp ↓] theorem dropShadows_hide : ∀ p s m, 0x21000#26 &&& ~~~m = 0#26 → hide m (dropShadows p s) = hide m s := by
  intro p s m h; refine hide_le (k := 0x21000#26) ?_ h; unfold dropShadows; simp

@[simp ↓] theorem zeroSlot_hide : ∀ n src s m, 0x1823108#26 &&& ~~~m = 0#26 → hide m (zeroSlot n src s) = hide m s :=
    by
  intro n src s m h; refine hide_le (k := 0x1823108#26) ?_ h; unfold zeroSlot; simp

@[simp ↓] theorem zeroVault_hide : ∀ s m, 0x18a3108#26 &&& ~~~m = 0#26 → hide m (zeroVault s) = hide m s := by
  intro s m h; refine hide_le (k := 0x18a3108#26) ?_ h; unfold zeroVault; simp

@[simp ↓] theorem drawKek_hide : ∀ cause s m, 0x1862108#26 &&& ~~~m = 0#26 → hide m (drawKek cause s) = hide m s := by
  intro cause s m h; refine hide_le (k := 0x1862108#26) ?_ h; unfold drawKek; simp

@[simp ↓] theorem deriveSk_hide : ∀ s m, 0x20000#26 &&& ~~~m = 0#26 → hide m (deriveSk s) = hide m s := by
  intro s m h; refine hide_le (k := 0x20000#26) ?_ h; unfold deriveSk; simp

@[simp ↓] theorem drawFms_hide : ∀ lc s m, 0x60100#26 &&& ~~~m = 0#26 → hide m (drawFms lc s) = hide m s := by
  intro lc s m h; refine hide_le (k := 0x60100#26) ?_ h; unfold drawFms; simp

@[simp ↓] theorem derive_hide : ∀ s m, 0x18e2108#26 &&& ~~~m = 0#26 → hide m (derive s) = hide m s := by
  intro s m h; refine hide_le (k := 0x18e2108#26) ?_ h; unfold derive; (repeat' first | split | dsimp only) <;> simp

@[simp ↓] theorem startKek_hide : ∀ s m, 0x1862108#26 &&& ~~~m = 0#26 → hide m (startKek s) = hide m s := by
  intro s m h; refine hide_le (k := 0x1862108#26) ?_ h; unfold startKek; simp

@[simp ↓] theorem restore_hide : ∀ s m, 0x1862108#26 &&& ~~~m = 0#26 → hide m (restore s) = hide m s := by
  intro s m h; refine hide_le (k := 0x1862108#26) ?_ h; unfold restore; (repeat' first | split | dsimp only) <;> simp

@[simp ↓] theorem writePub_hide : ∀ kt key ok s m, 0x1020500#26 &&& ~~~m = 0#26 → hide m (writePub kt key ok s) = hide
    m s := by
  intro kt key ok s m h; refine hide_le (k := 0x1020500#26) ?_ h; unfold writePub; simp

@[simp ↓] theorem swapShadow_hide : ∀ i x s m, 0x1862508#26 &&& ~~~m = 0#26 → hide m (swapShadow i x s) = hide m s :=
    by
  intro i x s m h; refine hide_le (k := 0x1862508#26) ?_ h; unfold swapShadow; simp

@[simp ↓] theorem kvtAdvance_hide : ∀ x0 s m, 0x1862508#26 &&& ~~~m = 0#26 → hide m (kvtAdvance x0 s).1 = hide m s :=
    by
  intro n; induction n with
  | zero => intros; rfl
  | succ n ih =>
    intro s m h; refine hide_le (k := 0x1862508#26) ?_ h; unfold kvtAdvance
    (repeat' first | split | dsimp only) <;> simp [ih]

@[simp ↓] theorem beginReplace_hide : ∀ n kt a owner key cmd pub jobId s m, 0x1862508#26 &&& ~~~m = 0#26 → hide m
    (beginReplace n kt a owner key cmd pub jobId s).1 = hide m s := by
  intro n kt a owner key cmd pub jobId s m h; refine hide_le (k := 0x1862508#26) ?_ h; unfold beginReplace; simp

@[simp ↓] theorem freeShadows_hide : ∀ s m, 0x20000#26 &&& ~~~m = 0#26 → hide m (freeShadows s) = hide m s := by
  intro s m h; refine hide_le (k := 0x20000#26) ?_ h; unfold freeShadows; simp

@[simp ↓] theorem writeImage_hide : ∀ es s m, 0x1822088#26 &&& ~~~m = 0#26 → hide m (writeImage es s) = hide m s := by
  intro es s m h; refine hide_le (k := 0x1822088#26) ?_ h; unfold writeImage; simp

@[simp ↓] theorem kumAccept_hide : ∀ m slot s mk, 0x1822008#26 &&& ~~~mk = 0#26 → hide mk (kumAccept m slot s) = hide
    mk s := by
  intro m slot s mk h; refine hide_le (k := 0x1822008#26) ?_ h; unfold kumAccept; simp

@[simp ↓] theorem kumRefuse_hide : ∀ m code s mk, 0x1802008#26 &&& ~~~mk = 0#26 → hide mk (kumRefuse m code s) = hide
    mk s := by
  intro m code s mk h; refine hide_le (k := 0x1802008#26) ?_ h; unfold kumRefuse; simp

end Sys2Proof.Machine
end

