-- ==== Sys2Proof/Laws/Token.lean ====
section
/-! SUPPORT. What the operations of Machine/Token.lean leave as it was: every block of the state they do not name, and the
queue. -/

namespace Sys2Proof.Machine

@[simp ↓] theorem signSlot_hide : ∀ alg slot ctx msg s m, 0x100#26 &&& ~~~m = 0#26 → hide m (signSlot alg slot ctx msg
    s).2 = hide m s := by
  intro alg slot ctx msg s m h; refine hide_le (k := 0x100#26) ?_ h; unfold signSlot; simp

@[simp ↓] theorem coseSign1_hide (alg : Int) (kid payload : Bytes) (sign : Bytes → State → Bytes × State) (s : State)
    (m : BitVec 26) (hm : 0x0#26 &&& ~~~m = 0#26) (h : ∀ b s, hide m (sign b s).2 = hide m s) : hide m (coseSign1 alg
    kid payload sign s).2 = hide m s := by
  have t (k : BitVec 26) (hk : k &&& ~~~0x0#26 = 0#26) : k &&& ~~~m = 0#26 := sub_trans hk hm
  unfold coseSign1; (repeat' first | split | dsimp only) <;> simp [h, t]

@[simp ↓] theorem hybridToken_hide : ∀ ml ec kid ctx payload s m, 0x100#26 &&& ~~~m = 0#26 → hide m (hybridToken ml ec
    kid ctx payload s).2 = hide m s := by
  intro ml ec kid ctx payload s m h; refine hide_le (k := 0x100#26) ?_ h; unfold hybridToken; simp

@[simp ↓] theorem evidenceToken_hide : ∀ nonce fn sel agg s m, 0x100#26 &&& ~~~m = 0#26 → hide m (evidenceToken nonce
    fn sel agg s).2 = hide m s := by
  intro nonce fn sel agg s m h; refine hide_le (k := 0x100#26) ?_ h; unfold evidenceToken; simp

end Sys2Proof.Machine
end

