-- ==== Sys2Proof/Laws/Arrayop.lean ====
section
/-! SUPPORT. What the operations of Machine/Arrayop.lean leave as it was: every block of the state they do not name, and the
queue. -/

namespace Sys2Proof.Machine

@[simp ↓] theorem putEng_hide : ∀ e x s m, 0x800#26 &&& ~~~m = 0#26 → hide m (putEng e x s) = hide m s := by
  intro e x s m h; refine hide_le (k := 0x800#26) ?_ h; unfold putEng; simp

@[simp ↓] theorem modEng_hide : ∀ e f s m, 0x800#26 &&& ~~~m = 0#26 → hide m (modEng e f s) = hide m s := by
  intro e f s m h; refine hide_le (k := 0x800#26) ?_ h; unfold modEng; (repeat' first | split | dsimp only) <;> simp

@[simp ↓] theorem dropEngine_hide : ∀ e s m, 0x800#26 &&& ~~~m = 0#26 → hide m (dropEngine e s) = hide m s := by
  intro e s m h; refine hide_le (k := 0x800#26) ?_ h; unfold dropEngine; simp

@[simp ↓] theorem preempt_hide : ∀ e x s m, 0x1000800#26 &&& ~~~m = 0#26 → hide m (preempt e x s) = hide m s := by
  intro e x s m h; refine hide_le (k := 0x1000800#26) ?_ h; unfold preempt; simp

@[simp ↓] theorem resume_hide : ∀ e c s m, 0x800#26 &&& ~~~m = 0#26 → hide m (resume e c s) = hide m s := by
  intro e c s m h; refine hide_le (k := 0x800#26) ?_ h; unfold resume; simp

@[simp ↓] theorem settleCluster_hide : ∀ c s m, 0x1000800#26 &&& ~~~m = 0#26 → hide m (settleCluster c s) = hide m s
    := by
  intro c s m h; refine hide_le (k := 0x1000800#26) ?_ h; unfold settleCluster; (repeat' first | split | dsimp only) <;> simp

@[simp ↓] theorem zeroPages_hide : ∀ c ps s m, 0x800#26 &&& ~~~m = 0#26 → hide m (zeroPages c ps s) = hide m s := by
  intro c ps s m h; refine hide_le (k := 0x800#26) ?_ h; unfold zeroPages; simp

@[simp ↓] theorem retirePage_hide : ∀ c p s m, 0x1802808#26 &&& ~~~m = 0#26 → hide m (retirePage c p s) = hide m s :=
    by
  intro c p s m h; refine hide_le (k := 0x1802808#26) ?_ h; unfold retirePage; simp

@[simp ↓] theorem memPut_hide : ∀ j a v g s m, 0x800#26 &&& ~~~m = 0#26 → hide m (memPut j a v g s) = hide m s := by
  intro j a v g s m h; refine hide_le (k := 0x800#26) ?_ h; unfold memPut; (repeat' first | split | dsimp only) <;> simp

end Sys2Proof.Machine
end

