-- ==== Sys2Proof/Laws/Jobop.lean ====
section
/-! SUPPORT. What the operations of Machine/Jobop.lean leave as it was: every block of the state they do not name, and the
queue. -/

namespace Sys2Proof.Machine

@[simp ↓] theorem modQueue_hide : ∀ f q g s m, 0x1000#26 &&& ~~~m = 0#26 → hide m (modQueue f q g s) = hide m s := by
  intro f q g s m h; refine hide_le (k := 0x1000#26) ?_ h; unfold modQueue; simp

@[simp ↓] theorem writeDst_hide : ∀ j b s m, 0x1000500#26 &&& ~~~m = 0#26 → hide m (writeDst j b s).2 = hide m s := by
  intro j b s m h; refine hide_le (k := 0x1000500#26) ?_ h; unfold writeDst; simp

@[simp ↓] theorem freeCopies_hide : ∀ s m, 0x1802808#26 &&& ~~~m = 0#26 → hide m (freeCopies s) = hide m s := by
  intro s m h; refine hide_le (k := 0x1802808#26) ?_ h; unfold freeCopies; simp

@[simp ↓] theorem signalQueue_hide : ∀ f q s m, 0x1003100#26 &&& ~~~m = 0#26 → hide m (signalQueue f q s) = hide m s
    := by
  intro f q s m h; refine hide_le (k := 0x1003100#26) ?_ h; unfold signalQueue; simp

@[simp ↓] theorem afterRecord_hide : ∀ j s m, 0x1003100#26 &&& ~~~m = 0#26 → hide m (afterRecord j s) = hide m s := by
  intro j s m h; refine hide_le (k := 0x1003100#26) ?_ h; unfold afterRecord; simp

@[simp ↓] theorem tryRecord_hide : ∀ j s m, 0x1803d08#26 &&& ~~~m = 0#26 → hide m (tryRecord j s) = hide m s := by
  intro j s m h; refine hide_le (k := 0x1803d08#26) ?_ h; unfold tryRecord; simp

@[simp ↓] theorem flushRecords_hide : ∀ s m, 0x1803d08#26 &&& ~~~m = 0#26 → hide m (flushRecords s) = hide m s := by
  intro s m h; refine hide_le (k := 0x1803d08#26) ?_ h; unfold flushRecords; simp

@[simp ↓] theorem leaveCluster_hide : ∀ id s m, 0x1001800#26 &&& ~~~m = 0#26 → hide m (leaveCluster id s) = hide m s
    := by
  intro id s m h; refine hide_le (k := 0x1001800#26) ?_ h; unfold leaveCluster; (repeat' first | split | dsimp only) <;> simp

@[simp ↓] theorem removeJob_hide : ∀ id s m, 0x1823c08#26 &&& ~~~m = 0#26 → hide m (removeJob id s) = hide m s := by
  intro id s m h; refine hide_le (k := 0x1823c08#26) ?_ h; unfold removeJob; simp

@[simp ↓] theorem finishJob_hide : ∀ id status result s m, 0x1823d08#26 &&& ~~~m = 0#26 → hide m (finishJob id status
    result s) = hide m s := by
  intro id status result s m h; refine hide_le (k := 0x1823d08#26) ?_ h; unfold finishJob; (repeat' first | split | dsimp only) <;> simp

@[simp ↓] theorem finishJob_keeps : ∀ id status result s, (finishJob id status result s).glb = s.glb ∧ (finishJob id
    status result s).pwr = s.pwr ∧ (finishJob id status result s).pins = s.pins ∧ (finishJob id status result s).tbs =
    s.tbs ∧ (finishJob id status result s).rst = s.rst ∧ (finishJob id status result s).boot = s.boot ∧ (finishJob id
    status result s).nv = s.nv ∧ (finishJob id status result s).fus = s.fus ∧ (finishJob id status result s).sdl =
    s.sdl ∧ (finishJob id status result s).prs = s.prs ∧ (finishJob id status result s).ldg = s.ldg ∧ (finishJob id
    status result s).ent = s.ent ∧ (finishJob id status result s).att = s.att ∧ (finishJob id status result s).tmp =
    s.tmp ∧ (finishJob id status result s).wdg = s.wdg ∧ (finishJob id status result s).chp = s.chp ∧ (finishJob id
    status result s).pending = s.pending := by
  intro id status result s; have h := finishJob_hide id status result s 0x1823d08#26 rfl; exact ⟨hide_glb h rfl, hide_pwr h rfl,
    hide_pins h rfl, hide_tbs h rfl, hide_rst h rfl, hide_boot h rfl, hide_nv h rfl, hide_fus h rfl, hide_sdl h rfl,
    hide_prs h rfl, hide_ldg h rfl, hide_ent h rfl, hide_att h rfl, hide_tmp h rfl, hide_wdg h rfl, hide_chp h rfl,
    hide_pending h rfl⟩

@[simp ↓] theorem endIdle_hide : ∀ s m, 0x1823d08#26 &&& ~~~m = 0#26 → hide m (endIdle s) = hide m s := by
  intro s m h; refine hide_le (k := 0x1823d08#26) ?_ h; unfold endIdle; simp

@[simp ↓] theorem keyDone_hide : ∀ l s m, 0x1823d08#26 &&& ~~~m = 0#26 → hide m (keyDone l s) = hide m s := by
  intro l s m h; refine hide_le (k := 0x1823d08#26) ?_ h; unfold keyDone
  exact hide_foldl _ _ (by intros; (repeat' first | split | dsimp only) <;> simp) _ _

@[simp ↓] theorem jobResult_hide : ∀ j s m, 0x1802108#26 &&& ~~~m = 0#26 → hide m (jobResult j s).2 = hide m s := by
  intro j s m h; refine hide_le (k := 0x1802108#26) ?_ h; unfold jobResult
  (repeat' first | split | dsimp only) <;> ((try simp) <;> (repeat (refine hide_snd (by assumption) ?_; try simp)))

@[simp ↓] theorem storeKeyResult_hide : ∀ j kt key s m, 0x1863d08#26 &&& ~~~m = 0#26 → hide m (storeKeyResult j kt key
    s) = hide m s := by
  intro j kt key s m h; refine hide_le (k := 0x1863d08#26) ?_ h; unfold storeKeyResult; (repeat' first | split | dsimp only) <;> simp

@[simp ↓] theorem jobEnd_hide : ∀ id s m, 0x1863d08#26 &&& ~~~m = 0#26 → hide m (jobEnd id s) = hide m s := by
  intro id s m h; refine hide_le (k := 0x1863d08#26) ?_ h; unfold jobEnd
  (repeat' first | split | dsimp only) <;> ((try simp) <;> (repeat (refine hide_snd (by assumption) ?_; try simp)))

@[simp ↓] theorem jobTrap_hide : ∀ e cause code s m, 0x1823d08#26 &&& ~~~m = 0#26 → hide m (jobTrap e cause code s) =
    hide m s := by
  intro e cause code s m h; refine hide_le (k := 0x1823d08#26) ?_ h; unfold jobTrap; (repeat' first | split | dsimp only) <;> simp

@[simp ↓] theorem jobTrap_keeps : ∀ e cause code s, (jobTrap e cause code s).glb = s.glb ∧ (jobTrap e cause code
    s).pwr = s.pwr ∧ (jobTrap e cause code s).pins = s.pins ∧ (jobTrap e cause code s).tbs = s.tbs ∧ (jobTrap e cause
    code s).rst = s.rst ∧ (jobTrap e cause code s).boot = s.boot ∧ (jobTrap e cause code s).nv = s.nv ∧ (jobTrap e
    cause code s).fus = s.fus ∧ (jobTrap e cause code s).sdl = s.sdl ∧ (jobTrap e cause code s).prs = s.prs ∧ (jobTrap
    e cause code s).ldg = s.ldg ∧ (jobTrap e cause code s).ent = s.ent ∧ (jobTrap e cause code s).att = s.att ∧
    (jobTrap e cause code s).tmp = s.tmp ∧ (jobTrap e cause code s).wdg = s.wdg ∧ (jobTrap e cause code s).chp = s.chp
    ∧ (jobTrap e cause code s).pending = s.pending := by
  intro e cause code s; have h := jobTrap_hide e cause code s 0x1823d08#26 rfl; exact ⟨hide_glb h rfl, hide_pwr h rfl,
    hide_pins h rfl, hide_tbs h rfl, hide_rst h rfl, hide_boot h rfl, hide_nv h rfl, hide_fus h rfl, hide_sdl h rfl,
    hide_prs h rfl, hide_ldg h rfl, hide_ent h rfl, hide_att h rfl, hide_tmp h rfl, hide_wdg h rfl, hide_chp h rfl,
    hide_pending h rfl⟩

@[simp ↓] theorem loseJob_hide : ∀ id s m, 0x1823d08#26 &&& ~~~m = 0#26 → hide m (loseJob id s) = hide m s := by
  intro id s m h; refine hide_le (k := 0x1823d08#26) ?_ h; unfold loseJob; (repeat' first | split | dsimp only) <;> simp

@[simp ↓] theorem loseIdle_hide : ∀ s m, 0x1823d08#26 &&& ~~~m = 0#26 → hide m (loseIdle s) = hide m s := by
  intro s m h; refine hide_le (k := 0x1823d08#26) ?_ h; unfold loseIdle; simp

end Sys2Proof.Machine
end

