-- ==== Sys2Proof/Laws/Operands.lean ====
section
/-! SUPPORT. What the operations of Machine/Operands.lean leave as it was: every block of the state they do not name, and the
queue. -/

namespace Sys2Proof.Machine

@[simp ↓] theorem tagEntry_hide : ∀ e x j s m, 0x1802108#26 &&& ~~~m = 0#26 → hide m (tagEntry e x j s) = hide m s :=
    by
  intro e x j s m h; refine hide_le (k := 0x1802108#26) ?_ h; unfold tagEntry; simp

@[simp ↓] theorem tagIssue_hide : ∀ e x j s m, 0x1802108#26 &&& ~~~m = 0#26 → hide m (tagIssue e x j s) = hide m s :=
    by
  intro e x j s m h; refine hide_le (k := 0x1802108#26) ?_ h; unfold tagIssue; simp

@[simp ↓] theorem tagIssue_keeps : ∀ e x j s, (tagIssue e x j s).glb = s.glb ∧ (tagIssue e x j s).pwr = s.pwr ∧
    (tagIssue e x j s).pins = s.pins ∧ (tagIssue e x j s).tbs = s.tbs ∧ (tagIssue e x j s).rst = s.rst ∧ (tagIssue e x
    j s).boot = s.boot ∧ (tagIssue e x j s).nv = s.nv ∧ (tagIssue e x j s).fus = s.fus ∧ (tagIssue e x j s).wsh =
    s.wsh ∧ (tagIssue e x j s).pln = s.pln ∧ (tagIssue e x j s).job = s.job ∧ (tagIssue e x j s).sdl = s.sdl ∧
    (tagIssue e x j s).prs = s.prs ∧ (tagIssue e x j s).ldg = s.ldg ∧ (tagIssue e x j s).kvt = s.kvt ∧ (tagIssue e x j
    s).ent = s.ent ∧ (tagIssue e x j s).att = s.att ∧ (tagIssue e x j s).tmp = s.tmp ∧ (tagIssue e x j s).wdg = s.wdg
    ∧ (tagIssue e x j s).chp = s.chp ∧ (tagIssue e x j s).pending = s.pending := by
  intro e x j s; have h := tagIssue_hide e x j s 0x1802108#26 rfl; exact ⟨hide_glb h rfl, hide_pwr h rfl, hide_pins h
    rfl, hide_tbs h rfl, hide_rst h rfl, hide_boot h rfl, hide_nv h rfl, hide_fus h rfl, hide_wsh h rfl, hide_pln h
    rfl, hide_job h rfl, hide_sdl h rfl, hide_prs h rfl, hide_ldg h rfl, hide_kvt h rfl, hide_ent h rfl, hide_att h
    rfl, hide_tmp h rfl, hide_wdg h rfl, hide_chp h rfl, hide_pending h rfl⟩

@[simp ↓] theorem retire_hide : ∀ e x s m, 0x1823d08#26 &&& ~~~m = 0#26 → hide m (retire e x s) = hide m s := by
  intro e x s m h; refine hide_le (k := 0x1823d08#26) ?_ h; unfold retire; (repeat' first | split | dsimp only) <;> simp

@[simp ↓] theorem sendWords_hide : ∀ x ws s m, 0x1000#26 &&& ~~~m = 0#26 → hide m (sendWords x ws s) = hide m s := by
  intro x ws s m h; refine hide_le (k := 0x1000#26) ?_ h; unfold sendWords; simp

@[simp ↓] theorem haltEngine_hide : ∀ e x s m, 0x1863d08#26 &&& ~~~m = 0#26 → hide m (haltEngine e x s) = hide m s :=
    by
  intro e x s m h; refine hide_le (k := 0x1863d08#26) ?_ h; unfold haltEngine; (repeat' first | split | dsimp only) <;> simp

@[simp ↓] theorem applyAct_hide : ∀ e x a s m, 0x1863d08#26 &&& ~~~m = 0#26 → hide m (applyAct e x a s) = hide m s :=
    by
  intro e x a s m h; refine hide_le (k := 0x1863d08#26) ?_ h; unfold applyAct; (repeat' first | split | dsimp only) <;> simp

@[simp ↓] theorem applyAct_keeps : ∀ e x a s, (applyAct e x a s).glb = s.glb ∧ (applyAct e x a s).pwr = s.pwr ∧
    (applyAct e x a s).pins = s.pins ∧ (applyAct e x a s).tbs = s.tbs ∧ (applyAct e x a s).rst = s.rst ∧ (applyAct e x
    a s).boot = s.boot ∧ (applyAct e x a s).nv = s.nv ∧ (applyAct e x a s).fus = s.fus ∧ (applyAct e x a s).sdl =
    s.sdl ∧ (applyAct e x a s).prs = s.prs ∧ (applyAct e x a s).ldg = s.ldg ∧ (applyAct e x a s).att = s.att ∧
    (applyAct e x a s).tmp = s.tmp ∧ (applyAct e x a s).wdg = s.wdg ∧ (applyAct e x a s).chp = s.chp ∧ (applyAct e x a
    s).pending = s.pending := by
  intro e x a s; have h := applyAct_hide e x a s 0x1863d08#26 rfl; exact ⟨hide_glb h rfl, hide_pwr h rfl, hide_pins h
    rfl, hide_tbs h rfl, hide_rst h rfl, hide_boot h rfl, hide_nv h rfl, hide_fus h rfl, hide_sdl h rfl, hide_prs h
    rfl, hide_ldg h rfl, hide_att h rfl, hide_tmp h rfl, hide_wdg h rfl, hide_chp h rfl, hide_pending h rfl⟩

@[simp ↓] theorem runInstr_hide (e : Nat) (x : Engine) (j : Job) (body : Job → Engine → State → Act × State) (s :
    State) (m : BitVec 26) (hm : 0x1863d08#26 &&& ~~~m = 0#26) (h : ∀ j x s, hide m (body j x s).2 = hide m s) : hide
    m (runInstr e x j body s) = hide m s := by
  have t (k : BitVec 26) (hk : k &&& ~~~0x1863d08#26 = 0#26) : k &&& ~~~m = 0#26 := sub_trans hk hm
  unfold runInstr; (repeat' first | split | dsimp only) <;> simp [h, t]

@[simp ↓] theorem issue_hide (e : Fin 1024) (body : Job → Engine → State → Act × State) (s : State) (m : BitVec 26)
    (hm : 0x1863d08#26 &&& ~~~m = 0#26) (h : ∀ j x s, hide m (body j x s).2 = hide m s) : hide m (issue e body s) =
    hide m s := by
  have t (k : BitVec 26) (hk : k &&& ~~~0x1863d08#26 = 0#26) : k &&& ~~~m = 0#26 := sub_trans hk hm
  unfold issue; (repeat' first | split | dsimp only) <;> simp [h, t]

@[simp ↓] theorem unblock_hide : ∀ e x s m, 0x1823d08#26 &&& ~~~m = 0#26 → hide m (unblock e x s) = hide m s := by
  intro e x s m h; refine hide_le (k := 0x1823d08#26) ?_ h; unfold unblock; simp

@[simp ↓] theorem pureInstr_hide : ∀ f x1 x2 s m, 0x0#26 &&& ~~~m = 0#26 → hide m (pureInstr f x1 x2 s).2 = hide m s
    := by
  intro f x1 x2 s m h; refine hide_le (k := 0x0#26) ?_ h; unfold pureInstr; simp

@[simp ↓] theorem alu3_hide : ∀ gd ga gb f x4 x5 s m, 0x0#26 &&& ~~~m = 0#26 → hide m (alu3 gd ga gb f x4 x5 s).2 =
    hide m s := by
  intro gd ga gb f x4 x5 s m h; refine hide_le (k := 0x0#26) ?_ h; unfold alu3; simp

@[simp ↓] theorem alu2_hide : ∀ gd ga f x3 x4 s m, 0x0#26 &&& ~~~m = 0#26 → hide m (alu2 gd ga f x3 x4 s).2 = hide m s
    := by
  intro gd ga f x3 x4 s m h; refine hide_le (k := 0x0#26) ?_ h; unfold alu2; simp

@[simp ↓] theorem modular_hide : ∀ f x1 x2 s m, 0x0#26 &&& ~~~m = 0#26 → hide m (modular f x1 x2 s).2 = hide m s := by
  intro f x1 x2 s m h; refine hide_le (k := 0x0#26) ?_ h; unfold modular; simp

@[simp ↓] theorem mod3_hide : ∀ gd ga gb f x4 x5 s m, 0x0#26 &&& ~~~m = 0#26 → hide m (mod3 gd ga gb f x4 x5 s).2 =
    hide m s := by
  intro gd ga gb f x4 x5 s m h; refine hide_le (k := 0x0#26) ?_ h; unfold mod3; simp

@[simp ↓] theorem branch_hide : ∀ gd ga off p x4 x5 s m, 0x0#26 &&& ~~~m = 0#26 → hide m (branch gd ga off p x4 x5
    s).2 = hide m s := by
  intro gd ga off p x4 x5 s m h; refine hide_le (k := 0x0#26) ?_ h; unfold branch; simp

@[simp ↓] theorem loadWord_hide : ∀ j a k s m, 0x1802008#26 &&& ~~~m = 0#26 → hide m (loadWord j a k s).2 = hide m s
    := by
  intro j a k s m h; refine hide_le (k := 0x1802008#26) ?_ h; unfold loadWord; (repeat' first | split | dsimp only) <;> simp

@[simp ↓] theorem storeWord_hide : ∀ j a v g k s m, 0x800#26 &&& ~~~m = 0#26 → hide m (storeWord j a v g k s).2 = hide
    m s := by
  intro j a v g k s m h; refine hide_le (k := 0x800#26) ?_ h; unfold storeWord; (repeat' first | split | dsimp only) <;> simp

end Sys2Proof.Machine
end

