-- ==== Sys2Proof/Laws/MemStream.lean ====
section
/-! SUPPORT. What the operations of Machine/MemStream.lean leave as it was: every block of the state they do not name, and the
queue. -/

namespace Sys2Proof.Machine

@[simp ↓] theorem ldwInstr_hide : ∀ gd ga off x3 x4 s m, 0x1802008#26 &&& ~~~m = 0#26 → hide m (ldwInstr gd ga off x3
    x4 s).2 = hide m s := by
  intro gd ga off x3 x4 s m h; refine hide_le (k := 0x1802008#26) ?_ h; unfold ldwInstr; simp

@[simp ↓] theorem stwInstr_hide : ∀ gd ga off x3 x4 s m, 0x800#26 &&& ~~~m = 0#26 → hide m (stwInstr gd ga off x3 x4
    s).2 = hide m s := by
  intro gd ga off x3 x4 s m h; refine hide_le (k := 0x800#26) ?_ h; unfold stwInstr; simp

@[simp ↓] theorem ldpInstr_hide : ∀ gd ga stp x3 x4 s m, 0x1802008#26 &&& ~~~m = 0#26 → hide m (ldpInstr gd ga stp x3
    x4 s).2 = hide m s := by
  intro gd ga stp x3 x4 s m h; refine hide_le (k := 0x1802008#26) ?_ h; unfold ldpInstr; simp

@[simp ↓] theorem stpInstr_hide : ∀ gd ga stp x3 x4 s m, 0x800#26 &&& ~~~m = 0#26 → hide m (stpInstr gd ga stp x3 x4
    s).2 = hide m s := by
  intro gd ga stp x3 x4 s m h; refine hide_le (k := 0x800#26) ?_ h; unfold stpInstr; simp

@[simp ↓] theorem sinInstr_hide : ∀ gd x1 x2 s m, 0x0#26 &&& ~~~m = 0#26 → hide m (sinInstr gd x1 x2 s).2 = hide m s
    := by
  intro gd x1 x2 s m h; refine hide_le (k := 0x0#26) ?_ h; unfold sinInstr; simp

@[simp ↓] theorem streamIn_hide : ∀ e w last s m, 0x1823d08#26 &&& ~~~m = 0#26 → hide m (streamIn e w last s) = hide m
    s := by
  intro e w last s m h; refine hide_le (k := 0x1823d08#26) ?_ h; unfold streamIn; (repeat' first | split | dsimp only) <;> simp

@[simp ↓] theorem soutInstr_hide : ∀ ga x1 x2 s m, 0x0#26 &&& ~~~m = 0#26 → hide m (soutInstr ga x1 x2 s).2 = hide m s
    := by
  intro ga x1 x2 s m h; refine hide_le (k := 0x0#26) ?_ h; unfold soutInstr; simp

@[simp ↓] theorem streamOut_hide : ∀ e s m, 0x1823d08#26 &&& ~~~m = 0#26 → hide m (streamOut e s) = hide m s := by
  intro e s m h; refine hide_le (k := 0x1823d08#26) ?_ h; unfold streamOut; (repeat' first | split | dsimp only) <;> simp

end Sys2Proof.Machine
end

