-- ==== Sys2Proof/Laws/Accel.lean ====
section
/-! SUPPORT. What the operations of Machine/Accel.lean leave as it was: every block of the state they do not name, and the
queue. -/

namespace Sys2Proof.Machine

@[simp ↓] theorem accel_hide : ∀ b check e x3 x4 s m, 0x0#26 &&& ~~~m = 0#26 → hide m (accel b check e x3 x4 s).2 =
    hide m s := by
  intro b check e x3 x4 s m h; refine hide_le (k := 0x0#26) ?_ h; unfold accel; (repeat' first | split | dsimp only) <;> simp

@[simp ↓] theorem writeOut_hide : ∀ j gd b guarded x s m, 0x1800#26 &&& ~~~m = 0#26 → hide m (writeOut j gd b guarded
    x s).2 = hide m s := by
  intro j gd b guarded x s m h; refine hide_le (k := 0x1800#26) ?_ h; unfold writeOut; simp

@[simp ↓] theorem setCluster_hide : ∀ c x s m, 0x800#26 &&& ~~~m = 0#26 → hide m (setCluster c x s) = hide m s := by
  intro c x s m h; refine hide_le (k := 0x800#26) ?_ h; unfold setCluster; simp

end Sys2Proof.Machine
end

