-- ==== Sys2Proof/Laws/Policyop.lean ====
section
/-! SUPPORT. What the operations of Machine/Policyop.lean leave as it was: every block of the state they do not name, and the
queue. -/

namespace Sys2Proof.Machine

@[simp ↓] theorem rejectWrite_hide : ∀ off v cause s m, 0x1802048#26 &&& ~~~m = 0#26 → hide m (rejectWrite off v cause
    s) = hide m s := by
  intro off v cause s m h; refine hide_le (k := 0x1802048#26) ?_ h; unfold rejectWrite; simp

@[simp ↓] theorem rejectWrite_keeps : ∀ off v cause s, (rejectWrite off v cause s).glb = s.glb ∧ (rejectWrite off v
    cause s).pwr = s.pwr ∧ (rejectWrite off v cause s).pins = s.pins ∧ (rejectWrite off v cause s).tbs = s.tbs ∧
    (rejectWrite off v cause s).rst = s.rst ∧ (rejectWrite off v cause s).nv = s.nv ∧ (rejectWrite off v cause s).out
    = s.out ∧ (rejectWrite off v cause s).fus = s.fus ∧ (rejectWrite off v cause s).wsh = s.wsh ∧ (rejectWrite off v
    cause s).pln = s.pln ∧ (rejectWrite off v cause s).job = s.job ∧ (rejectWrite off v cause s).sdl = s.sdl ∧
    (rejectWrite off v cause s).prs = s.prs ∧ (rejectWrite off v cause s).ldg = s.ldg ∧ (rejectWrite off v cause
    s).kvt = s.kvt ∧ (rejectWrite off v cause s).ent = s.ent ∧ (rejectWrite off v cause s).att = s.att ∧ (rejectWrite
    off v cause s).tmp = s.tmp ∧ (rejectWrite off v cause s).wdg = s.wdg ∧ (rejectWrite off v cause s).chp = s.chp ∧
    (rejectWrite off v cause s).pending = s.pending := by
  intro off v cause s; have h := rejectWrite_hide off v cause s 0x1802048#26 rfl; exact ⟨hide_glb h rfl, hide_pwr h rfl,
    hide_pins h rfl, hide_tbs h rfl, hide_rst h rfl, hide_nv h rfl, hide_out h rfl, hide_fus h rfl, hide_wsh h rfl,
    hide_pln h rfl, hide_job h rfl, hide_sdl h rfl, hide_prs h rfl, hide_ldg h rfl, hide_kvt h rfl, hide_ent h rfl,
    hide_att h rfl, hide_tmp h rfl, hide_wdg h rfl, hide_chp h rfl, hide_pending h rfl⟩

@[simp ↓] theorem cfgWrite_hide (k : FieldKind) (sec off : Nat) (v : BitVec 32) (f : State → State) (s : State) (m :
    BitVec 26) (hm : 0x1802048#26 &&& ~~~m = 0#26) (h : ∀ s, hide m (f s) = hide m s) : hide m (cfgWrite k sec off v f
    s) = hide m s := by
  have t (k : BitVec 26) (hk : k &&& ~~~0x1802048#26 = 0#26) : k &&& ~~~m = 0#26 := sub_trans hk hm
  unfold cfgWrite; (repeat' first | split | dsimp only) <;> simp [h, t]

@[simp ↓] theorem noteClamp_hide : ∀ off v eff s m, 0x1802008#26 &&& ~~~m = 0#26 → hide m (noteClamp off v eff s) =
    hide m s := by
  intro off v eff s m h; refine hide_le (k := 0x1802008#26) ?_ h; unfold noteClamp; simp

@[simp ↓] theorem pendLive_hide : ∀ off v s m, 0x40#26 &&& ~~~m = 0#26 → hide m (pendLive off v s) = hide m s := by
  intro off v s m h; refine hide_le (k := 0x40#26) ?_ h; unfold pendLive; simp

@[simp ↓] theorem appliedLive_hide : ∀ off v s m, 0x1802048#26 &&& ~~~m = 0#26 → hide m (appliedLive off v s) = hide m
    s := by
  intro off v s m h; refine hide_le (k := 0x1802048#26) ?_ h; unfold appliedLive; simp

end Sys2Proof.Machine
end

