-- ==== Sys2Proof/Laws/Wshop.lean ====
section
/-! SUPPORT. What the operations of Machine/Wshop.lean leave as it was: every block of the state they do not name, and the
queue. -/

namespace Sys2Proof.Machine

@[simp ↓] theorem judgePromise_hide : ∀ s m, 0x1802408#26 &&& ~~~m = 0#26 → hide m (judgePromise s) = hide m s := by
  intro s m h; refine hide_le (k := 0x1802408#26) ?_ h; unfold judgePromise; simp

@[simp ↓] theorem promiseFuse_hide : ∀ s m, 0x1802408#26 &&& ~~~m = 0#26 → hide m (promiseFuse s) = hide m s := by
  intro s m h; refine hide_le (k := 0x1802408#26) ?_ h; unfold promiseFuse; simp

@[simp ↓] theorem frameBudgets_hide : ∀ s m, 0x1802c08#26 &&& ~~~m = 0#26 → hide m (frameBudgets s) = hide m s := by
  intro s m h; refine hide_le (k := 0x1802c08#26) ?_ h; unfold frameBudgets; simp

@[simp ↓] theorem raiseP7_hide : ∀ s m, 0x1802408#26 &&& ~~~m = 0#26 → hide m (raiseP7 s) = hide m s := by
  intro s m h; refine hide_le (k := 0x1802408#26) ?_ h; unfold raiseP7; simp

@[simp ↓] theorem setQuotas_hide : ∀ want s m, 0x1803008#26 &&& ~~~m = 0#26 → hide m (setQuotas want s) = hide m s :=
    by
  intro want s m h; refine hide_le (k := 0x1803008#26) ?_ h; unfold setQuotas; simp

@[simp ↓] theorem firstFrame_hide : ∀ s m, 0x1802c08#26 &&& ~~~m = 0#26 → hide m (firstFrame s) = hide m s := by
  intro s m h; refine hide_le (k := 0x1802c08#26) ?_ h; unfold firstFrame; simp

end Sys2Proof.Machine
end

