-- ==== Sys2Proof/Laws/Resetop.lean ====
section
/-! SUPPORT. What the operations of Machine/Resetop.lean leave as it was: every block of the state they do not name, and the
queue. -/

namespace Sys2Proof.Machine

@[simp ↓] theorem cutPulse_hide : ∀ s m, 0x300#26 &&& ~~~m = 0#26 → hide m (cutPulse s) = hide m s := by
  intro s m h; refine hide_le (k := 0x300#26) ?_ h; unfold cutPulse
  (repeat' first | split | dsimp only) <;> ((try simp) <;> (repeat (refine hide_snd (by assumption) ?_; try simp)))

@[simp ↓] theorem coldReset_hide : ∀ causes warmC s m, 0x1ffffff#26 &&& ~~~m = 0#26 → hide m (coldReset causes warmC
    s) = hide m s := by
  intro causes warmC s m h; refine hide_le (k := 0x1ffffff#26) ?_ h; unfold coldReset; refine hide_all ?_; dsimp only; exact hide_pending (m := 0x1ffffff#26) (by simp) rfl

@[simp ↓] theorem coldOutputs_hide : ∀ s m, 0xc004#26 &&& ~~~m = 0#26 → hide m (coldOutputs s) = hide m s := by
  intro s m h; refine hide_le (k := 0xc004#26) ?_ h; unfold coldOutputs; simp

@[simp ↓] theorem waitReset_hide : ∀ ph s m, 0x20#26 &&& ~~~m = 0#26 → hide m (waitReset ph s) = hide m s := by
  intro ph s m h; refine hide_le (k := 0x20#26) ?_ h; unfold waitReset; simp

@[simp ↓] theorem trigCold_hide : ∀ i s m, 0x1ffffff#26 &&& ~~~m = 0#26 → hide m (trigCold i s) = hide m s := by
  intro i s m h; refine hide_le (k := 0x1ffffff#26) ?_ h; unfold trigCold; (repeat' first | split | dsimp only) <;> simp

@[simp ↓] theorem abandonDevOp_hide : ∀ s m, 0x4000#26 &&& ~~~m = 0#26 → hide m (abandonDevOp s) = hide m s := by
  intro s m h; refine hide_le (k := 0x4000#26) ?_ h; unfold abandonDevOp; (repeat' first | split | dsimp only) <;> simp

@[simp ↓] theorem dropLive_hide : ∀ f cause s m, 0x1802048#26 &&& ~~~m = 0#26 → hide m (dropLive f cause s) = hide m s
    := by
  intro f cause s m h; refine hide_le (k := 0x1802048#26) ?_ h; unfold dropLive; simp

@[simp ↓] theorem dropLive_keeps : ∀ f cause s, (dropLive f cause s).glb = s.glb ∧ (dropLive f cause s).pwr = s.pwr ∧
    (dropLive f cause s).pins = s.pins ∧ (dropLive f cause s).tbs = s.tbs ∧ (dropLive f cause s).rst = s.rst ∧
    (dropLive f cause s).nv = s.nv ∧ (dropLive f cause s).out = s.out ∧ (dropLive f cause s).fus = s.fus ∧ (dropLive f
    cause s).wsh = s.wsh ∧ (dropLive f cause s).pln = s.pln ∧ (dropLive f cause s).job = s.job ∧ (dropLive f cause
    s).sdl = s.sdl ∧ (dropLive f cause s).prs = s.prs ∧ (dropLive f cause s).ldg = s.ldg ∧ (dropLive f cause s).kvt =
    s.kvt ∧ (dropLive f cause s).ent = s.ent ∧ (dropLive f cause s).att = s.att ∧ (dropLive f cause s).tmp = s.tmp ∧
    (dropLive f cause s).wdg = s.wdg ∧ (dropLive f cause s).chp = s.chp ∧ (dropLive f cause s).pending = s.pending :=
    by
  intro f cause s; have h := dropLive_hide f cause s 0x1802048#26 rfl; exact ⟨hide_glb h rfl, hide_pwr h rfl, hide_pins h
    rfl, hide_tbs h rfl, hide_rst h rfl, hide_nv h rfl, hide_out h rfl, hide_fus h rfl, hide_wsh h rfl, hide_pln h
    rfl, hide_job h rfl, hide_sdl h rfl, hide_prs h rfl, hide_ldg h rfl, hide_kvt h rfl, hide_ent h rfl, hide_att h
    rfl, hide_tmp h rfl, hide_wdg h rfl, hide_chp h rfl, hide_pending h rfl⟩

@[simp ↓] theorem warmReset_hide : ∀ cause s m, 0x1ffffff#26 &&& ~~~m = 0#26 → hide m (warmReset cause s) = hide m s
    := by
  intro cause s m h; refine hide_le (k := 0x1ffffff#26) ?_ h; unfold warmReset; refine hide_all ?_; dsimp only; exact hide_pending (m := 0x1ffffff#26) (by simp) rfl

@[simp ↓] theorem takeWarm_hide : ∀ cause s m, 0x1ffffff#26 &&& ~~~m = 0#26 → hide m (takeWarm cause s) = hide m s :=
    by
  intro cause s m h; refine hide_le (k := 0x1ffffff#26) ?_ h; unfold takeWarm; simp

@[simp ↓] theorem trigWarm_hide : ∀ i s m, 0x1ffffff#26 &&& ~~~m = 0#26 → hide m (trigWarm i s) = hide m s := by
  intro i s m h; refine hide_le (k := 0x1ffffff#26) ?_ h; unfold trigWarm; simp

@[simp ↓] theorem delayedReset_hide : ∀ s m, 0x1ffffff#26 &&& ~~~m = 0#26 → hide m (delayedReset s) = hide m s := by
  intro s m h; refine hide_le (k := 0x1ffffff#26) ?_ h; unfold delayedReset; (repeat' first | split | dsimp only) <;> simp

end Sys2Proof.Machine
end

