-- ==== Sys2Proof/Laws/Power.lean ====
section
/-! SUPPORT. What the operations of Machine/Power.lean leave as it was: every block of the state they do not name, and the
queue. -/

namespace Sys2Proof.Machine

@[simp ↓] theorem senseChold_hide : ∀ mv s m, 0x2#26 &&& ~~~m = 0#26 → hide m (senseChold mv s) = hide m s := by
  intro mv s m h; refine hide_le (k := 0x2#26) ?_ h; unfold senseChold; simp

@[simp ↓] theorem logForce_hide : ∀ cause s m, 0x1802008#26 &&& ~~~m = 0#26 → hide m (logForce cause s) = hide m s :=
    by
  intro cause s m h; refine hide_le (k := 0x1802008#26) ?_ h; unfold logForce; simp

@[simp ↓] theorem doVinLoss_hide : ∀ choldMv s m, 0x180290a#26 &&& ~~~m = 0#26 → hide m (doVinLoss choldMv s) = hide m
    s := by
  intro choldMv s m h; refine hide_le (k := 0x180290a#26) ?_ h; unfold doVinLoss; simp

@[simp ↓] theorem vinForce_hide : ∀ vinMv s m, 0x180280a#26 &&& ~~~m = 0#26 → hide m (vinForce vinMv s) = hide m s :=
    by
  intro vinMv s m h; refine hide_le (k := 0x180280a#26) ?_ h; unfold vinForce; simp

@[simp ↓] theorem dropForce_hide : ∀ cause f s m, 0x180280a#26 &&& ~~~m = 0#26 → hide m (dropForce cause f s) = hide m
    s := by
  intro cause f s m h; refine hide_le (k := 0x180280a#26) ?_ h; unfold dropForce; simp

@[simp ↓] theorem doVinReturn_hide : ∀ vinMv choldMv s m, 0x180280a#26 &&& ~~~m = 0#26 → hide m (doVinReturn vinMv
    choldMv s) = hide m s := by
  intro vinMv choldMv s m h; refine hide_le (k := 0x180280a#26) ?_ h; unfold doVinReturn; simp

@[simp ↓] theorem doVinForceSet_hide : ∀ vinMv s m, 0x180280a#26 &&& ~~~m = 0#26 → hide m (doVinForceSet vinMv s) =
    hide m s := by
  intro vinMv s m h; refine hide_le (k := 0x180280a#26) ?_ h; unfold doVinForceSet; simp

@[simp ↓] theorem doVinForceClear_hide : ∀ vinMv s m, 0x180280a#26 &&& ~~~m = 0#26 → hide m (doVinForceClear vinMv s)
    = hide m s := by
  intro vinMv s m h; refine hide_le (k := 0x180280a#26) ?_ h; unfold doVinForceClear; simp

@[simp ↓] theorem doVinSurge_hide : ∀ peakMv durUs s m, 0x1802008#26 &&& ~~~m = 0#26 → hide m (doVinSurge peakMv durUs
    s) = hide m s := by
  intro peakMv durUs s m h; refine hide_le (k := 0x1802008#26) ?_ h; unfold doVinSurge; simp

@[simp ↓] theorem doHoldUpExhausted_hide : ∀ s m, 0x1ffffff#26 &&& ~~~m = 0#26 → hide m (doHoldUpExhausted s) = hide m
    s := by
  intro s m h; refine hide_le (k := 0x1ffffff#26) ?_ h; unfold doHoldUpExhausted; simp

@[simp ↓] theorem doHoldRdy_hide : ∀ choldMv s m, 0x2#26 &&& ~~~m = 0#26 → hide m (doHoldRdy choldMv s) = hide m s :=
    by
  intro choldMv s m h; refine hide_le (k := 0x2#26) ?_ h; unfold doHoldRdy; simp

@[simp ↓] theorem doVflashTrip_hide : ∀ ma s m, 0x1e9e58e#26 &&& ~~~m = 0#26 → hide m (doVflashTrip ma s) = hide m s
    := by
  intro ma s m h; refine hide_le (k := 0x1e9e58e#26) ?_ h; unfold doVflashTrip; simp

@[simp ↓] theorem doVflashRetry_hide : ∀ s m, 0x1e9e58e#26 &&& ~~~m = 0#26 → hide m (doVflashRetry s) = hide m s := by
  intro s m h; refine hide_le (k := 0x1e9e58e#26) ?_ h; unfold doVflashRetry; simp

@[simp ↓] theorem doVflashRetrySuccess_hide : ∀ s m, 0x180200a#26 &&& ~~~m = 0#26 → hide m (doVflashRetrySuccess s) =
    hide m s := by
  intro s m h; refine hide_le (k := 0x180200a#26) ?_ h; unfold doVflashRetrySuccess; simp

@[simp ↓] theorem faultClr_hide : ∀ s m, 0x1e9e58e#26 &&& ~~~m = 0#26 → hide m (faultClr s) = hide m s := by
  intro s m h; refine hide_le (k := 0x1e9e58e#26) ?_ h; unfold faultClr; simp

@[simp ↓] theorem doVflashFaultClr_hide : ∀ a s m, 0x1e9ed8f#26 &&& ~~~m = 0#26 → hide m (doVflashFaultClr a s) = hide
    m s := by
  intro a s m h; refine hide_le (k := 0x1e9ed8f#26) ?_ h; unfold doVflashFaultClr; simp

@[simp ↓] theorem vflashEn_hide : ∀ en s m, 0x1e9e58e#26 &&& ~~~m = 0#26 → hide m (vflashEn en s) = hide m s := by
  intro en s m h; refine hide_le (k := 0x1e9e58e#26) ?_ h; unfold vflashEn; simp

@[simp ↓] theorem doVflashEnWrite_hide : ∀ a en s m, 0x1e9ed8f#26 &&& ~~~m = 0#26 → hide m (doVflashEnWrite a en s) =
    hide m s := by
  intro a en s m h; refine hide_le (k := 0x1e9ed8f#26) ?_ h; unfold doVflashEnWrite; simp

@[simp ↓] theorem doBatteryOnlyEntry_hide : ∀ vbatMv s m, 0x1ffffff#26 &&& ~~~m = 0#26 → hide m (doBatteryOnlyEntry
    vbatMv s) = hide m s := by
  intro vbatMv s m h; refine hide_le (k := 0x1ffffff#26) ?_ h; unfold doBatteryOnlyEntry; simp

@[simp ↓] theorem doVbatCheck_hide : ∀ vbatMv s m, 0x180200a#26 &&& ~~~m = 0#26 → hide m (doVbatCheck vbatMv s) = hide
    m s := by
  intro vbatMv s m h; refine hide_le (k := 0x180200a#26) ?_ h; unfold doVbatCheck; simp

@[simp ↓] theorem lowerVcore_hide : ∀ s m, 0x900#26 &&& ~~~m = 0#26 → hide m (lowerVcore s) = hide m s := by
  intro s m h; refine hide_le (k := 0x900#26) ?_ h; unfold lowerVcore; simp

@[simp ↓] theorem doPowerMeasurement_hide : ∀ pinMw loadMw vinMv choldMv restored s m, 0x180290a#26 &&& ~~~m = 0#26 →
    hide m (doPowerMeasurement pinMw loadMw vinMv choldMv restored s) = hide m s := by
  intro pinMw loadMw vinMv choldMv restored s m h; refine hide_le (k := 0x180290a#26) ?_ h; unfold doPowerMeasurement; simp

@[simp ↓] theorem doThermalForce_hide : ∀ tj s m, 0x180280a#26 &&& ~~~m = 0#26 → hide m (doThermalForce tj s) = hide m
    s := by
  intro tj s m h; refine hide_le (k := 0x180280a#26) ?_ h; unfold doThermalForce; simp

@[simp ↓] theorem doThermalForceRelease_hide : ∀ tj s m, 0x180280a#26 &&& ~~~m = 0#26 → hide m (doThermalForceRelease
    tj s) = hide m s := by
  intro tj s m h; refine hide_le (k := 0x180280a#26) ?_ h; unfold doThermalForceRelease; simp

@[simp ↓] theorem selWrite_hide : ∀ sel s m, 0x180204a#26 &&& ~~~m = 0#26 → hide m (selWrite sel s) = hide m s := by
  intro sel s m h; refine hide_le (k := 0x180204a#26) ?_ h; unfold selWrite; simp

@[simp ↓] theorem applySel_hide : ∀ s m, 0x180204a#26 &&& ~~~m = 0#26 → hide m (applySel s) = hide m s := by
  intro s m h; refine hide_le (k := 0x180204a#26) ?_ h; unfold applySel; (repeat' first | split | dsimp only) <;> simp

@[simp ↓] theorem applyProfile_hide : ∀ s m, 0x2#26 &&& ~~~m = 0#26 → hide m (applyProfile s) = hide m s := by
  intro s m h; refine hide_le (k := 0x2#26) ?_ h; unfold applyProfile; simp

@[simp ↓] theorem doProfileSelWrite_hide : ∀ a sel s m, 0x180294f#26 &&& ~~~m = 0#26 → hide m (doProfileSelWrite a sel
    s) = hide m s := by
  intro a sel s m h; refine hide_le (k := 0x180294f#26) ?_ h; unfold doProfileSelWrite
  exact access_hide _ _ _ _ _ rfl fun s => cfgWrite_hide _ _ _ _ _ _ _ rfl fun s => by simp

end Sys2Proof.Machine
end

