-- ==== Sys2Proof/Laws/Tamperop.lean ====
section
/-! SUPPORT. What the operations of Machine/Tamperop.lean leave as it was: every block of the state they do not name, and the
queue. -/

namespace Sys2Proof.Machine

@[simp ↓] theorem latch_hide : ∀ src doms s m, 0x8#26 &&& ~~~m = 0#26 → hide m (latch src doms s) = hide m s := by
  intro src doms s m h; refine hide_le (k := 0x8#26) ?_ h; unfold latch; simp

@[simp ↓] theorem beginCond_hide : ∀ src s m, 0x100000#26 &&& ~~~m = 0#26 → hide m (beginCond src s) = hide m s := by
  intro src s m h; refine hide_le (k := 0x100000#26) ?_ h; unfold beginCond; simp

@[simp ↓] theorem eraseMain_hide : ∀ s m, 0x1dfb10c#26 &&& ~~~m = 0#26 → hide m (eraseMain s) = hide m s := by
  intro s m h; refine hide_le (k := 0x1dfb10c#26) ?_ h; unfold eraseMain; simp

@[simp ↓] theorem eraseCell_hide : ∀ s m, 0x8#26 &&& ~~~m = 0#26 → hide m (eraseCell s) = hide m s := by
  intro s m h; refine hide_le (k := 0x8#26) ?_ h; unfold eraseCell; simp

@[simp ↓] theorem alarm_hide : ∀ src det cause s m, 0x1ffffff#26 &&& ~~~m = 0#26 → hide m (alarm src det cause s) =
    hide m s := by
  intro src det cause s m h; refine hide_le (k := 0x1ffffff#26) ?_ h; unfold alarm; simp

@[simp ↓] theorem failDet_hide : ∀ src b s m, 0x1ffffff#26 &&& ~~~m = 0#26 → hide m (failDet src b s) = hide m s := by
  intro src b s m h; refine hide_le (k := 0x1ffffff#26) ?_ h; unfold failDet; simp

@[simp ↓] theorem releaseLatch_hide : ∀ src cause s m, 0x1f9e58c#26 &&& ~~~m = 0#26 → hide m (releaseLatch src cause
    s) = hide m s := by
  intro src cause s m h; refine hide_le (k := 0x1f9e58c#26) ?_ h; unfold releaseLatch; simp

@[simp ↓] theorem fuseAlarms_hide : ∀ n s m, 0x1ffffff#26 &&& ~~~m = 0#26 → hide m (fuseAlarms n s) = hide m s := by
  intro n s m h; refine hide_le (k := 0x1ffffff#26) ?_ h; unfold fuseAlarms; simp

end Sys2Proof.Machine
end

