-- ==== Sys2Proof/Laws/Cfgop.lean ====
section
/-! SUPPORT. What the operations of Machine/Cfgop.lean leave as it was: every block of the state they do not name, and the
queue. -/

namespace Sys2Proof.Machine

@[simp ↓] theorem driveGpio_hide : ∀ s m, 0x4#26 &&& ~~~m = 0#26 → hide m (driveGpio s) = hide m s := by
  intro s m h; refine hide_le (k := 0x4#26) ?_ h; unfold driveGpio; simp

@[simp ↓] theorem applyPwr_hide : ∀ e s m, 0x2#26 &&& ~~~m = 0#26 → hide m (applyPwr e s) = hide m s := by
  intro e s m h; refine hide_le (k := 0x2#26) ?_ h; unfold applyPwr; simp

@[simp ↓] theorem applyTmp_hide : ∀ e s m, 0x1902008#26 &&& ~~~m = 0#26 → hide m (applyTmp e s) = hide m s := by
  intro e s m h; refine hide_le (k := 0x1902008#26) ?_ h; unfold applyTmp; simp

@[simp ↓] theorem applyWdg_hide : ∀ warm e s m, 0x200000#26 &&& ~~~m = 0#26 → hide m (applyWdg warm e s) = hide m s :=
    by
  intro warm e s m h; refine hide_le (k := 0x200000#26) ?_ h; unfold applyWdg; simp

@[simp ↓] theorem applyChp_hide : ∀ e s m, 0x400004#26 &&& ~~~m = 0#26 → hide m (applyChp e s) = hide m s := by
  intro e s m h; refine hide_le (k := 0x400004#26) ?_ h; unfold applyChp; simp

@[simp ↓] theorem applySdl_hide : ∀ warm e s m, 0x4000#26 &&& ~~~m = 0#26 → hide m (applySdl warm e s) = hide m s :=
    by
  intro warm e s m h; refine hide_le (k := 0x4000#26) ?_ h; unfold applySdl; simp

@[simp ↓] theorem applyLdg_hide : ∀ e s m, 0x18000#26 &&& ~~~m = 0#26 → hide m (applyLdg e s) = hide m s := by
  intro e s m h; refine hide_le (k := 0x18000#26) ?_ h; unfold applyLdg; simp

@[simp ↓] theorem applyCfg_hide : ∀ warm e s m, 0x1fbfc4e#26 &&& ~~~m = 0#26 → hide m (applyCfg warm e s) = hide m s
    := by
  intro warm e s m h; refine hide_le (k := 0x1fbfc4e#26) ?_ h; unfold applyCfg; simp

@[simp ↓] theorem fetchCopy_hide : ∀ n fault b s m, 0x1802008#26 &&& ~~~m = 0#26 → hide m (fetchCopy n fault b s).2.2
    = hide m s := by
  intro n fault b s m h; refine hide_le (k := 0x1802008#26) ?_ h; unfold fetchCopy; (repeat' first | split | dsimp only) <;> simp

@[simp ↓] theorem applySealed_hide : ∀ aReason bReason ceilFailed s m, 0x1fbfc4f#26 &&& ~~~m = 0#26 → hide m
    (applySealed aReason bReason ceilFailed s) = hide m s := by
  intro aReason bReason ceilFailed s m h; refine hide_le (k := 0x1fbfc4f#26) ?_ h; unfold applySealed; simp

@[simp ↓] theorem applyCopy_hide : ∀ n c pf0Only s m, 0x1fbfc4f#26 &&& ~~~m = 0#26 → hide m (applyCopy n c pf0Only s)
    = hide m s := by
  intro n c pf0Only s m h; refine hide_le (k := 0x1fbfc4f#26) ?_ h; unfold applyCopy; simp

@[simp ↓] theorem loadConfig_hide : ∀ i s m, 0x1fbfc4f#26 &&& ~~~m = 0#26 → hide m (loadConfig i s) = hide m s := by
  intro i s m h; refine hide_le (k := 0x1fbfc4f#26) ?_ h; unfold loadConfig
  (repeat' first | split | dsimp only) <;> (try simp) <;> (repeat (refine hide_snd_snd (by assumption) ?_; try simp))

@[simp ↓] theorem applyRetained_hide : ∀ s m, 0x1fbfc4e#26 &&& ~~~m = 0#26 → hide m (applyRetained s) = hide m s := by
  intro s m h; refine hide_le (k := 0x1fbfc4e#26) ?_ h; unfold applyRetained; simp

end Sys2Proof.Machine
end

