-- ==== Sys2Proof/Laws/Rcvop.lean ====
section
/-! SUPPORT. What the operations of Machine/Rcvop.lean leave as it was: every block of the state they do not name, and the
queue. -/

namespace Sys2Proof.Machine

@[simp ↓] theorem putBody_hide : ∀ o off b s m, 0x100#26 &&& ~~~m = 0#26 → hide m (putBody o off b s) = hide m s := by
  intro o off b s m h; refine hide_le (k := 0x100#26) ?_ h; unfold putBody; (repeat' first | split | dsimp only) <;> simp

@[simp ↓] theorem keepCheck_hide : ∀ o w code m s mk, 0x10000#26 &&& ~~~mk = 0#26 → hide mk (keepCheck o w code m s) =
    hide mk s := by
  intro o w code m s mk h; refine hide_le (k := 0x10000#26) ?_ h; unfold keepCheck; simp

@[simp ↓] theorem checkGolden_hide : ∀ o f s m, 0x1812008#26 &&& ~~~m = 0#26 → hide m (checkGolden o f s).2.2 = hide m
    s := by
  intro o f s m h; refine hide_le (k := 0x1812008#26) ?_ h; unfold checkGolden; simp

@[simp ↓] theorem putImage_hide : ∀ o man s m, 0x10100#26 &&& ~~~m = 0#26 → hide m (putImage o man s) = hide m s := by
  intro o man s m h; refine hide_le (k := 0x10100#26) ?_ h; unfold putImage; (repeat' first | split | dsimp only) <;> simp

@[simp ↓] theorem beginWrite_hide : ∀ o origin s m, 0x1812188#26 &&& ~~~m = 0#26 → hide m (beginWrite o origin s).2 =
    hide m s := by
  intro o origin s m h; refine hide_le (k := 0x1812188#26) ?_ h; unfold beginWrite; simp

@[simp ↓] theorem awaitReadback_hide : ∀ origin s m, 0x10000#26 &&& ~~~m = 0#26 → hide m (awaitReadback origin s) =
    hide m s := by
  intro origin s m h; refine hide_le (k := 0x10000#26) ?_ h; unfold awaitReadback; simp

@[simp ↓] theorem writePkg_hide : ∀ o origin p s m, 0x1812188#26 &&& ~~~m = 0#26 → hide m (writePkg o origin p s).2 =
    hide m s := by
  intro o origin p s m h; refine hide_le (k := 0x1812188#26) ?_ h; unfold writePkg; simp

@[simp ↓] theorem notRestored_hide : ∀ o s m, 0x10000#26 &&& ~~~m = 0#26 → hide m (notRestored o s) = hide m s := by
  intro o s m h; refine hide_le (k := 0x10000#26) ?_ h; unfold notRestored; simp

@[simp ↓] theorem takePkg_hide : ∀ o origin p s m, 0x1e9e58c#26 &&& ~~~m = 0#26 → hide m (takePkg o origin p s) = hide
    m s := by
  intro o origin p s m h; refine hide_le (k := 0x1e9e58c#26) ?_ h; unfold takePkg; simp

@[simp ↓] theorem readback_hide : ∀ o f s m, 0x1e9e58c#26 &&& ~~~m = 0#26 → hide m (readback o f s) = hide m s := by
  intro o f s m h; refine hide_le (k := 0x1e9e58c#26) ?_ h; unfold readback; simp

@[simp ↓] theorem failNow_hide : ∀ cause s m, 0x1e9e58c#26 &&& ~~~m = 0#26 → hide m (failNow cause s) = hide m s := by
  intro cause s m h; refine hide_le (k := 0x1e9e58c#26) ?_ h; unfold failNow; dsimp only
  (repeat' first | split | dsimp only) <;> simp

@[simp ↓] theorem tailArrived_hide : ∀ o origin tail s m, 0x1e9e58c#26 &&& ~~~m = 0#26 → hide m (tailArrived o origin
    tail s) = hide m s := by
  intro o origin tail s m h; refine hide_le (k := 0x1e9e58c#26) ?_ h; unfold tailArrived; simp

@[simp ↓] theorem bodyArrived_hide : ∀ o s m, 0x10100#26 &&& ~~~m = 0#26 → hide m (bodyArrived o s) = hide m s := by
  intro o s m h; refine hide_le (k := 0x10100#26) ?_ h; unfold bodyArrived; simp

@[simp ↓] theorem endBoot_hide : ∀ cause s m, 0x1a1e18c#26 &&& ~~~m = 0#26 → hide m (endBoot cause s) = hide m s := by
  intro cause s m h; refine hide_le (k := 0x1a1e18c#26) ?_ h; unfold endBoot; (repeat' first | split | dsimp only) <;> simp

@[simp ↓] theorem endSession_hide : ∀ cause attempt s m, 0x1e9e58c#26 &&& ~~~m = 0#26 → hide m (endSession cause
    attempt s) = hide m s := by
  intro cause attempt s m h; refine hide_le (k := 0x1e9e58c#26) ?_ h; unfold endSession; simp

@[simp ↓] theorem agentBoot_hide : ∀ s m, 0x1e9e58c#26 &&& ~~~m = 0#26 → hide m (agentBoot s) = hide m s := by
  intro s m h; refine hide_le (k := 0x1e9e58c#26) ?_ h; unfold agentBoot; (repeat' first | split | dsimp only) <;> simp

@[simp ↓] theorem agentReady_hide : ∀ s m, 0x1e9e58c#26 &&& ~~~m = 0#26 → hide m (agentReady s) = hide m s := by
  intro s m h; refine hide_le (k := 0x1e9e58c#26) ?_ h; unfold agentReady; simp

@[simp ↓] theorem agentGolden_hide : ∀ code s m, 0x1e9e58c#26 &&& ~~~m = 0#26 → hide m (agentGolden code s) = hide m s
    := by
  intro code s m h; refine hide_le (k := 0x1e9e58c#26) ?_ h; unfold agentGolden; simp

@[simp ↓] theorem ldgCmd_hide (a : Agent) (key : BitVec 16) (op : Nat) (k : State → Nat × Nat × State) (s : State) (m
    : BitVec 26) (hm : 0x181290f#26 &&& ~~~m = 0#26) (h : ∀ s, hide m (k s).2.2 = hide m s) : hide m (ldgCmd a key op
    k s) = hide m s := by
  have t (k : BitVec 26) (hk : k &&& ~~~0x181290f#26 = 0#26) : k &&& ~~~m = 0#26 := sub_trans hk hm
  unfold ldgCmd; refine access_hide _ _ _ _ _ (t _ rfl) fun s => ?_
  (repeat' first | split | dsimp only) <;> simp [h, t]

@[simp ↓] theorem runAgain_hide : ∀ s m, 0x1e9e58c#26 &&& ~~~m = 0#26 → hide m (runAgain s) = hide m s := by
  intro s m h; refine hide_le (k := 0x1e9e58c#26) ?_ h; unfold runAgain; simp

end Sys2Proof.Machine
end

