-- ==== Sys2Proof/Laws/Startop.lean ====
section
/-! SUPPORT. What the operations of Machine/Startop.lean leave as it was: every block of the state they do not name, and the
queue. -/

namespace Sys2Proof.Machine

@[simp ↓] theorem stepDone_hide : ∀ n i s m, 0x1802049#26 &&& ~~~m = 0#26 → hide m (stepDone n i s) = hide m s := by
  intro n i s m h; refine hide_le (k := 0x1802049#26) ?_ h; unfold stepDone; simp

@[simp ↓] theorem stepDone_keeps : ∀ n i s, (stepDone n i s).pwr = s.pwr ∧ (stepDone n i s).pins = s.pins ∧ (stepDone
    n i s).tbs = s.tbs ∧ (stepDone n i s).rst = s.rst ∧ (stepDone n i s).nv = s.nv ∧ (stepDone n i s).out = s.out ∧
    (stepDone n i s).fus = s.fus ∧ (stepDone n i s).wsh = s.wsh ∧ (stepDone n i s).pln = s.pln ∧ (stepDone n i s).job
    = s.job ∧ (stepDone n i s).sdl = s.sdl ∧ (stepDone n i s).prs = s.prs ∧ (stepDone n i s).ldg = s.ldg ∧ (stepDone n
    i s).kvt = s.kvt ∧ (stepDone n i s).ent = s.ent ∧ (stepDone n i s).att = s.att ∧ (stepDone n i s).tmp = s.tmp ∧
    (stepDone n i s).wdg = s.wdg ∧ (stepDone n i s).chp = s.chp ∧ (stepDone n i s).pending = s.pending := by
  intro n i s; have h := stepDone_hide n i s 0x1802049#26 rfl; exact ⟨hide_pwr h rfl, hide_pins h rfl, hide_tbs h rfl,
    hide_rst h rfl, hide_nv h rfl, hide_out h rfl, hide_fus h rfl, hide_wsh h rfl, hide_pln h rfl, hide_job h rfl,
    hide_sdl h rfl, hide_prs h rfl, hide_ldg h rfl, hide_kvt h rfl, hide_ent h rfl, hide_att h rfl, hide_tmp h rfl,
    hide_wdg h rfl, hide_chp h rfl, hide_pending h rfl⟩

@[simp ↓] theorem recorderRuns_hide : ∀ s m, 0x1802008#26 &&& ~~~m = 0#26 → hide m (recorderRuns s) = hide m s := by
  intro s m h; refine hide_le (k := 0x1802008#26) ?_ h; unfold recorderRuns; simp

@[simp ↓] theorem recorderRuns_keeps : ∀ s, (recorderRuns s).glb = s.glb ∧ (recorderRuns s).pwr = s.pwr ∧
    (recorderRuns s).pins = s.pins ∧ (recorderRuns s).tbs = s.tbs ∧ (recorderRuns s).rst = s.rst ∧ (recorderRuns
    s).boot = s.boot ∧ (recorderRuns s).nv = s.nv ∧ (recorderRuns s).out = s.out ∧ (recorderRuns s).fus = s.fus ∧
    (recorderRuns s).wsh = s.wsh ∧ (recorderRuns s).pln = s.pln ∧ (recorderRuns s).job = s.job ∧ (recorderRuns s).sdl
    = s.sdl ∧ (recorderRuns s).prs = s.prs ∧ (recorderRuns s).ldg = s.ldg ∧ (recorderRuns s).kvt = s.kvt ∧
    (recorderRuns s).ent = s.ent ∧ (recorderRuns s).att = s.att ∧ (recorderRuns s).tmp = s.tmp ∧ (recorderRuns s).wdg
    = s.wdg ∧ (recorderRuns s).chp = s.chp ∧ (recorderRuns s).pending = s.pending := by
  intro s; have h := recorderRuns_hide s 0x1802008#26 rfl; exact ⟨hide_glb h rfl, hide_pwr h rfl, hide_pins h rfl,
    hide_tbs h rfl, hide_rst h rfl, hide_boot h rfl, hide_nv h rfl, hide_out h rfl, hide_fus h rfl, hide_wsh h rfl,
    hide_pln h rfl, hide_job h rfl, hide_sdl h rfl, hide_prs h rfl, hide_ldg h rfl, hide_kvt h rfl, hide_ent h rfl,
    hide_att h rfl, hide_tmp h rfl, hide_wdg h rfl, hide_chp h rfl, hide_pending h rfl⟩

@[simp ↓] theorem enterStartFail_hide : ∀ code s m, 0x180602f#26 &&& ~~~m = 0#26 → hide m (enterStartFail code s) =
    hide m s := by
  intro code s m h; refine hide_le (k := 0x180602f#26) ?_ h; unfold enterStartFail; simp

@[simp ↓] theorem failStart_hide : ∀ code s m, 0x1ffffff#26 &&& ~~~m = 0#26 → hide m (failStart code s) = hide m s :=
    by
  intro code s m h; refine hide_le (k := 0x1ffffff#26) ?_ h; unfold failStart; simp

@[simp ↓] theorem loadAlarm_hide : ∀ r s m, 0x1ffffff#26 &&& ~~~m = 0#26 → hide m (loadAlarm r s) = hide m s := by
  intro r s m h; refine hide_le (k := 0x1ffffff#26) ?_ h; unfold loadAlarm; simp

@[simp ↓] theorem loadShadows_hide : ∀ rs s m, 0x1ffffff#26 &&& ~~~m = 0#26 → hide m (loadShadows rs s) = hide m s :=
    by
  intro rs s m h; refine hide_le (k := 0x1ffffff#26) ?_ h; unfold loadShadows; simp

@[simp ↓] theorem startWdg_hide : ∀ s m, 0x1a02008#26 &&& ~~~m = 0#26 → hide m (startWdg s) = hide m s := by
  intro s m h; refine hide_le (k := 0x1a02008#26) ?_ h; unfold startWdg; simp

@[simp ↓] theorem startWdg_keeps : ∀ s, (startWdg s).glb = s.glb ∧ (startWdg s).pwr = s.pwr ∧ (startWdg s).pins =
    s.pins ∧ (startWdg s).tbs = s.tbs ∧ (startWdg s).rst = s.rst ∧ (startWdg s).boot = s.boot ∧ (startWdg s).nv = s.nv
    ∧ (startWdg s).out = s.out ∧ (startWdg s).fus = s.fus ∧ (startWdg s).wsh = s.wsh ∧ (startWdg s).pln = s.pln ∧
    (startWdg s).job = s.job ∧ (startWdg s).sdl = s.sdl ∧ (startWdg s).prs = s.prs ∧ (startWdg s).ldg = s.ldg ∧
    (startWdg s).kvt = s.kvt ∧ (startWdg s).ent = s.ent ∧ (startWdg s).att = s.att ∧ (startWdg s).tmp = s.tmp ∧
    (startWdg s).chp = s.chp ∧ (startWdg s).pending = s.pending := by
  intro s; have h := startWdg_hide s 0x1a02008#26 rfl; exact ⟨hide_glb h rfl, hide_pwr h rfl, hide_pins h rfl, hide_tbs
    h rfl, hide_rst h rfl, hide_boot h rfl, hide_nv h rfl, hide_out h rfl, hide_fus h rfl, hide_wsh h rfl, hide_pln h
    rfl, hide_job h rfl, hide_sdl h rfl, hide_prs h rfl, hide_ldg h rfl, hide_kvt h rfl, hide_ent h rfl, hide_att h
    rfl, hide_tmp h rfl, hide_chp h rfl, hide_pending h rfl⟩

@[simp ↓] theorem applyPatches_hide : ∀ s m, 0x1802848#26 &&& ~~~m = 0#26 → hide m (applyPatches s).2 = hide m s := by
  intro s m h; refine hide_le (k := 0x1802848#26) ?_ h; unfold applyPatches; (repeat' first | split | dsimp only) <;> simp

@[simp ↓] theorem applyPatches_keeps : ∀ s, (applyPatches s).2.glb = s.glb ∧ (applyPatches s).2.pwr = s.pwr ∧
    (applyPatches s).2.pins = s.pins ∧ (applyPatches s).2.tbs = s.tbs ∧ (applyPatches s).2.rst = s.rst ∧ (applyPatches
    s).2.nv = s.nv ∧ (applyPatches s).2.out = s.out ∧ (applyPatches s).2.fus = s.fus ∧ (applyPatches s).2.wsh = s.wsh
    ∧ (applyPatches s).2.job = s.job ∧ (applyPatches s).2.sdl = s.sdl ∧ (applyPatches s).2.prs = s.prs ∧ (applyPatches
    s).2.ldg = s.ldg ∧ (applyPatches s).2.kvt = s.kvt ∧ (applyPatches s).2.ent = s.ent ∧ (applyPatches s).2.att =
    s.att ∧ (applyPatches s).2.tmp = s.tmp ∧ (applyPatches s).2.wdg = s.wdg ∧ (applyPatches s).2.chp = s.chp ∧
    (applyPatches s).2.pending = s.pending := by
  intro s; have h := applyPatches_hide s 0x1802848#26 rfl; exact ⟨hide_glb h rfl, hide_pwr h rfl, hide_pins h rfl,
    hide_tbs h rfl, hide_rst h rfl, hide_nv h rfl, hide_out h rfl, hide_fus h rfl, hide_wsh h rfl, hide_job h rfl,
    hide_sdl h rfl, hide_prs h rfl, hide_ldg h rfl, hide_kvt h rfl, hide_ent h rfl, hide_att h rfl, hide_tmp h rfl,
    hide_wdg h rfl, hide_chp h rfl, hide_pending h rfl⟩

@[simp ↓] theorem decodeLife_hide : ∀ s m, 0x1#26 &&& ~~~m = 0#26 → hide m (decodeLife s).2 = hide m s := by
  intro s m h; refine hide_le (k := 0x1#26) ?_ h; unfold decodeLife; (repeat' first | split | dsimp only) <;> simp

@[simp ↓] theorem loadRoot_hide : ∀ s m, 0x1ffffff#26 &&& ~~~m = 0#26 → hide m (loadRoot s).2 = hide m s := by
  intro s m h; refine hide_le (k := 0x1ffffff#26) ?_ h; unfold loadRoot; (repeat' first | split | dsimp only) <;> simp

@[simp ↓] theorem selfTests_hide : ∀ i s m, 0x1842048#26 &&& ~~~m = 0#26 → hide m (selfTests i s).2 = hide m s := by
  intro i s m h; refine hide_le (k := 0x1842048#26) ?_ h; unfold selfTests; simp

@[simp ↓] theorem selfTests_keeps : ∀ i s, (selfTests i s).2.glb = s.glb ∧ (selfTests i s).2.pwr = s.pwr ∧ (selfTests
    i s).2.pins = s.pins ∧ (selfTests i s).2.tbs = s.tbs ∧ (selfTests i s).2.rst = s.rst ∧ (selfTests i s).2.nv = s.nv
    ∧ (selfTests i s).2.out = s.out ∧ (selfTests i s).2.fus = s.fus ∧ (selfTests i s).2.wsh = s.wsh ∧ (selfTests i
    s).2.pln = s.pln ∧ (selfTests i s).2.job = s.job ∧ (selfTests i s).2.sdl = s.sdl ∧ (selfTests i s).2.prs = s.prs ∧
    (selfTests i s).2.ldg = s.ldg ∧ (selfTests i s).2.kvt = s.kvt ∧ (selfTests i s).2.att = s.att ∧ (selfTests i
    s).2.tmp = s.tmp ∧ (selfTests i s).2.wdg = s.wdg ∧ (selfTests i s).2.chp = s.chp ∧ (selfTests i s).2.pending =
    s.pending := by
  intro i s; have h := selfTests_hide i s 0x1842048#26 rfl; exact ⟨hide_glb h rfl, hide_pwr h rfl, hide_pins h rfl,
    hide_tbs h rfl, hide_rst h rfl, hide_nv h rfl, hide_out h rfl, hide_fus h rfl, hide_wsh h rfl, hide_pln h rfl,
    hide_job h rfl, hide_sdl h rfl, hide_prs h rfl, hide_ldg h rfl, hide_kvt h rfl, hide_att h rfl, hide_tmp h rfl,
    hide_wdg h rfl, hide_chp h rfl, hide_pending h rfl⟩

@[simp ↓] theorem seedLoops_hide : ∀ s m, 0x40108#26 &&& ~~~m = 0#26 → hide m (seedLoops s) = hide m s := by
  intro s m h; refine hide_le (k := 0x40108#26) ?_ h; unfold seedLoops; simp

@[simp ↓] theorem seedLoops_keeps : ∀ s, (seedLoops s).glb = s.glb ∧ (seedLoops s).pwr = s.pwr ∧ (seedLoops s).pins =
    s.pins ∧ (seedLoops s).tbs = s.tbs ∧ (seedLoops s).rst = s.rst ∧ (seedLoops s).boot = s.boot ∧ (seedLoops s).nv =
    s.nv ∧ (seedLoops s).fus = s.fus ∧ (seedLoops s).wsh = s.wsh ∧ (seedLoops s).pln = s.pln ∧ (seedLoops s).job =
    s.job ∧ (seedLoops s).hlk = s.hlk ∧ (seedLoops s).sdl = s.sdl ∧ (seedLoops s).prs = s.prs ∧ (seedLoops s).ldg =
    s.ldg ∧ (seedLoops s).kvt = s.kvt ∧ (seedLoops s).att = s.att ∧ (seedLoops s).tmp = s.tmp ∧ (seedLoops s).wdg =
    s.wdg ∧ (seedLoops s).chp = s.chp ∧ (seedLoops s).evr = s.evr ∧ (seedLoops s).pmc = s.pmc ∧ (seedLoops s).pending
    = s.pending := by
  intro s; have h := seedLoops_hide s 0x40108#26 rfl; exact ⟨hide_glb h rfl, hide_pwr h rfl, hide_pins h rfl, hide_tbs h
    rfl, hide_rst h rfl, hide_boot h rfl, hide_nv h rfl, hide_fus h rfl, hide_wsh h rfl, hide_pln h rfl, hide_job h
    rfl, hide_hlk h rfl, hide_sdl h rfl, hide_prs h rfl, hide_ldg h rfl, hide_kvt h rfl, hide_att h rfl, hide_tmp h
    rfl, hide_wdg h rfl, hide_chp h rfl, hide_evr h rfl, hide_pmc h rfl, hide_pending h rfl⟩

@[simp ↓] theorem senseStart_hide : ∀ i s m, 0x180280a#26 &&& ~~~m = 0#26 → hide m (senseStart i s) = hide m s := by
  intro i s m h; refine hide_le (k := 0x180280a#26) ?_ h; unfold senseStart; simp

@[simp ↓] theorem senseStart_keeps : ∀ i s, (senseStart i s).glb = s.glb ∧ (senseStart i s).pins = s.pins ∧
    (senseStart i s).tbs = s.tbs ∧ (senseStart i s).rst = s.rst ∧ (senseStart i s).boot = s.boot ∧ (senseStart i s).nv
    = s.nv ∧ (senseStart i s).out = s.out ∧ (senseStart i s).fus = s.fus ∧ (senseStart i s).wsh = s.wsh ∧ (senseStart
    i s).job = s.job ∧ (senseStart i s).sdl = s.sdl ∧ (senseStart i s).prs = s.prs ∧ (senseStart i s).ldg = s.ldg ∧
    (senseStart i s).kvt = s.kvt ∧ (senseStart i s).ent = s.ent ∧ (senseStart i s).att = s.att ∧ (senseStart i s).tmp
    = s.tmp ∧ (senseStart i s).wdg = s.wdg ∧ (senseStart i s).chp = s.chp ∧ (senseStart i s).pending = s.pending := by
  intro i s; have h := senseStart_hide i s 0x180280a#26 rfl; exact ⟨hide_glb h rfl, hide_pins h rfl, hide_tbs h rfl,
    hide_rst h rfl, hide_boot h rfl, hide_nv h rfl, hide_out h rfl, hide_fus h rfl, hide_wsh h rfl, hide_job h rfl,
    hide_sdl h rfl, hide_prs h rfl, hide_ldg h rfl, hide_kvt h rfl, hide_ent h rfl, hide_att h rfl, hide_tmp h rfl,
    hide_wdg h rfl, hide_chp h rfl, hide_pending h rfl⟩

@[simp ↓] theorem startAlarms_hide : ∀ s m, 0x1ffffff#26 &&& ~~~m = 0#26 → hide m (startAlarms s) = hide m s := by
  intro s m h; refine hide_le (k := 0x1ffffff#26) ?_ h; unfold startAlarms; simp

@[simp ↓] theorem step1Done_hide : ∀ i s m, 0x1802069#26 &&& ~~~m = 0#26 → hide m (step1Done i s) = hide m s := by
  intro i s m h; refine hide_le (k := 0x1802069#26) ?_ h; unfold step1Done; simp

@[simp ↓] theorem step1Done_keeps : ∀ i s, (step1Done i s).pwr = s.pwr ∧ (step1Done i s).pins = s.pins ∧ (step1Done i
    s).tbs = s.tbs ∧ (step1Done i s).nv = s.nv ∧ (step1Done i s).out = s.out ∧ (step1Done i s).fus = s.fus ∧
    (step1Done i s).wsh = s.wsh ∧ (step1Done i s).pln = s.pln ∧ (step1Done i s).job = s.job ∧ (step1Done i s).sdl =
    s.sdl ∧ (step1Done i s).prs = s.prs ∧ (step1Done i s).ldg = s.ldg ∧ (step1Done i s).kvt = s.kvt ∧ (step1Done i
    s).ent = s.ent ∧ (step1Done i s).att = s.att ∧ (step1Done i s).tmp = s.tmp ∧ (step1Done i s).wdg = s.wdg ∧
    (step1Done i s).chp = s.chp ∧ (step1Done i s).pending = s.pending := by
  intro i s; have h := step1Done_hide i s 0x1802069#26 rfl; exact ⟨hide_pwr h rfl, hide_pins h rfl, hide_tbs h rfl,
    hide_nv h rfl, hide_out h rfl, hide_fus h rfl, hide_wsh h rfl, hide_pln h rfl, hide_job h rfl, hide_sdl h rfl,
    hide_prs h rfl, hide_ldg h rfl, hide_kvt h rfl, hide_ent h rfl, hide_att h rfl, hide_tmp h rfl, hide_wdg h rfl,
    hide_chp h rfl, hide_pending h rfl⟩

@[simp ↓] theorem steps2to4_hide : ∀ i s m, 0x1ffffff#26 &&& ~~~m = 0#26 → hide m (steps2to4 i s).2 = hide m s := by
  intro i s m h; refine hide_le (k := 0x1ffffff#26) ?_ h; unfold steps2to4; simp

@[simp ↓] theorem steps5to8_hide : ∀ i s m, 0x1ffffff#26 &&& ~~~m = 0#26 → hide m (steps5to8 i s).2 = hide m s := by
  intro i s m h; refine hide_le (k := 0x1ffffff#26) ?_ h; unfold steps5to8; simp

@[simp ↓] theorem noSlotB_hide : ∀ s m, 0x10000#26 &&& ~~~m = 0#26 → hide m (noSlotB s) = hide m s := by
  intro s m h; refine hide_le (k := 0x10000#26) ?_ h; unfold noSlotB; simp

@[simp ↓] theorem step10_hide : ∀ s m, 0x181e00e#26 &&& ~~~m = 0#26 → hide m (step10 s) = hide m s := by
  intro s m h; refine hide_le (k := 0x181e00e#26) ?_ h; unfold step10; simp

@[simp ↓] theorem deriveStart_hide : ∀ s m, 0x18e2108#26 &&& ~~~m = 0#26 → hide m (deriveStart s) = hide m s := by
  intro s m h; refine hide_le (k := 0x18e2108#26) ?_ h; unfold deriveStart; simp

@[simp ↓] theorem deviceReady_hide : ∀ warm us s m, 0x1802029#26 &&& ~~~m = 0#26 → hide m (deviceReady warm us s) =
    hide m s := by
  intro warm us s m h; refine hide_le (k := 0x1802029#26) ?_ h; unfold deviceReady; simp

@[simp ↓] theorem releaseBegins_hide : ∀ s m, 0x1e9e58d#26 &&& ~~~m = 0#26 → hide m (releaseBegins s) = hide m s := by
  intro s m h; refine hide_le (k := 0x1e9e58d#26) ?_ h; unfold releaseBegins; simp

@[simp ↓] theorem steps10to12_hide : ∀ i s m, 0x1efe5ef#26 &&& ~~~m = 0#26 → hide m (steps10to12 i s) = hide m s := by
  intro i s m h; refine hide_le (k := 0x1efe5ef#26) ?_ h; unfold steps10to12; simp

@[simp ↓] theorem steps9to12_hide : ∀ i s m, 0x1fffdef#26 &&& ~~~m = 0#26 → hide m (steps9to12 i s) = hide m s := by
  intro i s m h; refine hide_le (k := 0x1fffdef#26) ?_ h; unfold steps9to12; simp

@[simp ↓] theorem coldSteps_hide : ∀ i s m, 0x1ffffff#26 &&& ~~~m = 0#26 → hide m (coldSteps i s) = hide m s := by
  intro i s m h; refine hide_le (k := 0x1ffffff#26) ?_ h; unfold coldSteps; simp

@[simp ↓] theorem supplyFound_hide : ∀ i s m, 0x1ffffff#26 &&& ~~~m = 0#26 → hide m (supplyFound i s) = hide m s := by
  intro i s m h; refine hide_le (k := 0x1ffffff#26) ?_ h; unfold supplyFound; simp

@[simp ↓] theorem coldStart_hide : ∀ i s m, 0x1ffffff#26 &&& ~~~m = 0#26 → hide m (coldStart i s) = hide m s := by
  intro i s m h; refine hide_le (k := 0x1ffffff#26) ?_ h; unfold coldStart; simp

@[simp ↓] theorem resumeHeld_hide : ∀ i s m, 0x1ffffff#26 &&& ~~~m = 0#26 → hide m (resumeHeld i s) = hide m s := by
  intro i s m h; refine hide_le (k := 0x1ffffff#26) ?_ h; unfold resumeHeld; simp

@[simp ↓] theorem warmRelease_hide : ∀ s m, 0x1e9e58f#26 &&& ~~~m = 0#26 → hide m (warmRelease s) = hide m s := by
  intro s m h; refine hide_le (k := 0x1e9e58f#26) ?_ h; unfold warmRelease; simp

@[simp ↓] theorem warmSteps5to7_hide : ∀ i s m, 0x1ffffff#26 &&& ~~~m = 0#26 → hide m (warmSteps5to7 i s) = hide m s
    := by
  intro i s m h; refine hide_le (k := 0x1ffffff#26) ?_ h; unfold warmSteps5to7; (repeat' first | split | dsimp only) <;> simp

@[simp ↓] theorem warmLoad_hide : ∀ s m, 0x1ffffff#26 &&& ~~~m = 0#26 → hide m (warmLoad s) = hide m s := by
  intro s m h; refine hide_le (k := 0x1ffffff#26) ?_ h; unfold warmLoad; simp

@[simp ↓] theorem warmSteps1to4_hide : ∀ before i s m, 0x1ffffff#26 &&& ~~~m = 0#26 → hide m (warmSteps1to4 before i
    s).2 = hide m s := by
  intro before i s m h; refine hide_le (k := 0x1ffffff#26) ?_ h; unfold warmSteps1to4; (repeat' first | split | dsimp only) <;> simp

@[simp ↓] theorem warmStart_hide : ∀ i s m, 0x1ffffff#26 &&& ~~~m = 0#26 → hide m (warmStart i s) = hide m s := by
  intro i s m h; refine hide_le (k := 0x1ffffff#26) ?_ h; unfold warmStart; (repeat' first | split | dsimp only) <;> simp

end Sys2Proof.Machine
end

