-- ==== Sys2Proof/Laws/Resets.lean ====
section
/-! SUPPORT. What the operations of Machine/Resets.lean leave as it was: every block of the state they do not name, and the
queue. -/

namespace Sys2Proof.Machine

@[simp ↓] theorem doPowerOnReset_hide : ∀ s m, 0x1ffffff#26 &&& ~~~m = 0#26 → hide m (doPowerOnReset s) = hide m s :=
    by
  intro s m h; refine hide_le (k := 0x1ffffff#26) ?_ h; unfold doPowerOnReset; simp

@[simp ↓] theorem doBrownOut_hide : ∀ vinMv choldMv s m, 0x1ffffff#26 &&& ~~~m = 0#26 → hide m (doBrownOut vinMv
    choldMv s) = hide m s := by
  intro vinMv choldMv s m h; refine hide_le (k := 0x1ffffff#26) ?_ h; unfold doBrownOut; simp

@[simp ↓] theorem doDevRstLow_hide : ∀ s m, 0x1ffffff#26 &&& ~~~m = 0#26 → hide m (doDevRstLow s) = hide m s := by
  intro s m h; refine hide_le (k := 0x1ffffff#26) ?_ h; unfold doDevRstLow; simp

@[simp ↓] theorem doDebugReset_hide : ∀ s m, 0x1ffffff#26 &&& ~~~m = 0#26 → hide m (doDebugReset s) = hide m s := by
  intro s m h; refine hide_le (k := 0x1ffffff#26) ?_ h; unfold doDebugReset; simp

@[simp ↓] theorem doDoubleBitError_hide : ∀ x0 s m, 0x1ffffff#26 &&& ~~~m = 0#26 → hide m (doDoubleBitError x0 s) =
    hide m s := by
  intro x0 s m h; refine hide_le (k := 0x1ffffff#26) ?_ h; unfold doDoubleBitError; simp

@[simp ↓] theorem swrst_hide : ∀ key s m, 0x1ffffff#26 &&& ~~~m = 0#26 → hide m (swrst key s) = hide m s := by
  intro key s m h; refine hide_le (k := 0x1ffffff#26) ?_ h; unfold swrst; simp

@[simp ↓] theorem doGlbSwrst_hide : ∀ a key s m, 0x1ffffff#26 &&& ~~~m = 0#26 → hide m (doGlbSwrst a key s) = hide m s
    := by
  intro a key s m h; refine hide_le (k := 0x1ffffff#26) ?_ h; unfold doGlbSwrst; simp

@[simp ↓] theorem doManagementLockup_hide : ∀ cause s m, 0x1ffffff#26 &&& ~~~m = 0#26 → hide m (doManagementLockup
    cause s) = hide m s := by
  intro cause s m h; refine hide_le (k := 0x1ffffff#26) ?_ h; unfold doManagementLockup; simp

@[simp ↓] theorem doDelayedReset_hide : ∀ s m, 0x1ffffff#26 &&& ~~~m = 0#26 → hide m (doDelayedReset s) = hide m s :=
    by
  intro s m h; refine hide_le (k := 0x1ffffff#26) ?_ h; unfold doDelayedReset; simp

@[simp ↓] theorem doFlashBusyPollTimeout_hide : ∀ c s m, 0x1806008#26 &&& ~~~m = 0#26 → hide m (doFlashBusyPollTimeout
    c s) = hide m s := by
  intro c s m h; refine hide_le (k := 0x1806008#26) ?_ h; unfold doFlashBusyPollTimeout; (repeat' first | split | dsimp only) <;> simp

end Sys2Proof.Machine
end

