-- ==== Sys2Proof/Laws/Fieldop.lean ====
section
/-! SUPPORT. What the operations of Machine/Fieldop.lean leave as it was: every block of the state they do not name, and the
queue. -/

namespace Sys2Proof.Machine

@[simp ↓] theorem autoWrite_hide : ∀ v s m, 0x180204a#26 &&& ~~~m = 0#26 → hide m (autoWrite v s) = hide m s := by
  intro v s m h; refine hide_le (k := 0x180204a#26) ?_ h; unfold autoWrite; simp

@[simp ↓] theorem thermWrite_hide : ∀ v s m, 0x2#26 &&& ~~~m = 0#26 → hide m (thermWrite v s) = hide m s := by
  intro v s m h; refine hide_le (k := 0x2#26) ?_ h; unfold thermWrite; simp

@[simp ↓] theorem wakeEnWrite_hide : ∀ v s m, 0x2#26 &&& ~~~m = 0#26 → hide m (wakeEnWrite v s) = hide m s := by
  intro v s m h; refine hide_le (k := 0x2#26) ?_ h; unfold wakeEnWrite; simp

@[simp ↓] theorem budWrite_hide : ∀ p off v s m, 0x1802048#26 &&& ~~~m = 0#26 → hide m (budWrite p off v s) = hide m s
    := by
  intro p off v s m h; refine hide_le (k := 0x1802048#26) ?_ h; unfold budWrite; simp

@[simp ↓] theorem applyWshLive_hide : ∀ s m, 0x1802448#26 &&& ~~~m = 0#26 → hide m (applyWshLive s) = hide m s := by
  intro s m h; refine hide_le (k := 0x1802448#26) ?_ h; unfold applyWshLive
  exact hide_foldl _ _ (by intros; (repeat' first | split | dsimp only) <;> simp) _ _

@[simp ↓] theorem quotaWrite_hide : ∀ off v s m, 0x140#26 &&& ~~~m = 0#26 → hide m (quotaWrite off v s) = hide m s :=
    by
  intro off v s m h; refine hide_le (k := 0x140#26) ?_ h; unfold quotaWrite; simp

@[simp ↓] theorem applyQuota_hide : ∀ n s m, 0x1803048#26 &&& ~~~m = 0#26 → hide m (applyQuota n s) = hide m s := by
  intro n s m h; refine hide_le (k := 0x1803048#26) ?_ h; unfold applyQuota; (repeat' first | split | dsimp only) <;> simp

@[simp ↓] theorem remaskWrite_hide : ∀ v s m, 0x1822148#26 &&& ~~~m = 0#26 → hide m (remaskWrite v s) = hide m s := by
  intro v s m h; refine hide_le (k := 0x1822148#26) ?_ h; unfold remaskWrite; simp

@[simp ↓] theorem applyChpLive_hide : ∀ s m, 0x1c02048#26 &&& ~~~m = 0#26 → hide m (applyChpLive s) = hide m s := by
  intro s m h; refine hide_le (k := 0x1c02048#26) ?_ h; unfold applyChpLive; simp

@[simp ↓] theorem chpIgnored_hide : ∀ off v s m, 0x1802008#26 &&& ~~~m = 0#26 → hide m (chpIgnored off v s) = hide m s
    := by
  intro off v s m h; refine hide_le (k := 0x1802008#26) ?_ h; unfold chpIgnored; simp

@[simp ↓] theorem khzWrite_hide : ∀ v s m, 0x1c02048#26 &&& ~~~m = 0#26 → hide m (khzWrite v s) = hide m s := by
  intro v s m h; refine hide_le (k := 0x1c02048#26) ?_ h; unfold khzWrite; simp

@[simp ↓] theorem winWrite_hide : ∀ v s m, 0x1c02048#26 &&& ~~~m = 0#26 → hide m (winWrite v s) = hide m s := by
  intro v s m h; refine hide_le (k := 0x1c02048#26) ?_ h; unfold winWrite; simp

@[simp ↓] theorem contver_hide : ∀ v s m, 0x1806008#26 &&& ~~~m = 0#26 → hide m (contver v s) = hide m s := by
  intro v s m h; refine hide_le (k := 0x1806008#26) ?_ h; unfold contver; simp

@[simp ↓] theorem platPeriod_hide : ∀ d v s m, 0x1a02008#26 &&& ~~~m = 0#26 → hide m (platPeriod d v s) = hide m s :=
    by
  intro d v s m h; refine hide_le (k := 0x1a02008#26) ?_ h; unfold platPeriod; simp

@[simp ↓] theorem notifyWrite_hide : ∀ v s m, 0x1802048#26 &&& ~~~m = 0#26 → hide m (notifyWrite v s) = hide m s := by
  intro v s m h; refine hide_le (k := 0x1802048#26) ?_ h; unfold notifyWrite; simp

@[simp ↓] theorem userEnWrite_hide : ∀ v s m, 0x1802008#26 &&& ~~~m = 0#26 → hide m (userEnWrite v s) = hide m s := by
  intro v s m h; refine hide_le (k := 0x1802008#26) ?_ h; unfold userEnWrite; simp

@[simp ↓] theorem fieldWrite_hide : ∀ off v s m, 0x1e2614a#26 &&& ~~~m = 0#26 → hide m (fieldWrite off v s) = hide m s
    := by
  intro off v s m h; refine hide_le (k := 0x1e2614a#26) ?_ h; unfold fieldWrite; dsimp only
  have c (k sec v f s) (h : ∀ s, hide 0x1e2614a#26 (f s) = hide 0x1e2614a#26 s) : hide 0x1e2614a#26 (cfgWrite k sec off v f s) = hide 0x1e2614a#26 s :=
    cfgWrite_hide _ _ _ _ _ _ _ rfl h
  (repeat' with_reducible first | refine hide_if (fun _ => ?_) fun _ => ?_ | refine hide_dif (fun _ => ?_) fun _ => ?_ | split) <;>
    first | rfl | (refine c _ _ _ _ _ fun s => ?_; simp) | simp

@[simp ↓] theorem vfWrite_hide : ∀ n off v s m, 0x180294f#26 &&& ~~~m = 0#26 → hide m (vfWrite n off v s) = hide m s
    := by
  intro n off v s m h; refine hide_le (k := 0x180294f#26) ?_ h; unfold vfWrite; simp

@[simp ↓] theorem applyLive_hide : ∀ off s m, 0x1c03048#26 &&& ~~~m = 0#26 → hide m (applyLive off s) = hide m s := by
  intro off s m h; refine hide_le (k := 0x1c03048#26) ?_ h; unfold applyLive; simp

end Sys2Proof.Machine
end

