-- ==== Sys2Proof/Laws/Watershed.lean ====
section
/-! SUPPORT. What the operations of Machine/Watershed.lean leave as it was: every block of the state they do not name, and the
queue. -/

namespace Sys2Proof.Machine

@[simp ↓] theorem logNonconf_hide : ∀ s m, 0x1802008#26 &&& ~~~m = 0#26 → hide m (logNonconf s) = hide m s := by
  intro s m h; refine hide_le (k := 0x1802008#26) ?_ h; unfold logNonconf; simp

@[simp ↓] theorem chargeSixteenths_hide : ∀ s m, 0x1000400#26 &&& ~~~m = 0#26 → hide m (chargeSixteenths s) = hide m s
    := by
  intro s m h; refine hide_le (k := 0x1000400#26) ?_ h; unfold chargeSixteenths; simp

@[simp ↓] theorem logUnchecked_hide : ∀ s m, 0x1806008#26 &&& ~~~m = 0#26 → hide m (logUnchecked s) = hide m s := by
  intro s m h; refine hide_le (k := 0x1806008#26) ?_ h; unfold logUnchecked; simp

@[simp ↓] theorem endTakes_hide : ∀ s m, 0x1000800#26 &&& ~~~m = 0#26 → hide m (endTakes s) = hide m s := by
  intro s m h; refine hide_le (k := 0x1000800#26) ?_ h; unfold endTakes; simp

@[simp ↓] theorem newFrame_hide : ∀ s m, 0x1827d4a#26 &&& ~~~m = 0#26 → hide m (newFrame s) = hide m s := by
  intro s m h; refine hide_le (k := 0x1827d4a#26) ?_ h; unfold newFrame; simp

@[simp ↓] theorem doFrameBoundary_hide : ∀ s m, 0x1827d4a#26 &&& ~~~m = 0#26 → hide m (doFrameBoundary s) = hide m s
    := by
  intro s m h; refine hide_le (k := 0x1827d4a#26) ?_ h; unfold doFrameBoundary; simp

@[simp ↓] theorem project_hide : ∀ p r s m, 0x1802408#26 &&& ~~~m = 0#26 → hide m (project p r s) = hide m s := by
  intro p r s m h; refine hide_le (k := 0x1802408#26) ?_ h; unfold project; simp

@[simp ↓] theorem doFrameMidpoint_hide : ∀ s m, 0x1802408#26 &&& ~~~m = 0#26 → hide m (doFrameMidpoint s) = hide m s
    := by
  intro s m h; refine hide_le (k := 0x1802408#26) ?_ h; unfold doFrameMidpoint; split
  · rfl
  · exact hide_foldl _ _ (fun s p => hide_foldl _ _ (fun s r => by simp) _ _) _ _

@[simp ↓] theorem doPartitionExhausted_hide : ∀ p r use s m, 0x1000400#26 &&& ~~~m = 0#26 → hide m
    (doPartitionExhausted p r use s) = hide m s := by
  intro p r use s m h; refine hide_le (k := 0x1000400#26) ?_ h; unfold doPartitionExhausted; simp

@[simp ↓] theorem c0Preempt_hide : ∀ p s m, 0x900#26 &&& ~~~m = 0#26 → hide m (c0Preempt p s) = hide m s := by
  intro p s m h; refine hide_le (k := 0x900#26) ?_ h; unfold c0Preempt
  (repeat' first | split | dsimp only) <;> ((try simp) <;> (repeat (refine hide_snd (by assumption) ?_; try simp)))

@[simp ↓] theorem c0Arrive_hide : ∀ p r s m, 0x1802d08#26 &&& ~~~m = 0#26 → hide m (c0Arrive p r s) = hide m s := by
  intro p r s m h; refine hide_le (k := 0x1802d08#26) ?_ h; unfold c0Arrive; simp

@[simp ↓] theorem doC0Request_hide : ∀ p r s m, 0x1802d0e#26 &&& ~~~m = 0#26 → hide m (doC0Request p r s) = hide m s
    := by
  intro p r s m h; refine hide_le (k := 0x1802d0e#26) ?_ h; unfold doC0Request; simp

@[simp ↓] theorem doWshC0MaxClr_hide : ∀ a s m, 0x1802d0f#26 &&& ~~~m = 0#26 → hide m (doWshC0MaxClr a s) = hide m s
    := by
  intro a s m h; refine hide_le (k := 0x1802d0f#26) ?_ h; unfold doWshC0MaxClr; simp

end Sys2Proof.Machine
end

