-- ==== Sys2Proof/Laws/Array.lean ====
section
/-! SUPPORT. What the operations of Machine/Array.lean leave as it was: every block of the state they do not name, and the
queue. -/

namespace Sys2Proof.Machine

@[simp ↓] theorem stopEngine_hide : ∀ e j s m, 0x1823d08#26 &&& ~~~m = 0#26 → hide m (stopEngine e j s) = hide m s :=
    by
  intro e j s m h; refine hide_le (k := 0x1823d08#26) ?_ h; unfold stopEngine; simp

@[simp ↓] theorem loseEngine_hide : ∀ e j s m, 0x1823d08#26 &&& ~~~m = 0#26 → hide m (loseEngine e j s) = hide m s :=
    by
  intro e j s m h; refine hide_le (k := 0x1823d08#26) ?_ h; unfold loseEngine; simp

@[simp ↓] theorem rearbitrate_hide : ∀ e j s m, 0x800#26 &&& ~~~m = 0#26 → hide m (rearbitrate e j s) = hide m s := by
  intro e j s m h; refine hide_le (k := 0x800#26) ?_ h; unfold rearbitrate; simp

@[simp ↓] theorem goOn_hide : ∀ e x s m, 0x1000800#26 &&& ~~~m = 0#26 → hide m (goOn e x s) = hide m s := by
  intro e x s m h; refine hide_le (k := 0x1000800#26) ?_ h; unfold goOn; simp

@[simp ↓] theorem doSlicePoint_hide : ∀ e s m, 0x1823d08#26 &&& ~~~m = 0#26 → hide m (doSlicePoint e s) = hide m s :=
    by
  intro e s m h; refine hide_le (k := 0x1823d08#26) ?_ h; unfold doSlicePoint; (repeat' first | split | dsimp only) <;> simp

@[simp ↓] theorem doPinWaitEnd_hide : ∀ e s m, 0x1000800#26 &&& ~~~m = 0#26 → hide m (doPinWaitEnd e s) = hide m s :=
    by
  intro e s m h; refine hide_le (k := 0x1000800#26) ?_ h; unfold doPinWaitEnd; (repeat' first | split | dsimp only) <;> simp

@[simp ↓] theorem startEngine_hide : ∀ e j eid s m, 0x800#26 &&& ~~~m = 0#26 → hide m (startEngine e j eid s) = hide m
    s := by
  intro e j eid s m h; refine hide_le (k := 0x800#26) ?_ h; unfold startEngine; simp

@[simp ↓] theorem loadProgram_hide : ∀ c j s m, 0x1000800#26 &&& ~~~m = 0#26 → hide m (loadProgram c j s) = hide m s
    := by
  intro c j s m h; refine hide_le (k := 0x1000800#26) ?_ h; unfold loadProgram; simp

@[simp ↓] theorem startJob_hide : ∀ id c lane io j s m, 0x1001c00#26 &&& ~~~m = 0#26 → hide m (startJob id c lane io j
    s) = hide m s := by
  intro id c lane io j s m h; refine hide_le (k := 0x1001c00#26) ?_ h; unfold startJob; simp

@[simp ↓] theorem doJobDispatch_hide : ∀ id c lane io s m, 0x1823d08#26 &&& ~~~m = 0#26 → hide m (doJobDispatch id c
    lane io s) = hide m s := by
  intro id c lane io s m h; refine hide_le (k := 0x1823d08#26) ?_ h; unfold doJobDispatch; (repeat' first | split | dsimp only) <;> simp

@[simp ↓] theorem doEngineJoin_hide : ∀ id lane s m, 0x1800#26 &&& ~~~m = 0#26 → hide m (doEngineJoin id lane s) =
    hide m s := by
  intro id lane s m h; refine hide_le (k := 0x1800#26) ?_ h; unfold doEngineJoin; (repeat' first | split | dsimp only) <;> simp

@[simp ↓] theorem doProgramStoreWrite_hide : ∀ a off s m, 0x180290f#26 &&& ~~~m = 0#26 → hide m (doProgramStoreWrite a
    off s) = hide m s := by
  intro a off s m h; refine hide_le (k := 0x180290f#26) ?_ h; unfold doProgramStoreWrite; simp

@[simp ↓] theorem takeOut_hide : ∀ c cause s m, 0x1823d08#26 &&& ~~~m = 0#26 → hide m (takeOut c cause s) = hide m s
    := by
  intro c cause s m h; refine hide_le (k := 0x1823d08#26) ?_ h; unfold takeOut; simp

@[simp ↓] theorem doSupplyDifferenceFault_hide : ∀ c n mv second s m, 0x1ffffff#26 &&& ~~~m = 0#26 → hide m
    (doSupplyDifferenceFault c n mv second s) = hide m s := by
  intro c n mv second s m h; refine hide_le (k := 0x1ffffff#26) ?_ h; unfold doSupplyDifferenceFault; simp

@[simp ↓] theorem doTemperatureDifference_hide : ∀ hot cool dt s m, 0x1802908#26 &&& ~~~m = 0#26 → hide m
    (doTemperatureDifference hot cool dt s) = hide m s := by
  intro hot cool dt s m h; refine hide_le (k := 0x1802908#26) ?_ h; unfold doTemperatureDifference; simp

@[simp ↓] theorem doPlnGradClr_hide : ∀ a s m, 0x180290f#26 &&& ~~~m = 0#26 → hide m (doPlnGradClr a s) = hide m s :=
    by
  intro a s m h; refine hide_le (k := 0x180290f#26) ?_ h; unfold doPlnGradClr; simp

@[simp ↓] theorem offline_hide : ∀ c v s m, 0x1802808#26 &&& ~~~m = 0#26 → hide m (offline c v s) = hide m s := by
  intro c v s m h; refine hide_le (k := 0x1802808#26) ?_ h; unfold offline; simp

@[simp ↓] theorem doOfflineWrite_hide : ∀ a c v s m, 0x180290f#26 &&& ~~~m = 0#26 → hide m (doOfflineWrite a c v s) =
    hide m s := by
  intro a c v s m h; refine hide_le (k := 0x180290f#26) ?_ h; unfold doOfflineWrite; simp

@[simp ↓] theorem doClusterOffline_hide : ∀ c s m, 0x1802808#26 &&& ~~~m = 0#26 → hide m (doClusterOffline c s) = hide
    m s := by
  intro c s m h; refine hide_le (k := 0x1802808#26) ?_ h; unfold doClusterOffline; simp

end Sys2Proof.Machine
end

