-- ==== Sys2Proof/Laws/Attop.lean ====
section
/-! SUPPORT. What the operations of Machine/Attop.lean leave as it was: every block of the state they do not name, and the
queue. -/

namespace Sys2Proof.Machine

@[simp ↓] theorem ownToken_hide : ∀ nonce sel agg s m, 0x1802108#26 &&& ~~~m = 0#26 → hide m (ownToken nonce sel agg
    s).2 = hide m s := by
  intro nonce sel agg s m h; refine hide_le (k := 0x1802108#26) ?_ h; unfold ownToken; simp

@[simp ↓] theorem frameDrop_hide : ∀ f cause s m, 0x1882008#26 &&& ~~~m = 0#26 → hide m (frameDrop f cause s) = hide m
    s := by
  intro f cause s m h; refine hide_le (k := 0x1882008#26) ?_ h; unfold frameDrop; simp

@[simp ↓] theorem frameTake_hide : ∀ f s m, 0x80000#26 &&& ~~~m = 0#26 → hide m (frameTake f s) = hide m s := by
  intro f s m h; refine hide_le (k := 0x80000#26) ?_ h; unfold frameTake; simp

@[simp ↓] theorem nakRejoin_hide : ∀ src s m, 0x1882508#26 &&& ~~~m = 0#26 → hide m (nakRejoin src s) = hide m s := by
  intro src s m h; refine hide_le (k := 0x1882508#26) ?_ h; unfold nakRejoin; simp

@[simp ↓] theorem seqTaken_hide : ∀ f s m, 0x80000#26 &&& ~~~m = 0#26 → hide m (seqTaken f s) = hide m s := by
  intro f s m h; refine hide_le (k := 0x80000#26) ?_ h; unfold seqTaken; simp

@[simp ↓] theorem frameArrives_hide : ∀ f s m, 0x1882508#26 &&& ~~~m = 0#26 → hide m (frameArrives f s) = hide m s :=
    by
  intro f s m h; refine hide_le (k := 0x1882508#26) ?_ h; unfold frameArrives; (repeat' first | split | dsimp only) <;> simp

@[simp ↓] theorem onFrame_hide (typ : Nat) (k : Bytes → State → State) (s : State) (m : BitVec 26) (hm : 0x80000#26
    &&& ~~~m = 0#26) (h : ∀ b s, hide m (k b s) = hide m s) : hide m (onFrame typ k s) = hide m s := by
  have t (k : BitVec 26) (hk : k &&& ~~~0x80000#26 = 0#26) : k &&& ~~~m = 0#26 := sub_trans hk hm
  unfold onFrame; (repeat' first | split | dsimp only) <;> simp [h, t]

@[simp ↓] theorem servePump_hide : ∀ x0 s m, 0x1882508#26 &&& ~~~m = 0#26 → hide m (servePump x0 s) = hide m s := by
  intro n; induction n with
  | zero => intros; rfl
  | succ n ih =>
    intro s m h; refine hide_le (k := 0x1882508#26) ?_ h; unfold servePump; (repeat' first | split | dsimp only) <;> simp [ih]

@[simp ↓] theorem txGoOn_hide : ∀ s m, 0x1882508#26 &&& ~~~m = 0#26 → hide m (txGoOn s) = hide m s := by
  intro s m h; refine hide_le (k := 0x1882508#26) ?_ h; unfold txGoOn; simp

@[simp ↓] theorem startRound_hide : ∀ r s m, 0x1882508#26 &&& ~~~m = 0#26 → hide m (startRound r s) = hide m s := by
  intro r s m h; refine hide_le (k := 0x1882508#26) ?_ h; unfold startRound; simp

@[simp ↓] theorem askRound_hide : ∀ r s m, 0x1882508#26 &&& ~~~m = 0#26 → hide m (askRound r s) = hide m s := by
  intro r s m h; refine hide_le (k := 0x1882508#26) ?_ h; unfold askRound; simp

@[simp ↓] theorem aggClaim_hide : ∀ r s m, 0x100#26 &&& ~~~m = 0#26 → hide m (aggClaim r s).2 = hide m s := by
  intro r s m h; refine hide_le (k := 0x100#26) ?_ h; unfold aggClaim; simp

@[simp ↓] theorem aggOut_hide : ∀ r token s m, 0x1000500#26 &&& ~~~m = 0#26 → hide m (aggOut r token s) = hide m s :=
    by
  intro r token s m h; refine hide_le (k := 0x1000500#26) ?_ h; unfold aggOut; simp

@[simp ↓] theorem attResult_hide : ∀ n s m, 0x80000#26 &&& ~~~m = 0#26 → hide m (attResult n s) = hide m s := by
  intro n s m h; refine hide_le (k := 0x80000#26) ?_ h; unfold attResult; simp

@[simp ↓] theorem endRound_hide : ∀ r s m, 0x1882508#26 &&& ~~~m = 0#26 → hide m (endRound r s) = hide m s := by
  intro r s m h; refine hide_le (k := 0x1882508#26) ?_ h; unfold endRound; (repeat' first | split | dsimp only) <;> simp

end Sys2Proof.Machine
end

