-- ==== Sys2Proof/Laws/Attest.lean ====
section
/-! SUPPORT. What the operations of Machine/Attest.lean leave as it was: every block of the state they do not name, and the
queue. -/

namespace Sys2Proof.Machine

@[simp ↓] theorem attRefuse_hide : ∀ op res s m, 0x1882008#26 &&& ~~~m = 0#26 → hide m (attRefuse op res s) = hide m s
    := by
  intro op res s m h; refine hide_le (k := 0x1882008#26) ?_ h; unfold attRefuse; simp

@[simp ↓] theorem attRefuse_keeps : ∀ op res s, (attRefuse op res s).glb = s.glb ∧ (attRefuse op res s).pwr = s.pwr ∧
    (attRefuse op res s).pins = s.pins ∧ (attRefuse op res s).tbs = s.tbs ∧ (attRefuse op res s).rst = s.rst ∧
    (attRefuse op res s).boot = s.boot ∧ (attRefuse op res s).nv = s.nv ∧ (attRefuse op res s).out = s.out ∧
    (attRefuse op res s).fus = s.fus ∧ (attRefuse op res s).wsh = s.wsh ∧ (attRefuse op res s).pln = s.pln ∧
    (attRefuse op res s).job = s.job ∧ (attRefuse op res s).sdl = s.sdl ∧ (attRefuse op res s).prs = s.prs ∧
    (attRefuse op res s).ldg = s.ldg ∧ (attRefuse op res s).kvt = s.kvt ∧ (attRefuse op res s).ent = s.ent ∧
    (attRefuse op res s).tmp = s.tmp ∧ (attRefuse op res s).wdg = s.wdg ∧ (attRefuse op res s).chp = s.chp ∧
    (attRefuse op res s).pending = s.pending := by
  intro op res s; have h := attRefuse_hide op res s 0x1882008#26 rfl; exact ⟨hide_glb h rfl, hide_pwr h rfl, hide_pins h
    rfl, hide_tbs h rfl, hide_rst h rfl, hide_boot h rfl, hide_nv h rfl, hide_out h rfl, hide_fus h rfl, hide_wsh h
    rfl, hide_pln h rfl, hide_job h rfl, hide_sdl h rfl, hide_prs h rfl, hide_ldg h rfl, hide_kvt h rfl, hide_ent h
    rfl, hide_tmp h rfl, hide_wdg h rfl, hide_chp h rfl, hide_pending h rfl⟩

@[simp ↓] theorem attBadNonce_hide : ∀ op s m, 0x1882108#26 &&& ~~~m = 0#26 → hide m (attBadNonce op s) = hide m s :=
    by
  intro op s m h; refine hide_le (k := 0x1882108#26) ?_ h; unfold attBadNonce; simp

@[simp ↓] theorem attCmd_hide (a : Agent) (key : BitVec 16) (op : Nat) (k : State → State) (s : State) (m : BitVec 26)
    (hm : 0x188290f#26 &&& ~~~m = 0#26) (h : ∀ s, hide m (k s) = hide m s) : hide m (attCmd a key op k s) = hide m s
    := by
  have t (k : BitVec 26) (hk : k &&& ~~~0x188290f#26 = 0#26) : k &&& ~~~m = 0#26 := sub_trans hk hm
  unfold attCmd; refine access_hide _ _ _ _ _ (t _ rfl) fun s => ?_
  (repeat' first | split | dsimp only) <;> simp [h, t]

@[simp ↓] theorem doAggregate_hide : ∀ a key nonce dmaOk s m, 0x1882d0f#26 &&& ~~~m = 0#26 → hide m (doAggregate a key
    nonce dmaOk s) = hide m s := by
  intro a key nonce dmaOk s m h; refine hide_le (k := 0x1882d0f#26) ?_ h; unfold doAggregate; simp

@[simp ↓] theorem doRejoin_hide : ∀ a key s m, 0x1882d0f#26 &&& ~~~m = 0#26 → hide m (doRejoin a key s) = hide m s :=
    by
  intro a key s m h; refine hide_le (k := 0x1882d0f#26) ?_ h; unfold doRejoin; simp

@[simp ↓] theorem doEndorse_hide : ∀ a key dmaOk s m, 0x1882d0f#26 &&& ~~~m = 0#26 → hide m (doEndorse a key dmaOk s)
    = hide m s := by
  intro a key dmaOk s m h; refine hide_le (k := 0x1882d0f#26) ?_ h; unfold doEndorse; simp

@[simp ↓] theorem doAttEvidence_hide : ∀ a key nonce dmaOk s m, 0x1882d0f#26 &&& ~~~m = 0#26 → hide m (doAttEvidence a
    key nonce dmaOk s) = hide m s := by
  intro a key nonce dmaOk s m h; refine hide_le (k := 0x1882d0f#26) ?_ h; unfold doAttEvidence; simp

end Sys2Proof.Machine
end

