-- ==== Sys2Proof/Laws/Leafop.lean ====
section
/-! SUPPORT. What the operations of Machine/Leafop.lean leave as it was: every block of the state they do not name, and the
queue. -/

namespace Sys2Proof.Machine

@[simp ↓] theorem touchLeaf_hide : ∀ c k s m, 0x4000#26 &&& ~~~m = 0#26 → hide m (touchLeaf c k s) = hide m s := by
  intro c k s m h; refine hide_le (k := 0x4000#26) ?_ h; unfold touchLeaf; simp

@[simp ↓] theorem cacheLeaf_hide : ∀ c cs1 o a i m l s mk, 0x4000#26 &&& ~~~mk = 0#26 → hide mk (cacheLeaf c cs1 o a i
    m l s) = hide mk s := by
  intro c cs1 o a i m l s mk h; refine hide_le (k := 0x4000#26) ?_ h; unfold cacheLeaf; simp

@[simp ↓] theorem leafFails_hide : ∀ c o a s m, 0x1802008#26 &&& ~~~m = 0#26 → hide m (leafFails c o a s) = hide m s
    := by
  intro c o a s m h; refine hide_le (k := 0x1802008#26) ?_ h; unfold leafFails; simp

end Sys2Proof.Machine
end

