-- ==== Sys2Proof/Laws/Bar2.lean ====
section
/-! SUPPORT. What the operations of Machine/Bar2.lean leave as it was: every block of the state they do not name, and the
queue. -/

namespace Sys2Proof.Machine

@[simp ↓] theorem bar2Abort_hide : ∀ off cause s m, 0x1802108#26 &&& ~~~m = 0#26 → hide m (bar2Abort off cause s) =
    hide m s := by
  intro off cause s m h; refine hide_le (k := 0x1802108#26) ?_ h; unfold bar2Abort; simp

@[simp ↓] theorem bar2Serve_hide : ∀ off n l s m, 0x1806508#26 &&& ~~~m = 0#26 → hide m (bar2Serve off n l s) = hide m
    s := by
  intro off n l s m h; refine hide_le (k := 0x1806508#26) ?_ h; unfold bar2Serve; (repeat' first | split | dsimp only) <;> simp

@[simp ↓] theorem doBar2Read_hide : ∀ off n l s m, 0x1806d0f#26 &&& ~~~m = 0#26 → hide m (doBar2Read off n l s) = hide
    m s := by
  intro off n l s m h; refine hide_le (k := 0x1806d0f#26) ?_ h; unfold doBar2Read
  exact accessBar_hide _ _ _ _ _ _ rfl (by intro s; (repeat' first | split | dsimp only) <;> simp)

@[simp ↓] theorem doBar2ReadTimeout_hide : ∀ off s m, 0x180290f#26 &&& ~~~m = 0#26 → hide m (doBar2ReadTimeout off s)
    = hide m s := by
  intro off s m h; refine hide_le (k := 0x180290f#26) ?_ h; unfold doBar2ReadTimeout; simp

@[simp ↓] theorem doBar2Write_hide : ∀ off s m, 0x180290f#26 &&& ~~~m = 0#26 → hide m (doBar2Write off s) = hide m s
    := by
  intro off s m h; refine hide_le (k := 0x180290f#26) ?_ h; unfold doBar2Write; simp

end Sys2Proof.Machine
end

