-- ==== Sys2Proof/Laws/BlockReset.lean ====
section
/-! SUPPORT. What the operations of Machine/BlockReset.lean leave as it was: every block of the state they do not name, and the
queue. -/

namespace Sys2Proof.Machine

@[simp ↓] theorem blockReset_hide (b : Fin 11) (win : Nat) (f : State → State) (s : State) (m : BitVec 26) (hm :
    0x1802168#26 &&& ~~~m = 0#26) (h : ∀ s, hide m (f s) = hide m s) : hide m (blockReset b win f s) = hide m s := by
  have t (k : BitVec 26) (hk : k &&& ~~~0x1802168#26 = 0#26) : k &&& ~~~m = 0#26 := sub_trans hk hm
  unfold blockReset; (repeat' first | split | dsimp only) <;> simp [h, t]

@[simp ↓] theorem resetFus_hide : ∀ s m, 0x1ffffff#26 &&& ~~~m = 0#26 → hide m (resetFus s) = hide m s := by
  intro s m h; refine hide_le (k := 0x1ffffff#26) ?_ h; unfold resetFus; simp

@[simp ↓] theorem doBlockResetFus_hide : ∀ a s m, 0x1ffffff#26 &&& ~~~m = 0#26 → hide m (doBlockResetFus a s) = hide m
    s := by
  intro a s m h; refine hide_le (k := 0x1ffffff#26) ?_ h; unfold doBlockResetFus
  exact access_hide _ _ _ _ _ rfl fun s => blockReset_hide _ _ _ _ _ rfl fun s => by simp

@[simp ↓] theorem resetWsh_hide : ∀ s m, 0x1802c08#26 &&& ~~~m = 0#26 → hide m (resetWsh s) = hide m s := by
  intro s m h; refine hide_le (k := 0x1802c08#26) ?_ h; unfold resetWsh; simp

@[simp ↓] theorem doBlockResetWsh_hide : ∀ a s m, 0x1802d6f#26 &&& ~~~m = 0#26 → hide m (doBlockResetWsh a s) = hide m
    s := by
  intro a s m h; refine hide_le (k := 0x1802d6f#26) ?_ h; unfold doBlockResetWsh
  exact access_hide _ _ _ _ _ rfl fun s => blockReset_hide _ _ _ _ _ rfl fun s => by simp

@[simp ↓] theorem resetJob_hide : ∀ s m, 0x1803808#26 &&& ~~~m = 0#26 → hide m (resetJob s) = hide m s := by
  intro s m h; refine hide_le (k := 0x1803808#26) ?_ h; unfold resetJob; simp

@[simp ↓] theorem doBlockResetJob_hide : ∀ a s m, 0x180396f#26 &&& ~~~m = 0#26 → hide m (doBlockResetJob a s) = hide m
    s := by
  intro a s m h; refine hide_le (k := 0x180396f#26) ?_ h; unfold doBlockResetJob
  exact access_hide _ _ _ _ _ rfl fun s => blockReset_hide _ _ _ _ _ rfl fun s => by simp

@[simp ↓] theorem resetSdl_hide : ∀ s m, 0x4000#26 &&& ~~~m = 0#26 → hide m (resetSdl s) = hide m s := by
  intro s m h; refine hide_le (k := 0x4000#26) ?_ h; unfold resetSdl; simp

@[simp ↓] theorem doBlockResetSdl_hide : ∀ a s m, 0x180696f#26 &&& ~~~m = 0#26 → hide m (doBlockResetSdl a s) = hide m
    s := by
  intro a s m h; refine hide_le (k := 0x180696f#26) ?_ h; unfold doBlockResetSdl
  exact access_hide _ _ _ _ _ rfl fun s => blockReset_hide _ _ _ _ _ rfl fun s => by simp

@[simp ↓] theorem resetLdg_hide : ∀ s m, 0x1812008#26 &&& ~~~m = 0#26 → hide m (resetLdg s) = hide m s := by
  intro s m h; refine hide_le (k := 0x1812008#26) ?_ h; unfold resetLdg; simp

@[simp ↓] theorem doBlockResetLdg_hide : ∀ a s m, 0x181296f#26 &&& ~~~m = 0#26 → hide m (doBlockResetLdg a s) = hide m
    s := by
  intro a s m h; refine hide_le (k := 0x181296f#26) ?_ h; unfold doBlockResetLdg
  exact access_hide _ _ _ _ _ rfl fun s => blockReset_hide _ _ _ _ _ rfl fun s => by simp

@[simp ↓] theorem resetKvt_hide : ∀ s m, 0x18e3108#26 &&& ~~~m = 0#26 → hide m (resetKvt s) = hide m s := by
  intro s m h; refine hide_le (k := 0x18e3108#26) ?_ h; unfold resetKvt; simp

@[simp ↓] theorem doBlockResetKvt_hide : ∀ a s m, 0x18e396f#26 &&& ~~~m = 0#26 → hide m (doBlockResetKvt a s) = hide m
    s := by
  intro a s m h; refine hide_le (k := 0x18e396f#26) ?_ h; unfold doBlockResetKvt
  exact access_hide _ _ _ _ _ rfl fun s => blockReset_hide _ _ _ _ _ rfl fun s => by simp

@[simp ↓] theorem resetEnt_hide : ∀ s m, 0x40000#26 &&& ~~~m = 0#26 → hide m (resetEnt s) = hide m s := by
  intro s m h; refine hide_le (k := 0x40000#26) ?_ h; unfold resetEnt; simp

@[simp ↓] theorem doBlockResetEnt_hide : ∀ a s m, 0x184296f#26 &&& ~~~m = 0#26 → hide m (doBlockResetEnt a s) = hide m
    s := by
  intro a s m h; refine hide_le (k := 0x184296f#26) ?_ h; unfold doBlockResetEnt
  exact access_hide _ _ _ _ _ rfl fun s => blockReset_hide _ _ _ _ _ rfl fun s => by simp

@[simp ↓] theorem resetAtt_hide : ∀ s m, 0x80000#26 &&& ~~~m = 0#26 → hide m (resetAtt s) = hide m s := by
  intro s m h; refine hide_le (k := 0x80000#26) ?_ h; unfold resetAtt; simp

@[simp ↓] theorem doBlockResetAtt_hide : ∀ a s m, 0x188296f#26 &&& ~~~m = 0#26 → hide m (doBlockResetAtt a s) = hide m
    s := by
  intro a s m h; refine hide_le (k := 0x188296f#26) ?_ h; unfold doBlockResetAtt
  exact access_hide _ _ _ _ _ rfl fun s => blockReset_hide _ _ _ _ _ rfl fun s => by simp

@[simp ↓] theorem resetChp_hide : ∀ s m, 0x400004#26 &&& ~~~m = 0#26 → hide m (resetChp s) = hide m s := by
  intro s m h; refine hide_le (k := 0x400004#26) ?_ h; unfold resetChp; simp

@[simp ↓] theorem doBlockResetChp_hide : ∀ a s m, 0x1c0296f#26 &&& ~~~m = 0#26 → hide m (doBlockResetChp a s) = hide m
    s := by
  intro a s m h; refine hide_le (k := 0x1c0296f#26) ?_ h; unfold doBlockResetChp
  exact access_hide _ _ _ _ _ rfl fun s => blockReset_hide _ _ _ _ _ rfl fun s => by simp

@[simp ↓] theorem doBlockResetEvr_hide : ∀ a s m, 0x180296f#26 &&& ~~~m = 0#26 → hide m (doBlockResetEvr a s) = hide m
    s := by
  intro a s m h; refine hide_le (k := 0x180296f#26) ?_ h; unfold doBlockResetEvr
  exact access_hide _ _ _ _ _ rfl fun s => blockReset_hide _ _ _ _ _ rfl fun s => by simp

@[simp ↓] theorem resetPmc_hide : ∀ s m, 0x1000000#26 &&& ~~~m = 0#26 → hide m (resetPmc s) = hide m s := by
  intro s m h; refine hide_le (k := 0x1000000#26) ?_ h; unfold resetPmc; simp

@[simp ↓] theorem doBlockResetPmc_hide : ∀ a s m, 0x180296f#26 &&& ~~~m = 0#26 → hide m (doBlockResetPmc a s) = hide m
    s := by
  intro a s m h; refine hide_le (k := 0x180296f#26) ?_ h; unfold doBlockResetPmc
  exact access_hide _ _ _ _ _ rfl fun s => blockReset_hide _ _ _ _ _ rfl fun s => by simp

end Sys2Proof.Machine
end

