-- ==== Sys2Proof/Laws/Chpop.lean ====
section
/-! SUPPORT. What the operations of Machine/Chpop.lean leave as it was: every block of the state they do not name, and the
queue. -/

namespace Sys2Proof.Machine

@[simp ↓] theorem setSel_hide : ∀ v s m, 0x400004#26 &&& ~~~m = 0#26 → hide m (setSel v s) = hide m s := by
  intro v s m h; refine hide_le (k := 0x400004#26) ?_ h; unfold setSel; simp

@[simp ↓] theorem framingFault_hide : ∀ mode cause edges s m, 0x1c02008#26 &&& ~~~m = 0#26 → hide m (framingFault mode
    cause edges s) = hide m s := by
  intro mode cause edges s m h; refine hide_le (k := 0x1c02008#26) ?_ h; unfold framingFault; simp

@[simp ↓] theorem beginFrame_hide : ∀ s m, 0x400100#26 &&& ~~~m = 0#26 → hide m (beginFrame s) = hide m s := by
  intro s m h; refine hide_le (k := 0x400100#26) ?_ h; unfold beginFrame; simp

@[simp ↓] theorem winFill_hide : ∀ off n cause s m, 0x1802108#26 &&& ~~~m = 0#26 → hide m (winFill off n cause s) =
    hide m s := by
  intro off n cause s m h; refine hide_le (k := 0x1802108#26) ?_ h; unfold winFill; simp

@[simp ↓] theorem winFrame_hide : ∀ off n edges data s m, 0x1c02108#26 &&& ~~~m = 0#26 → hide m (winFrame off n edges
    data s) = hide m s := by
  intro off n edges data s m h; refine hide_le (k := 0x1c02108#26) ?_ h; unfold winFrame; simp

@[simp ↓] theorem toolWaits_hide : ∀ s m, 0x1c1200c#26 &&& ~~~m = 0#26 → hide m (toolWaits s) = hide m s := by
  intro s m h; refine hide_le (k := 0x1c1200c#26) ?_ h; unfold toolWaits; (repeat' first | split | dsimp only) <;> simp

@[simp ↓] theorem portFree_hide : ∀ s m, 0x1c1214c#26 &&& ~~~m = 0#26 → hide m (portFree s) = hide m s := by
  intro s m h; refine hide_le (k := 0x1c1214c#26) ?_ h; unfold portFree; (repeat' first | split | dsimp only) <;> simp

end Sys2Proof.Machine
end

