-- ==== Sys2Proof/Laws/Chain.lean ====
section
/-! SUPPORT. What the operations of Machine/Chain.lean leave as it was: every block of the state they do not name, and the
queue. -/

namespace Sys2Proof.Machine

@[simp ↓] theorem chpRefuse_hide : ∀ res s m, 0x1c02008#26 &&& ~~~m = 0#26 → hide m (chpRefuse res s) = hide m s := by
  intro res s m h; refine hide_le (k := 0x1c02008#26) ?_ h; unfold chpRefuse; simp

@[simp ↓] theorem startFrame_hide : ∀ s m, 0x1c02108#26 &&& ~~~m = 0#26 → hide m (startFrame s) = hide m s := by
  intro s m h; refine hide_le (k := 0x1c02108#26) ?_ h; unfold startFrame; simp

@[simp ↓] theorem doChpStart_hide : ∀ a key s m, 0x1c0290f#26 &&& ~~~m = 0#26 → hide m (doChpStart a key s) = hide m s
    := by
  intro a key s m h; refine hide_le (k := 0x1c0290f#26) ?_ h; unfold doChpStart; simp

@[simp ↓] theorem doChpFrameEnd_hide : ∀ edges inBytes s m, 0x1c1214c#26 &&& ~~~m = 0#26 → hide m (doChpFrameEnd edges
    inBytes s) = hide m s := by
  intro edges inBytes s m h; refine hide_le (k := 0x1c1214c#26) ?_ h; unfold doChpFrameEnd; simp

@[simp ↓] theorem doChpSelWrite_hide : ∀ a v s m, 0x1c0290f#26 &&& ~~~m = 0#26 → hide m (doChpSelWrite a v s) = hide m
    s := by
  intro a v s m h; refine hide_le (k := 0x1c0290f#26) ?_ h; unfold doChpSelWrite; simp

@[simp ↓] theorem doChpGpioWrite_hide : ∀ a v s m, 0x1c0290f#26 &&& ~~~m = 0#26 → hide m (doChpGpioWrite a v s) = hide
    m s := by
  intro a v s m h; refine hide_le (k := 0x1c0290f#26) ?_ h; unfold doChpGpioWrite; simp

@[simp ↓] theorem doWindowRead_hide : ∀ a off n edges data s m, 0x1c0290f#26 &&& ~~~m = 0#26 → hide m (doWindowRead a
    off n edges data s) = hide m s := by
  intro a off n edges data s m h; refine hide_le (k := 0x1c0290f#26) ?_ h; unfold doWindowRead; simp

@[simp ↓] theorem doWindowWrite_hide : ∀ a off s m, 0x180290f#26 &&& ~~~m = 0#26 → hide m (doWindowWrite a off s) =
    hide m s := by
  intro a off s m h; refine hide_le (k := 0x180290f#26) ?_ h; unfold doWindowWrite; simp

@[simp ↓] theorem doWindowReadTimeout_hide : ∀ off n s m, 0x1c02108#26 &&& ~~~m = 0#26 → hide m (doWindowReadTimeout
    off n s) = hide m s := by
  intro off n s m h; refine hide_le (k := 0x1c02108#26) ?_ h; unfold doWindowReadTimeout; (repeat' first | split | dsimp only) <;> simp

@[simp ↓] theorem slvDrop_hide : ∀ op cause off s m, 0x1c02008#26 &&& ~~~m = 0#26 → hide m (slvDrop op cause off s) =
    hide m s := by
  intro op cause off s m h; refine hide_le (k := 0x1c02008#26) ?_ h; unfold slvDrop; simp

@[simp ↓] theorem slvActed_hide : ∀ s m, 0x400000#26 &&& ~~~m = 0#26 → hide m (slvActed s) = hide m s := by
  intro s m h; refine hide_le (k := 0x400000#26) ?_ h; unfold slvActed; simp

@[simp ↓] theorem slvTake_hide : ∀ o off b s m, 0x1e9e58c#26 &&& ~~~m = 0#26 → hide m (slvTake o off b s) = hide m s
    := by
  intro o off b s m h; refine hide_le (k := 0x1e9e58c#26) ?_ h; unfold slvTake; simp

@[simp ↓] theorem doSlvData_hide : ∀ f s m, 0x1e9e58c#26 &&& ~~~m = 0#26 → hide m (doSlvData f s) = hide m s := by
  intro f s m h; refine hide_le (k := 0x1e9e58c#26) ?_ h; unfold doSlvData; (repeat' first | split | dsimp only) <;> simp

@[simp ↓] theorem doSlvEnd_hide : ∀ f s m, 0x1e9e58c#26 &&& ~~~m = 0#26 → hide m (doSlvEnd f s) = hide m s := by
  intro f s m h; refine hide_le (k := 0x1e9e58c#26) ?_ h; unfold doSlvEnd; (repeat' first | split | dsimp only) <;> simp

@[simp ↓] theorem doSlvStatus_hide : ∀ s m, 0x400100#26 &&& ~~~m = 0#26 → hide m (doSlvStatus s) = hide m s := by
  intro s m h; refine hide_le (k := 0x400100#26) ?_ h; unfold doSlvStatus; simp

@[simp ↓] theorem doSlaveFramingFault_hide : ∀ edges s m, 0x1c02008#26 &&& ~~~m = 0#26 → hide m (doSlaveFramingFault
    edges s) = hide m s := by
  intro edges s m h; refine hide_le (k := 0x1c02008#26) ?_ h; unfold doSlaveFramingFault; simp

end Sys2Proof.Machine
end

