-- ==== Sys2Proof/Laws/ConfigWrite.lean ====
section
/-! SUPPORT. What the operations of Machine/ConfigWrite.lean leave as it was: every block of the state they do not name, and the
queue. -/

namespace Sys2Proof.Machine

@[simp ↓] theorem doConfigFieldWrite_hide : ∀ a off v s m, 0x1e2694f#26 &&& ~~~m = 0#26 → hide m (doConfigFieldWrite a
    off v s) = hide m s := by
  intro a off v s m h; refine hide_le (k := 0x1e2694f#26) ?_ h; unfold doConfigFieldWrite; (repeat' first | split | dsimp only) <;> simp

@[simp ↓] theorem doLiveWriteApply_hide : ∀ off s m, 0x1c03048#26 &&& ~~~m = 0#26 → hide m (doLiveWriteApply off s) =
    hide m s := by
  intro off s m h; refine hide_le (k := 0x1c03048#26) ?_ h; unfold doLiveWriteApply; simp

@[simp ↓] theorem refuseUpd_hide : ∀ result sub s m, 0x1802048#26 &&& ~~~m = 0#26 → hide m (refuseUpd result sub s) =
    hide m s := by
  intro result sub s m h; refine hide_le (k := 0x1802048#26) ?_ h; unfold refuseUpd; simp

@[simp ↓] theorem failUpd_hide : ∀ s m, 0x1802048#26 &&& ~~~m = 0#26 → hide m (failUpd s) = hide m s := by
  intro s m h; refine hide_le (k := 0x1802048#26) ?_ h; unfold failUpd; simp

@[simp ↓] theorem putCopy_hide : ∀ b x s m, 0x80#26 &&& ~~~m = 0#26 → hide m (putCopy b x s) = hide m s := by
  intro b x s m h; refine hide_le (k := 0x80#26) ?_ h; unfold putCopy; simp

@[simp ↓] theorem applyUpdate_hide : ∀ n c s m, 0x1fffdef#26 &&& ~~~m = 0#26 → hide m (applyUpdate n c s) = hide m s
    := by
  intro n c s m h; refine hide_le (k := 0x1fffdef#26) ?_ h; unfold applyUpdate; simp

@[simp ↓] theorem runUpdate_hide : ∀ msg c p s m, 0x1fffdef#26 &&& ~~~m = 0#26 → hide m (runUpdate msg c p s) = hide m
    s := by
  intro msg c p s m h; refine hide_le (k := 0x1fffdef#26) ?_ h; cases p <;> simp [runUpdate]

@[simp ↓] theorem startUpdate_hide : ∀ msg p s m, 0x1fffdef#26 &&& ~~~m = 0#26 → hide m (startUpdate msg p s) = hide m
    s := by
  intro msg p s m h; refine hide_le (k := 0x1fffdef#26) ?_ h; unfold startUpdate; (repeat' first | split | dsimp only) <;> simp

@[simp ↓] theorem doConfigUpdate_hide : ∀ a key go msg p s m, 0x1fffdef#26 &&& ~~~m = 0#26 → hide m (doConfigUpdate a
    key go msg p s) = hide m s := by
  intro a key go msg p s m h; refine hide_le (k := 0x1fffdef#26) ?_ h; unfold doConfigUpdate; simp

@[simp ↓] theorem doConfigUpdateTimeout_hide : ∀ s m, 0x1c1214c#26 &&& ~~~m = 0#26 → hide m (doConfigUpdateTimeout s)
    = hide m s := by
  intro s m h; refine hide_le (k := 0x1c1214c#26) ?_ h; unfold doConfigUpdateTimeout; simp

end Sys2Proof.Machine
end

