-- ==== Sys2Proof/Laws/Counters.lean ====
section
/-! SUPPORT. What the operations of Machine/Counters.lean leave as it was: every block of the state they do not name, and the
queue. -/

namespace Sys2Proof.Machine

@[simp ↓] theorem modBw_hide : ∀ m f s mk, 0x1000000#26 &&& ~~~mk = 0#26 → hide mk (modBw m f s) = hide mk s := by
  intro m f s mk h; refine hide_le (k := 0x1000000#26) ?_ h; unfold modBw; simp

@[simp ↓] theorem doPmcBwWindowEnd_hide : ∀ m moved s mk, 0x1000000#26 &&& ~~~mk = 0#26 → hide mk (doPmcBwWindowEnd m
    moved s) = hide mk s := by
  intro m moved s mk h; refine hide_le (k := 0x1000000#26) ?_ h; unfold doPmcBwWindowEnd; simp

@[simp ↓] theorem doPmcBwClr_hide : ∀ a m s mk, 0x180290f#26 &&& ~~~mk = 0#26 → hide mk (doPmcBwClr a m s) = hide mk s
    := by
  intro a m s mk h; refine hide_le (k := 0x180290f#26) ?_ h; unfold doPmcBwClr; simp

@[simp ↓] theorem tagEnable_hide : ∀ s m, 0x1040100#26 &&& ~~~m = 0#26 → hide m (tagEnable s) = hide m s := by
  intro s m h; refine hide_le (k := 0x1040100#26) ?_ h; unfold tagEnable; simp

@[simp ↓] theorem doPmcTagEnable_hide : ∀ a s m, 0x184290f#26 &&& ~~~m = 0#26 → hide m (doPmcTagEnable a s) = hide m s
    := by
  intro a s m h; refine hide_le (k := 0x184290f#26) ?_ h; unfold doPmcTagEnable; simp

@[simp ↓] theorem tagClear_hide : ∀ s m, 0x1000000#26 &&& ~~~m = 0#26 → hide m (tagClear s) = hide m s := by
  intro s m h; refine hide_le (k := 0x1000000#26) ?_ h; unfold tagClear; simp

@[simp ↓] theorem doPmcTagClr_hide : ∀ a s m, 0x180290f#26 &&& ~~~m = 0#26 → hide m (doPmcTagClr a s) = hide m s := by
  intro a s m h; refine hide_le (k := 0x180290f#26) ?_ h; unfold doPmcTagClr; simp

end Sys2Proof.Machine
end

