-- ==== Sys2Proof/Laws/Entropy.lean ====
section
/-! SUPPORT. What the operations of Machine/Entropy.lean leave as it was: every block of the state they do not name, and the
queue. -/

namespace Sys2Proof.Machine

@[simp ↓] theorem doEntStartupDone_hide : ∀ s m, 0x1862108#26 &&& ~~~m = 0#26 → hide m (doEntStartupDone s) = hide m s
    := by
  intro s m h; refine hide_le (k := 0x1862108#26) ?_ h; unfold doEntStartupDone; simp

@[simp ↓] theorem doHealthTestFailure_hide : ∀ adaptive n s m, 0x1842008#26 &&& ~~~m = 0#26 → hide m
    (doHealthTestFailure adaptive n s) = hide m s := by
  intro adaptive n s m h; refine hide_le (k := 0x1842008#26) ?_ h; unfold doHealthTestFailure; simp

@[simp ↓] theorem doDrbgReseed_hide : ∀ s m, 0x1842008#26 &&& ~~~m = 0#26 → hide m (doDrbgReseed s) = hide m s := by
  intro s m h; refine hide_le (k := 0x1842008#26) ?_ h; unfold doDrbgReseed; simp

end Sys2Proof.Machine
end

