-- ==== Sys2Proof/Laws/EventRing.lean ====
section
/-! SUPPORT. What the operations of Machine/EventRing.lean leave as it was: every block of the state they do not name, and the
queue. -/

namespace Sys2Proof.Machine

@[simp ↓] theorem ringBaseWrite_hide : ∀ hi v s m, 0x1802008#26 &&& ~~~m = 0#26 → hide m (ringBaseWrite hi v s) = hide
    m s := by
  intro hi v s m h; refine hide_le (k := 0x1802008#26) ?_ h; unfold ringBaseWrite; simp

@[simp ↓] theorem doEventRingBaseWrite_hide : ∀ a hi v s m, 0x180290f#26 &&& ~~~m = 0#26 → hide m
    (doEventRingBaseWrite a hi v s) = hide m s := by
  intro a hi v s m h; refine hide_le (k := 0x180290f#26) ?_ h; unfold doEventRingBaseWrite; simp

@[simp ↓] theorem ringCtrlWrite_hide : ∀ v s m, 0x1802008#26 &&& ~~~m = 0#26 → hide m (ringCtrlWrite v s) = hide m s
    := by
  intro v s m h; refine hide_le (k := 0x1802008#26) ?_ h; unfold ringCtrlWrite; simp

@[simp ↓] theorem doEventRingCtrlWrite_hide : ∀ a v s m, 0x180290f#26 &&& ~~~m = 0#26 → hide m (doEventRingCtrlWrite a
    v s) = hide m s := by
  intro a v s m h; refine hide_le (k := 0x180290f#26) ?_ h; unfold doEventRingCtrlWrite; simp

@[simp ↓] theorem ringHeadWrite_hide : ∀ v s m, 0x1802008#26 &&& ~~~m = 0#26 → hide m (ringHeadWrite v s) = hide m s
    := by
  intro v s m h; refine hide_le (k := 0x1802008#26) ?_ h; unfold ringHeadWrite; simp

@[simp ↓] theorem doEventRingHeadWrite_hide : ∀ a v s m, 0x180290f#26 &&& ~~~m = 0#26 → hide m (doEventRingHeadWrite a
    v s) = hide m s := by
  intro a v s m h; refine hide_le (k := 0x180290f#26) ?_ h; unfold doEventRingHeadWrite; simp

@[simp ↓] theorem doMsixHoldoffExpiry_hide : ∀ s m, 0x1002100#26 &&& ~~~m = 0#26 → hide m (doMsixHoldoffExpiry s) =
    hide m s := by
  intro s m h; refine hide_le (k := 0x1002100#26) ?_ h; unfold doMsixHoldoffExpiry; simp

end Sys2Proof.Machine
end

