-- ==== Sys2Proof/Laws/Federation.lean ====
section
/-! SUPPORT. What the operations of Machine/Federation.lean leave as it was: every block of the state they do not name, and the
queue. -/

namespace Sys2Proof.Machine

@[simp ↓] theorem helloIn_hide : ∀ f s m, 0x18c2508#26 &&& ~~~m = 0#26 → hide m (helloIn f s) = hide m s := by
  intro f s m h; refine hide_le (k := 0x18c2508#26) ?_ h; unfold helloIn; simp

@[simp ↓] theorem chalIn_hide : ∀ f s m, 0x1882508#26 &&& ~~~m = 0#26 → hide m (chalIn f s) = hide m s := by
  intro f s m h; refine hide_le (k := 0x1882508#26) ?_ h; unfold chalIn; simp

@[simp ↓] theorem joinNak_hide : ∀ src cause s m, 0x1882508#26 &&& ~~~m = 0#26 → hide m (joinNak src cause s) = hide m
    s := by
  intro src cause s m h; refine hide_le (k := 0x1882508#26) ?_ h; unfold joinNak; simp

@[simp ↓] theorem joinKeyOut_hide : ∀ src r n s m, 0x18c2508#26 &&& ~~~m = 0#26 → hide m (joinKeyOut src r n s) = hide
    m s := by
  intro src r n s m h; refine hide_le (k := 0x18c2508#26) ?_ h; unfold joinKeyOut; simp

@[simp ↓] theorem reqIn_hide : ∀ f s m, 0x18c2508#26 &&& ~~~m = 0#26 → hide m (reqIn f s) = hide m s := by
  intro f s m h; refine hide_le (k := 0x18c2508#26) ?_ h; unfold reqIn; (repeat' first | split | dsimp only) <;> simp

@[simp ↓] theorem keyIn_hide : ∀ f s m, 0x18e3d08#26 &&& ~~~m = 0#26 → hide m (keyIn f s) = hide m s := by
  intro f s m h; refine hide_le (k := 0x18e3d08#26) ?_ h; unfold keyIn; simp

@[simp ↓] theorem evidReqIn_hide : ∀ f s m, 0x1882508#26 &&& ~~~m = 0#26 → hide m (evidReqIn f s) = hide m s := by
  intro f s m h; refine hide_le (k := 0x1882508#26) ?_ h; unfold evidReqIn; simp

@[simp ↓] theorem evidIn_hide : ∀ f s m, 0x1882008#26 &&& ~~~m = 0#26 → hide m (evidIn f s) = hide m s := by
  intro f s m h; refine hide_le (k := 0x1882008#26) ?_ h; unfold evidIn; (repeat' first | split | dsimp only) <;> simp

@[simp ↓] theorem rcvReqIn_hide : ∀ data readFault f s m, 0x1882508#26 &&& ~~~m = 0#26 → hide m (rcvReqIn data
    readFault f s) = hide m s := by
  intro data readFault f s m h; refine hide_le (k := 0x1882508#26) ?_ h; unfold rcvReqIn; simp

@[simp ↓] theorem peerFails_hide : ∀ s m, 0x1e9e58c#26 &&& ~~~m = 0#26 → hide m (peerFails s) = hide m s := by
  intro s m h; refine hide_le (k := 0x1e9e58c#26) ?_ h; unfold peerFails; simp

@[simp ↓] theorem rcvDataIn_hide : ∀ f s m, 0x1e9e58c#26 &&& ~~~m = 0#26 → hide m (rcvDataIn f s) = hide m s := by
  intro f s m h; refine hide_le (k := 0x1e9e58c#26) ?_ h; unfold rcvDataIn; (repeat' first | split | dsimp only) <;> simp

@[simp ↓] theorem rcvEndIn_hide : ∀ f s m, 0x1e9e58c#26 &&& ~~~m = 0#26 → hide m (rcvEndIn f s) = hide m s := by
  intro f s m h; refine hide_le (k := 0x1e9e58c#26) ?_ h; unfold rcvEndIn; (repeat' first | split | dsimp only) <;> simp

@[simp ↓] theorem nakIn_hide : ∀ f s m, 0x1882508#26 &&& ~~~m = 0#26 → hide m (nakIn f s) = hide m s := by
  intro f s m h; refine hide_le (k := 0x1882508#26) ?_ h; unfold nakIn; simp

@[simp ↓] theorem doRoundDeadline_hide : ∀ s m, 0x1882508#26 &&& ~~~m = 0#26 → hide m (doRoundDeadline s) = hide m s
    := by
  intro s m h; refine hide_le (k := 0x1882508#26) ?_ h; unfold doRoundDeadline; (repeat' first | split | dsimp only) <;> simp

@[simp ↓] theorem doInboxDoorbell_hide : ∀ a slot len s m, 0x1882d0f#26 &&& ~~~m = 0#26 → hide m (doInboxDoorbell a
    slot len s) = hide m s := by
  intro a slot len s m h; refine hide_le (k := 0x1882d0f#26) ?_ h; unfold doInboxDoorbell; simp

@[simp ↓] theorem doInboxClaimExpiry_hide : ∀ slot s m, 0x1882008#26 &&& ~~~m = 0#26 → hide m (doInboxClaimExpiry slot
    s) = hide m s := by
  intro slot s m h; refine hide_le (k := 0x1882008#26) ?_ h; unfold doInboxClaimExpiry; simp

@[simp ↓] theorem doPeerTxTimeout_hide : ∀ s m, 0x1882508#26 &&& ~~~m = 0#26 → hide m (doPeerTxTimeout s) = hide m s
    := by
  intro s m h; refine hide_le (k := 0x1882508#26) ?_ h; unfold doPeerTxTimeout; (repeat' first | split | dsimp only) <;> simp

@[simp ↓] theorem doPeerInboxClaimed_hide : ∀ slot s m, 0x1882508#26 &&& ~~~m = 0#26 → hide m (doPeerInboxClaimed slot
    s) = hide m s := by
  intro slot s m h; refine hide_le (k := 0x1882508#26) ?_ h; unfold doPeerInboxClaimed; (repeat' first | split | dsimp only) <;> simp

@[simp ↓] theorem txHeadWrite_hide : ∀ v s m, 0x1882508#26 &&& ~~~m = 0#26 → hide m (txHeadWrite v s) = hide m s := by
  intro v s m h; refine hide_le (k := 0x1882508#26) ?_ h; unfold txHeadWrite; simp

@[simp ↓] theorem doAttTxHeadWrite_hide : ∀ a v s m, 0x1882d0f#26 &&& ~~~m = 0#26 → hide m (doAttTxHeadWrite a v s) =
    hide m s := by
  intro a v s m h; refine hide_le (k := 0x1882d0f#26) ?_ h; unfold doAttTxHeadWrite; simp

end Sys2Proof.Machine
end

