-- ==== Sys2Proof/Laws/Reach.lean ====
section
/-! SUPPORT. An access that reaches its register does what the register does, after the link has left L1 or L2; and what an
instruction that only computes leaves of the state. -/

namespace Sys2Proof.Machine

theorem servedWin_leaveIdle (s : State) (w : Nat) : servedWin (leaveIdle s) w = servedWin s w := by
  simp [servedWin, lcClosed]

theorem servedBars_leaveIdle (s : State) : servedBars (leaveIdle s) = servedBars s := by
  simp [servedBars, lcClosed]

theorem leaveIdle_run (s : State) (h : s.pwr.rung = .run) : leaveIdle s = s := by
  unfold leaveIdle; rw [h]; rfl

theorem access_reach (a : Agent) (off : Nat) (k : State → State) (s : State) (h : Safety.Reach a off s) :
    access a off k s = k (leaveIdle s) := by
  cases a with
  | pf0 => obtain ⟨h1, h2, h3⟩ := h; simp [access, h1, h2, servedWin_leaveIdle, h3]
  | mgmt => obtain ⟨h1, h2⟩ := h; cases hr : s.pwr.rung <;> simp_all [access] <;> rfl
  | vf n => exact h.elim

theorem access_not (off : Nat) (k : State → State) (n : Fin 16) (s : State) : access (.vf n) off k s = s := rfl

end Sys2Proof.Machine
end

