-- ==== Sys2Proof/Laws/Fields.lean ====
section
/-! SUPPORT. What the operations that every command uses leave of the blocks that they change: raising an event, counting,
powering the clusters, leaving L1 or L2. -/

namespace Sys2Proof.Machine

/-- What each step of a fold keeps, the fold keeps. -/
theorem foldl_keep {α β γ : Type} (g : β → γ) (f : β → α → β) (h : ∀ b a, g (f b a) = g b) (l : List α) (b : β) :
    g (l.foldl f b) = g b := by
  induction l generalizing b with
  | nil => rfl
  | cons a l ih => rw [List.foldl_cons, ih, h]

@[simp ↓] theorem pmcAdd_pmc : ∀ i n s, (pmcAdd i n s).pmc.on = s.pmc.on ∧ (pmcAdd i n s).pmc.chain =
    s.pmc.chain ∧ (pmcAdd i n s).pmc.userEn = s.pmc.userEn ∧ (pmcAdd i n s).pmc.tagEn = s.pmc.tagEn ∧ (pmcAdd i n
    s).pmc.tagN = s.pmc.tagN ∧ (pmcAdd i n s).pmc.tagSeed = s.pmc.tagSeed ∧ (pmcAdd i n s).pmc.tags = s.pmc.tags ∧
    (pmcAdd i n s).pmc.tagFull = s.pmc.tagFull ∧ (pmcAdd i n s).pmc.bw = s.pmc.bw := by
  intros; unfold pmcAdd pmcCount; (repeat' split) <;> first | rfl | (simp; done) | (simp; split <;> rfl) | (simp; split <;> simp)

@[simp ↓] theorem queueMsg_hlk : ∀ r s, (queueMsg r s).hlk.speed = s.hlk.speed ∧ (queueMsg r s).hlk.width =
    s.hlk.width ∧ (queueMsg r s).hlk.reversed = s.hlk.reversed ∧ (queueMsg r s).hlk.flit = s.hlk.flit ∧ (queueMsg r
    s).hlk.pm = s.hlk.pm ∧ (queueMsg r s).hlk.numVf = s.hlk.numVf ∧ (queueMsg r s).hlk.pmeWait = s.hlk.pmeWait ∧
    (queueMsg r s).hlk.aspm = s.hlk.aspm ∧ (queueMsg r s).hlk.ari = s.hlk.ari ∧ (queueMsg r s).hlk.fns = s.hlk.fns ∧
    (queueMsg r s).hlk.ringBase = s.hlk.ringBase ∧ (queueMsg r s).hlk.ringEn = s.hlk.ringEn ∧ (queueMsg r
    s).hlk.ringMsix = s.hlk.ringMsix ∧ (queueMsg r s).hlk.ringK = s.hlk.ringK ∧ (queueMsg r s).hlk.holdoff =
    s.hlk.holdoff ∧ (queueMsg r s).hlk.head = s.hlk.head ∧ (queueMsg r s).hlk.tail = s.hlk.tail ∧ (queueMsg r
    s).hlk.phase = s.hlk.phase ∧ (queueMsg r s).hlk.runFullAge = s.hlk.runFullAge ∧ (queueMsg r s).hlk.runQueueAge =
    s.hlk.runQueueAge ∧ (queueMsg r s).hlk.holdoffOn = s.hlk.holdoffOn ∧ (queueMsg r s).hlk.batchPosted =
    s.hlk.batchPosted ∧ (queueMsg r s).hlk.holdoffOwed = s.hlk.holdoffOwed ∧ (queueMsg r s).hlk.policy =
    s.hlk.policy ∧ (queueMsg r s).hlk.ide = s.hlk.ide ∧ (queueMsg r s).hlk.ideFails = s.hlk.ideFails ∧ (queueMsg r
    s).hlk.sessions = s.hlk.sessions ∧ (queueMsg r s).hlk.shakes = s.hlk.shakes ∧ (queueMsg r s).hlk.bar2 =
    s.hlk.bar2 := by
  intros; unfold queueMsg dropMsg; (repeat' split) <;> simp

@[simp ↓] theorem ringPut_evr : ∀ r s, (ringPut r s).evr.ph = s.evr.ph ∧ (ringPut r s).evr.staged = s.evr.staged
    ∧ (ringPut r s).evr.frozen = s.evr.frozen ∧ (ringPut r s).evr.freezeTick = s.evr.freezeTick ∧ (ringPut r
    s).evr.freezeMissed = s.evr.freezeMissed ∧ (ringPut r s).evr.missed = s.evr.missed ∧ (ringPut r s).evr.lossAge =
    s.evr.lossAge ∧ (ringPut r s).evr.cursor = s.evr.cursor ∧ (ringPut r s).evr.cursorSpill = s.evr.cursorSpill ∧
    (ringPut r s).evr.cursorAuto = s.evr.cursorAuto ∧ (ringPut r s).evr.win = s.evr.win ∧ (ringPut r s).evr.winReady
    = s.evr.winReady ∧ (ringPut r s).evr.winPresent = s.evr.winPresent ∧ (ringPut r s).evr.cmdResult =
    s.evr.cmdResult ∧ (ringPut r s).evr.spillHead = s.evr.spillHead ∧ (ringPut r s).evr.spillGen = s.evr.spillGen ∧
    (ringPut r s).evr.spillOn = s.evr.spillOn ∧ (ringPut r s).evr.spillFault = s.evr.spillFault ∧ (ringPut r
    s).evr.calSet = s.evr.calSet ∧ (ringPut r s).evr.notifySev = s.evr.notifySev ∧ (ringPut r s).evr.frameBase =
    s.evr.frameBase := by
  intros; unfold ringPut; dsimp only; (repeat' split) <;> simp

@[simp ↓] theorem recordNow_hlk : ∀ r s, (recordNow r s).hlk.speed = s.hlk.speed ∧ (recordNow r s).hlk.width =
    s.hlk.width ∧ (recordNow r s).hlk.reversed = s.hlk.reversed ∧ (recordNow r s).hlk.flit = s.hlk.flit ∧ (recordNow
    r s).hlk.pm = s.hlk.pm ∧ (recordNow r s).hlk.numVf = s.hlk.numVf ∧ (recordNow r s).hlk.pmeWait = s.hlk.pmeWait ∧
    (recordNow r s).hlk.aspm = s.hlk.aspm ∧ (recordNow r s).hlk.ari = s.hlk.ari ∧ (recordNow r s).hlk.fns =
    s.hlk.fns ∧ (recordNow r s).hlk.ringBase = s.hlk.ringBase ∧ (recordNow r s).hlk.ringEn = s.hlk.ringEn ∧
    (recordNow r s).hlk.ringMsix = s.hlk.ringMsix ∧ (recordNow r s).hlk.ringK = s.hlk.ringK ∧ (recordNow r
    s).hlk.holdoff = s.hlk.holdoff ∧ (recordNow r s).hlk.head = s.hlk.head ∧ (recordNow r s).hlk.tail = s.hlk.tail ∧
    (recordNow r s).hlk.phase = s.hlk.phase ∧ (recordNow r s).hlk.runFullAge = s.hlk.runFullAge ∧ (recordNow r
    s).hlk.runQueueAge = s.hlk.runQueueAge ∧ (recordNow r s).hlk.holdoffOn = s.hlk.holdoffOn ∧ (recordNow r
    s).hlk.batchPosted = s.hlk.batchPosted ∧ (recordNow r s).hlk.holdoffOwed = s.hlk.holdoffOwed ∧ (recordNow r
    s).hlk.policy = s.hlk.policy ∧ (recordNow r s).hlk.ide = s.hlk.ide ∧ (recordNow r s).hlk.ideFails =
    s.hlk.ideFails ∧ (recordNow r s).hlk.sessions = s.hlk.sessions ∧ (recordNow r s).hlk.shakes = s.hlk.shakes ∧
    (recordNow r s).hlk.bar2 = s.hlk.bar2 := by
  intros; unfold recordNow takeSeq; dsimp only; (repeat' split) <;> simp

@[simp ↓] theorem recordNow_evr : ∀ r s, (recordNow r s).evr.ph = s.evr.ph ∧ (recordNow r s).evr.staged =
    s.evr.staged ∧ (recordNow r s).evr.frozen = s.evr.frozen ∧ (recordNow r s).evr.freezeTick = s.evr.freezeTick ∧
    (recordNow r s).evr.freezeMissed = s.evr.freezeMissed ∧ (recordNow r s).evr.missed = s.evr.missed ∧ (recordNow r
    s).evr.lossAge = s.evr.lossAge ∧ (recordNow r s).evr.cursor = s.evr.cursor ∧ (recordNow r s).evr.cursorSpill =
    s.evr.cursorSpill ∧ (recordNow r s).evr.cursorAuto = s.evr.cursorAuto ∧ (recordNow r s).evr.win = s.evr.win ∧
    (recordNow r s).evr.winReady = s.evr.winReady ∧ (recordNow r s).evr.winPresent = s.evr.winPresent ∧ (recordNow r
    s).evr.cmdResult = s.evr.cmdResult ∧ (recordNow r s).evr.spillHead = s.evr.spillHead ∧ (recordNow r
    s).evr.spillGen = s.evr.spillGen ∧ (recordNow r s).evr.spillOn = s.evr.spillOn ∧ (recordNow r s).evr.spillFault
    = s.evr.spillFault ∧ (recordNow r s).evr.calSet = s.evr.calSet ∧ (recordNow r s).evr.notifySev = s.evr.notifySev
    ∧ (recordNow r s).evr.frameBase = s.evr.frameBase := by
  intros; unfold recordNow takeSeq; dsimp only; (repeat' split) <;> simp

@[simp ↓] theorem recordNow_aon : ∀ r s, (recordNow r s).aon.batteryOnly = s.aon.batteryOnly ∧ (recordNow r
    s).aon.batSince = s.aon.batSince ∧ (recordNow r s).aon.buffer = s.aon.buffer ∧ (recordNow r s).aon.displaced =
    s.aon.displaced ∧ (recordNow r s).aon.calSecs = s.aon.calSecs ∧ (recordNow r s).aon.calTick = s.aon.calTick ∧
    (recordNow r s).aon.calValid = s.aon.calValid ∧ (recordNow r s).aon.coldCount = s.aon.coldCount ∧ (recordNow r
    s).aon.startRetry = s.aon.startRetry ∧ (recordNow r s).aon.kek = s.aon.kek ∧ (recordNow r s).aon.kekValid =
    s.aon.kekValid ∧ (recordNow r s).aon.msgCtr = s.aon.msgCtr ∧ (recordNow r s).aon.marker = s.aon.marker ∧
    (recordNow r s).aon.pendHold = s.aon.pendHold ∧ (recordNow r s).aon.latched = s.aon.latched ∧ (recordNow r
    s).aon.domMask = s.aon.domMask ∧ (recordNow r s).aon.lfsr = s.aon.lfsr ∧ (recordNow r s).aon.seeded =
    s.aon.seeded ∧ (recordNow r s).aon.onCellResp = s.aon.onCellResp ∧ (recordNow r s).aon.onCellHold =
    s.aon.onCellHold ∧ (recordNow r s).aon.onCellPin = s.aon.onCellPin ∧ (recordNow r s).aon.lost = s.aon.lost := by
  intros; unfold recordNow takeSeq; dsimp only; (repeat' split) <;> simp

@[simp ↓] theorem recordNow_pmc : ∀ r s, (recordNow r s).pmc.on = s.pmc.on ∧ (recordNow r s).pmc.chain =
    s.pmc.chain ∧ (recordNow r s).pmc.userEn = s.pmc.userEn ∧ (recordNow r s).pmc.tagEn = s.pmc.tagEn ∧ (recordNow r
    s).pmc.tagN = s.pmc.tagN ∧ (recordNow r s).pmc.tagSeed = s.pmc.tagSeed ∧ (recordNow r s).pmc.tags = s.pmc.tags ∧
    (recordNow r s).pmc.tagFull = s.pmc.tagFull ∧ (recordNow r s).pmc.bw = s.pmc.bw := by
  intros; unfold recordNow takeSeq; dsimp only; (repeat' split) <;> simp

@[simp ↓] theorem countMissed_evr : ∀ n s, (countMissed n s).evr.ring = s.evr.ring ∧ (countMissed n s).evr.ph =
    s.evr.ph ∧ (countMissed n s).evr.staged = s.evr.staged ∧ (countMissed n s).evr.frozen = s.evr.frozen ∧
    (countMissed n s).evr.freezeTick = s.evr.freezeTick ∧ (countMissed n s).evr.freezeMissed = s.evr.freezeMissed ∧
    (countMissed n s).evr.gap = s.evr.gap ∧ (countMissed n s).evr.lost = s.evr.lost ∧ (countMissed n s).evr.lossRun
    = s.evr.lossRun ∧ (countMissed n s).evr.lossSeq = s.evr.lossSeq ∧ (countMissed n s).evr.lossSeen =
    s.evr.lossSeen ∧ (countMissed n s).evr.lossAge = s.evr.lossAge ∧ (countMissed n s).evr.cursor = s.evr.cursor ∧
    (countMissed n s).evr.cursorSpill = s.evr.cursorSpill ∧ (countMissed n s).evr.cursorAuto = s.evr.cursorAuto ∧
    (countMissed n s).evr.win = s.evr.win ∧ (countMissed n s).evr.winReady = s.evr.winReady ∧ (countMissed n
    s).evr.winPresent = s.evr.winPresent ∧ (countMissed n s).evr.cmdResult = s.evr.cmdResult ∧ (countMissed n
    s).evr.spillHead = s.evr.spillHead ∧ (countMissed n s).evr.spillGen = s.evr.spillGen ∧ (countMissed n
    s).evr.spillOn = s.evr.spillOn ∧ (countMissed n s).evr.spillFault = s.evr.spillFault ∧ (countMissed n
    s).evr.calSet = s.evr.calSet ∧ (countMissed n s).evr.notifySev = s.evr.notifySev ∧ (countMissed n
    s).evr.frameBase = s.evr.frameBase := by
  intros; unfold countMissed; simp

@[simp ↓] theorem countMissed_pmc : ∀ n s, (countMissed n s).pmc.on = s.pmc.on ∧ (countMissed n s).pmc.chain =
    s.pmc.chain ∧ (countMissed n s).pmc.userEn = s.pmc.userEn ∧ (countMissed n s).pmc.tagEn = s.pmc.tagEn ∧
    (countMissed n s).pmc.tagN = s.pmc.tagN ∧ (countMissed n s).pmc.tagSeed = s.pmc.tagSeed ∧ (countMissed n
    s).pmc.tags = s.pmc.tags ∧ (countMissed n s).pmc.tagFull = s.pmc.tagFull ∧ (countMissed n s).pmc.bw = s.pmc.bw
    := by
  intros; unfold countMissed; simp

@[simp ↓] theorem raise_hlk : ∀ code p0 p1 p2 s, (raise code p0 p1 p2 s).hlk.speed = s.hlk.speed ∧ (raise code
    p0 p1 p2 s).hlk.width = s.hlk.width ∧ (raise code p0 p1 p2 s).hlk.reversed = s.hlk.reversed ∧ (raise code p0 p1
    p2 s).hlk.flit = s.hlk.flit ∧ (raise code p0 p1 p2 s).hlk.pm = s.hlk.pm ∧ (raise code p0 p1 p2 s).hlk.numVf =
    s.hlk.numVf ∧ (raise code p0 p1 p2 s).hlk.pmeWait = s.hlk.pmeWait ∧ (raise code p0 p1 p2 s).hlk.aspm =
    s.hlk.aspm ∧ (raise code p0 p1 p2 s).hlk.ari = s.hlk.ari ∧ (raise code p0 p1 p2 s).hlk.fns = s.hlk.fns ∧ (raise
    code p0 p1 p2 s).hlk.ringBase = s.hlk.ringBase ∧ (raise code p0 p1 p2 s).hlk.ringEn = s.hlk.ringEn ∧ (raise code
    p0 p1 p2 s).hlk.ringMsix = s.hlk.ringMsix ∧ (raise code p0 p1 p2 s).hlk.ringK = s.hlk.ringK ∧ (raise code p0 p1
    p2 s).hlk.holdoff = s.hlk.holdoff ∧ (raise code p0 p1 p2 s).hlk.head = s.hlk.head ∧ (raise code p0 p1 p2
    s).hlk.tail = s.hlk.tail ∧ (raise code p0 p1 p2 s).hlk.phase = s.hlk.phase ∧ (raise code p0 p1 p2
    s).hlk.runFullAge = s.hlk.runFullAge ∧ (raise code p0 p1 p2 s).hlk.runQueueAge = s.hlk.runQueueAge ∧ (raise code
    p0 p1 p2 s).hlk.holdoffOn = s.hlk.holdoffOn ∧ (raise code p0 p1 p2 s).hlk.batchPosted = s.hlk.batchPosted ∧
    (raise code p0 p1 p2 s).hlk.holdoffOwed = s.hlk.holdoffOwed ∧ (raise code p0 p1 p2 s).hlk.policy = s.hlk.policy
    ∧ (raise code p0 p1 p2 s).hlk.ide = s.hlk.ide ∧ (raise code p0 p1 p2 s).hlk.ideFails = s.hlk.ideFails ∧ (raise
    code p0 p1 p2 s).hlk.sessions = s.hlk.sessions ∧ (raise code p0 p1 p2 s).hlk.shakes = s.hlk.shakes ∧ (raise code
    p0 p1 p2 s).hlk.bar2 = s.hlk.bar2 := by
  intros; unfold raise takeSeq; dsimp only; (repeat' split) <;> simp

@[simp ↓] theorem raise_evr : ∀ code p0 p1 p2 s, (raise code p0 p1 p2 s).evr.ph = s.evr.ph ∧ (raise code p0 p1
    p2 s).evr.frozen = s.evr.frozen ∧ (raise code p0 p1 p2 s).evr.freezeTick = s.evr.freezeTick ∧ (raise code p0 p1
    p2 s).evr.lossAge = s.evr.lossAge ∧ (raise code p0 p1 p2 s).evr.cursor = s.evr.cursor ∧ (raise code p0 p1 p2
    s).evr.cursorSpill = s.evr.cursorSpill ∧ (raise code p0 p1 p2 s).evr.cursorAuto = s.evr.cursorAuto ∧ (raise code
    p0 p1 p2 s).evr.win = s.evr.win ∧ (raise code p0 p1 p2 s).evr.winReady = s.evr.winReady ∧ (raise code p0 p1 p2
    s).evr.winPresent = s.evr.winPresent ∧ (raise code p0 p1 p2 s).evr.cmdResult = s.evr.cmdResult ∧ (raise code p0
    p1 p2 s).evr.spillHead = s.evr.spillHead ∧ (raise code p0 p1 p2 s).evr.spillGen = s.evr.spillGen ∧ (raise code
    p0 p1 p2 s).evr.spillOn = s.evr.spillOn ∧ (raise code p0 p1 p2 s).evr.spillFault = s.evr.spillFault ∧ (raise
    code p0 p1 p2 s).evr.calSet = s.evr.calSet ∧ (raise code p0 p1 p2 s).evr.notifySev = s.evr.notifySev ∧ (raise
    code p0 p1 p2 s).evr.frameBase = s.evr.frameBase := by
  intros; unfold raise takeSeq; dsimp only; (repeat' split) <;> simp

@[simp ↓] theorem raise_aon : ∀ code p0 p1 p2 s, (raise code p0 p1 p2 s).aon.batteryOnly = s.aon.batteryOnly ∧
    (raise code p0 p1 p2 s).aon.batSince = s.aon.batSince ∧ (raise code p0 p1 p2 s).aon.calSecs = s.aon.calSecs ∧
    (raise code p0 p1 p2 s).aon.calTick = s.aon.calTick ∧ (raise code p0 p1 p2 s).aon.calValid = s.aon.calValid ∧
    (raise code p0 p1 p2 s).aon.coldCount = s.aon.coldCount ∧ (raise code p0 p1 p2 s).aon.startRetry =
    s.aon.startRetry ∧ (raise code p0 p1 p2 s).aon.kek = s.aon.kek ∧ (raise code p0 p1 p2 s).aon.kekValid =
    s.aon.kekValid ∧ (raise code p0 p1 p2 s).aon.msgCtr = s.aon.msgCtr ∧ (raise code p0 p1 p2 s).aon.marker =
    s.aon.marker ∧ (raise code p0 p1 p2 s).aon.pendHold = s.aon.pendHold ∧ (raise code p0 p1 p2 s).aon.latched =
    s.aon.latched ∧ (raise code p0 p1 p2 s).aon.domMask = s.aon.domMask ∧ (raise code p0 p1 p2 s).aon.lfsr =
    s.aon.lfsr ∧ (raise code p0 p1 p2 s).aon.seeded = s.aon.seeded ∧ (raise code p0 p1 p2 s).aon.onCellResp =
    s.aon.onCellResp ∧ (raise code p0 p1 p2 s).aon.onCellHold = s.aon.onCellHold ∧ (raise code p0 p1 p2
    s).aon.onCellPin = s.aon.onCellPin ∧ (raise code p0 p1 p2 s).aon.lost = s.aon.lost := by
  intros; unfold raise takeSeq; dsimp only; (repeat' split) <;> simp

@[simp ↓] theorem raise_pmc : ∀ code p0 p1 p2 s, (raise code p0 p1 p2 s).pmc.on = s.pmc.on ∧ (raise code p0 p1
    p2 s).pmc.chain = s.pmc.chain ∧ (raise code p0 p1 p2 s).pmc.userEn = s.pmc.userEn ∧ (raise code p0 p1 p2
    s).pmc.tagEn = s.pmc.tagEn ∧ (raise code p0 p1 p2 s).pmc.tagN = s.pmc.tagN ∧ (raise code p0 p1 p2 s).pmc.tagSeed
    = s.pmc.tagSeed ∧ (raise code p0 p1 p2 s).pmc.tags = s.pmc.tags ∧ (raise code p0 p1 p2 s).pmc.tagFull =
    s.pmc.tagFull ∧ (raise code p0 p1 p2 s).pmc.bw = s.pmc.bw := by
  intros; unfold raise takeSeq; dsimp only; (repeat' split) <;> simp

@[simp ↓] theorem ev_hlk : ∀ code p0 p1 p2 s, (ev code p0 p1 p2 s).hlk.speed = s.hlk.speed ∧ (ev code p0 p1 p2
    s).hlk.width = s.hlk.width ∧ (ev code p0 p1 p2 s).hlk.reversed = s.hlk.reversed ∧ (ev code p0 p1 p2 s).hlk.flit
    = s.hlk.flit ∧ (ev code p0 p1 p2 s).hlk.pm = s.hlk.pm ∧ (ev code p0 p1 p2 s).hlk.numVf = s.hlk.numVf ∧ (ev code
    p0 p1 p2 s).hlk.pmeWait = s.hlk.pmeWait ∧ (ev code p0 p1 p2 s).hlk.aspm = s.hlk.aspm ∧ (ev code p0 p1 p2
    s).hlk.ari = s.hlk.ari ∧ (ev code p0 p1 p2 s).hlk.fns = s.hlk.fns ∧ (ev code p0 p1 p2 s).hlk.ringBase =
    s.hlk.ringBase ∧ (ev code p0 p1 p2 s).hlk.ringEn = s.hlk.ringEn ∧ (ev code p0 p1 p2 s).hlk.ringMsix =
    s.hlk.ringMsix ∧ (ev code p0 p1 p2 s).hlk.ringK = s.hlk.ringK ∧ (ev code p0 p1 p2 s).hlk.holdoff = s.hlk.holdoff
    ∧ (ev code p0 p1 p2 s).hlk.head = s.hlk.head ∧ (ev code p0 p1 p2 s).hlk.tail = s.hlk.tail ∧ (ev code p0 p1 p2
    s).hlk.phase = s.hlk.phase ∧ (ev code p0 p1 p2 s).hlk.runFullAge = s.hlk.runFullAge ∧ (ev code p0 p1 p2
    s).hlk.runQueueAge = s.hlk.runQueueAge ∧ (ev code p0 p1 p2 s).hlk.holdoffOn = s.hlk.holdoffOn ∧ (ev code p0 p1
    p2 s).hlk.batchPosted = s.hlk.batchPosted ∧ (ev code p0 p1 p2 s).hlk.holdoffOwed = s.hlk.holdoffOwed ∧ (ev code
    p0 p1 p2 s).hlk.policy = s.hlk.policy ∧ (ev code p0 p1 p2 s).hlk.ide = s.hlk.ide ∧ (ev code p0 p1 p2
    s).hlk.ideFails = s.hlk.ideFails ∧ (ev code p0 p1 p2 s).hlk.sessions = s.hlk.sessions ∧ (ev code p0 p1 p2
    s).hlk.shakes = s.hlk.shakes ∧ (ev code p0 p1 p2 s).hlk.bar2 = s.hlk.bar2 := by
  intros; unfold ev; simp

@[simp ↓] theorem ev_evr : ∀ code p0 p1 p2 s, (ev code p0 p1 p2 s).evr.ph = s.evr.ph ∧ (ev code p0 p1 p2
    s).evr.frozen = s.evr.frozen ∧ (ev code p0 p1 p2 s).evr.freezeTick = s.evr.freezeTick ∧ (ev code p0 p1 p2
    s).evr.lossAge = s.evr.lossAge ∧ (ev code p0 p1 p2 s).evr.cursor = s.evr.cursor ∧ (ev code p0 p1 p2
    s).evr.cursorSpill = s.evr.cursorSpill ∧ (ev code p0 p1 p2 s).evr.cursorAuto = s.evr.cursorAuto ∧ (ev code p0 p1
    p2 s).evr.win = s.evr.win ∧ (ev code p0 p1 p2 s).evr.winReady = s.evr.winReady ∧ (ev code p0 p1 p2
    s).evr.winPresent = s.evr.winPresent ∧ (ev code p0 p1 p2 s).evr.cmdResult = s.evr.cmdResult ∧ (ev code p0 p1 p2
    s).evr.spillHead = s.evr.spillHead ∧ (ev code p0 p1 p2 s).evr.spillGen = s.evr.spillGen ∧ (ev code p0 p1 p2
    s).evr.spillOn = s.evr.spillOn ∧ (ev code p0 p1 p2 s).evr.spillFault = s.evr.spillFault ∧ (ev code p0 p1 p2
    s).evr.calSet = s.evr.calSet ∧ (ev code p0 p1 p2 s).evr.notifySev = s.evr.notifySev ∧ (ev code p0 p1 p2
    s).evr.frameBase = s.evr.frameBase := by
  intros; unfold ev; simp

@[simp ↓] theorem ev_aon : ∀ code p0 p1 p2 s, (ev code p0 p1 p2 s).aon.batteryOnly = s.aon.batteryOnly ∧ (ev
    code p0 p1 p2 s).aon.batSince = s.aon.batSince ∧ (ev code p0 p1 p2 s).aon.calSecs = s.aon.calSecs ∧ (ev code p0
    p1 p2 s).aon.calTick = s.aon.calTick ∧ (ev code p0 p1 p2 s).aon.calValid = s.aon.calValid ∧ (ev code p0 p1 p2
    s).aon.coldCount = s.aon.coldCount ∧ (ev code p0 p1 p2 s).aon.startRetry = s.aon.startRetry ∧ (ev code p0 p1 p2
    s).aon.kek = s.aon.kek ∧ (ev code p0 p1 p2 s).aon.kekValid = s.aon.kekValid ∧ (ev code p0 p1 p2 s).aon.msgCtr =
    s.aon.msgCtr ∧ (ev code p0 p1 p2 s).aon.marker = s.aon.marker ∧ (ev code p0 p1 p2 s).aon.pendHold =
    s.aon.pendHold ∧ (ev code p0 p1 p2 s).aon.latched = s.aon.latched ∧ (ev code p0 p1 p2 s).aon.domMask =
    s.aon.domMask ∧ (ev code p0 p1 p2 s).aon.lfsr = s.aon.lfsr ∧ (ev code p0 p1 p2 s).aon.seeded = s.aon.seeded ∧
    (ev code p0 p1 p2 s).aon.onCellResp = s.aon.onCellResp ∧ (ev code p0 p1 p2 s).aon.onCellHold = s.aon.onCellHold
    ∧ (ev code p0 p1 p2 s).aon.onCellPin = s.aon.onCellPin ∧ (ev code p0 p1 p2 s).aon.lost = s.aon.lost := by
  intros; unfold ev; simp

@[simp ↓] theorem ev_pmc : ∀ code p0 p1 p2 s, (ev code p0 p1 p2 s).pmc.on = s.pmc.on ∧ (ev code p0 p1 p2
    s).pmc.chain = s.pmc.chain ∧ (ev code p0 p1 p2 s).pmc.userEn = s.pmc.userEn ∧ (ev code p0 p1 p2 s).pmc.tagEn =
    s.pmc.tagEn ∧ (ev code p0 p1 p2 s).pmc.tagN = s.pmc.tagN ∧ (ev code p0 p1 p2 s).pmc.tagSeed = s.pmc.tagSeed ∧
    (ev code p0 p1 p2 s).pmc.tags = s.pmc.tags ∧ (ev code p0 p1 p2 s).pmc.tagFull = s.pmc.tagFull ∧ (ev code p0 p1
    p2 s).pmc.bw = s.pmc.bw := by
  intros; unfold ev; simp

@[simp ↓] theorem evFree1_hlk : ∀ code p0 s, (evFree1 code p0 s).hlk.speed = s.hlk.speed ∧ (evFree1 code p0
    s).hlk.width = s.hlk.width ∧ (evFree1 code p0 s).hlk.reversed = s.hlk.reversed ∧ (evFree1 code p0 s).hlk.flit =
    s.hlk.flit ∧ (evFree1 code p0 s).hlk.pm = s.hlk.pm ∧ (evFree1 code p0 s).hlk.numVf = s.hlk.numVf ∧ (evFree1 code
    p0 s).hlk.pmeWait = s.hlk.pmeWait ∧ (evFree1 code p0 s).hlk.aspm = s.hlk.aspm ∧ (evFree1 code p0 s).hlk.ari =
    s.hlk.ari ∧ (evFree1 code p0 s).hlk.fns = s.hlk.fns ∧ (evFree1 code p0 s).hlk.ringBase = s.hlk.ringBase ∧
    (evFree1 code p0 s).hlk.ringEn = s.hlk.ringEn ∧ (evFree1 code p0 s).hlk.ringMsix = s.hlk.ringMsix ∧ (evFree1
    code p0 s).hlk.ringK = s.hlk.ringK ∧ (evFree1 code p0 s).hlk.holdoff = s.hlk.holdoff ∧ (evFree1 code p0
    s).hlk.head = s.hlk.head ∧ (evFree1 code p0 s).hlk.tail = s.hlk.tail ∧ (evFree1 code p0 s).hlk.phase =
    s.hlk.phase ∧ (evFree1 code p0 s).hlk.runFullAge = s.hlk.runFullAge ∧ (evFree1 code p0 s).hlk.runQueueAge =
    s.hlk.runQueueAge ∧ (evFree1 code p0 s).hlk.holdoffOn = s.hlk.holdoffOn ∧ (evFree1 code p0 s).hlk.batchPosted =
    s.hlk.batchPosted ∧ (evFree1 code p0 s).hlk.holdoffOwed = s.hlk.holdoffOwed ∧ (evFree1 code p0 s).hlk.policy =
    s.hlk.policy ∧ (evFree1 code p0 s).hlk.ide = s.hlk.ide ∧ (evFree1 code p0 s).hlk.ideFails = s.hlk.ideFails ∧
    (evFree1 code p0 s).hlk.sessions = s.hlk.sessions ∧ (evFree1 code p0 s).hlk.shakes = s.hlk.shakes ∧ (evFree1
    code p0 s).hlk.bar2 = s.hlk.bar2 := by
  intros; unfold evFree1 drawFree; simp

@[simp ↓] theorem evFree1_evr : ∀ code p0 s, (evFree1 code p0 s).evr.ph = s.evr.ph ∧ (evFree1 code p0
    s).evr.frozen = s.evr.frozen ∧ (evFree1 code p0 s).evr.freezeTick = s.evr.freezeTick ∧ (evFree1 code p0
    s).evr.lossAge = s.evr.lossAge ∧ (evFree1 code p0 s).evr.cursor = s.evr.cursor ∧ (evFree1 code p0
    s).evr.cursorSpill = s.evr.cursorSpill ∧ (evFree1 code p0 s).evr.cursorAuto = s.evr.cursorAuto ∧ (evFree1 code
    p0 s).evr.win = s.evr.win ∧ (evFree1 code p0 s).evr.winReady = s.evr.winReady ∧ (evFree1 code p0
    s).evr.winPresent = s.evr.winPresent ∧ (evFree1 code p0 s).evr.cmdResult = s.evr.cmdResult ∧ (evFree1 code p0
    s).evr.spillHead = s.evr.spillHead ∧ (evFree1 code p0 s).evr.spillGen = s.evr.spillGen ∧ (evFree1 code p0
    s).evr.spillOn = s.evr.spillOn ∧ (evFree1 code p0 s).evr.spillFault = s.evr.spillFault ∧ (evFree1 code p0
    s).evr.calSet = s.evr.calSet ∧ (evFree1 code p0 s).evr.notifySev = s.evr.notifySev ∧ (evFree1 code p0
    s).evr.frameBase = s.evr.frameBase := by
  intros; unfold evFree1 drawFree; simp

@[simp ↓] theorem evFree1_aon : ∀ code p0 s, (evFree1 code p0 s).aon.batteryOnly = s.aon.batteryOnly ∧ (evFree1
    code p0 s).aon.batSince = s.aon.batSince ∧ (evFree1 code p0 s).aon.calSecs = s.aon.calSecs ∧ (evFree1 code p0
    s).aon.calTick = s.aon.calTick ∧ (evFree1 code p0 s).aon.calValid = s.aon.calValid ∧ (evFree1 code p0
    s).aon.coldCount = s.aon.coldCount ∧ (evFree1 code p0 s).aon.startRetry = s.aon.startRetry ∧ (evFree1 code p0
    s).aon.kek = s.aon.kek ∧ (evFree1 code p0 s).aon.kekValid = s.aon.kekValid ∧ (evFree1 code p0 s).aon.msgCtr =
    s.aon.msgCtr ∧ (evFree1 code p0 s).aon.marker = s.aon.marker ∧ (evFree1 code p0 s).aon.pendHold = s.aon.pendHold
    ∧ (evFree1 code p0 s).aon.latched = s.aon.latched ∧ (evFree1 code p0 s).aon.domMask = s.aon.domMask ∧ (evFree1
    code p0 s).aon.lfsr = s.aon.lfsr ∧ (evFree1 code p0 s).aon.seeded = s.aon.seeded ∧ (evFree1 code p0
    s).aon.onCellResp = s.aon.onCellResp ∧ (evFree1 code p0 s).aon.onCellHold = s.aon.onCellHold ∧ (evFree1 code p0
    s).aon.onCellPin = s.aon.onCellPin ∧ (evFree1 code p0 s).aon.lost = s.aon.lost := by
  intros; unfold evFree1 drawFree; simp

@[simp ↓] theorem evFree1_pmc : ∀ code p0 s, (evFree1 code p0 s).pmc.on = s.pmc.on ∧ (evFree1 code p0
    s).pmc.chain = s.pmc.chain ∧ (evFree1 code p0 s).pmc.userEn = s.pmc.userEn ∧ (evFree1 code p0 s).pmc.tagEn =
    s.pmc.tagEn ∧ (evFree1 code p0 s).pmc.tagN = s.pmc.tagN ∧ (evFree1 code p0 s).pmc.tagSeed = s.pmc.tagSeed ∧
    (evFree1 code p0 s).pmc.tags = s.pmc.tags ∧ (evFree1 code p0 s).pmc.tagFull = s.pmc.tagFull ∧ (evFree1 code p0
    s).pmc.bw = s.pmc.bw := by
  intros; unfold evFree1 drawFree; simp

@[simp ↓] theorem evFree1_out : ∀ code p0 s, (evFree1 code p0 s).out.log = s.out.log ∧ (evFree1 code p0
    s).out.rng = s.out.rng := by
  intros; unfold evFree1 drawFree; simp

@[simp ↓] theorem evFree2_hlk : ∀ code p0 p1 s, (evFree2 code p0 p1 s).hlk.speed = s.hlk.speed ∧ (evFree2 code
    p0 p1 s).hlk.width = s.hlk.width ∧ (evFree2 code p0 p1 s).hlk.reversed = s.hlk.reversed ∧ (evFree2 code p0 p1
    s).hlk.flit = s.hlk.flit ∧ (evFree2 code p0 p1 s).hlk.pm = s.hlk.pm ∧ (evFree2 code p0 p1 s).hlk.numVf =
    s.hlk.numVf ∧ (evFree2 code p0 p1 s).hlk.pmeWait = s.hlk.pmeWait ∧ (evFree2 code p0 p1 s).hlk.aspm = s.hlk.aspm
    ∧ (evFree2 code p0 p1 s).hlk.ari = s.hlk.ari ∧ (evFree2 code p0 p1 s).hlk.fns = s.hlk.fns ∧ (evFree2 code p0 p1
    s).hlk.ringBase = s.hlk.ringBase ∧ (evFree2 code p0 p1 s).hlk.ringEn = s.hlk.ringEn ∧ (evFree2 code p0 p1
    s).hlk.ringMsix = s.hlk.ringMsix ∧ (evFree2 code p0 p1 s).hlk.ringK = s.hlk.ringK ∧ (evFree2 code p0 p1
    s).hlk.holdoff = s.hlk.holdoff ∧ (evFree2 code p0 p1 s).hlk.head = s.hlk.head ∧ (evFree2 code p0 p1 s).hlk.tail
    = s.hlk.tail ∧ (evFree2 code p0 p1 s).hlk.phase = s.hlk.phase ∧ (evFree2 code p0 p1 s).hlk.runFullAge =
    s.hlk.runFullAge ∧ (evFree2 code p0 p1 s).hlk.runQueueAge = s.hlk.runQueueAge ∧ (evFree2 code p0 p1
    s).hlk.holdoffOn = s.hlk.holdoffOn ∧ (evFree2 code p0 p1 s).hlk.batchPosted = s.hlk.batchPosted ∧ (evFree2 code
    p0 p1 s).hlk.holdoffOwed = s.hlk.holdoffOwed ∧ (evFree2 code p0 p1 s).hlk.policy = s.hlk.policy ∧ (evFree2 code
    p0 p1 s).hlk.ide = s.hlk.ide ∧ (evFree2 code p0 p1 s).hlk.ideFails = s.hlk.ideFails ∧ (evFree2 code p0 p1
    s).hlk.sessions = s.hlk.sessions ∧ (evFree2 code p0 p1 s).hlk.shakes = s.hlk.shakes ∧ (evFree2 code p0 p1
    s).hlk.bar2 = s.hlk.bar2 := by
  intros; unfold evFree2 drawFree; simp

@[simp ↓] theorem evFree2_evr : ∀ code p0 p1 s, (evFree2 code p0 p1 s).evr.ph = s.evr.ph ∧ (evFree2 code p0 p1
    s).evr.frozen = s.evr.frozen ∧ (evFree2 code p0 p1 s).evr.freezeTick = s.evr.freezeTick ∧ (evFree2 code p0 p1
    s).evr.lossAge = s.evr.lossAge ∧ (evFree2 code p0 p1 s).evr.cursor = s.evr.cursor ∧ (evFree2 code p0 p1
    s).evr.cursorSpill = s.evr.cursorSpill ∧ (evFree2 code p0 p1 s).evr.cursorAuto = s.evr.cursorAuto ∧ (evFree2
    code p0 p1 s).evr.win = s.evr.win ∧ (evFree2 code p0 p1 s).evr.winReady = s.evr.winReady ∧ (evFree2 code p0 p1
    s).evr.winPresent = s.evr.winPresent ∧ (evFree2 code p0 p1 s).evr.cmdResult = s.evr.cmdResult ∧ (evFree2 code p0
    p1 s).evr.spillHead = s.evr.spillHead ∧ (evFree2 code p0 p1 s).evr.spillGen = s.evr.spillGen ∧ (evFree2 code p0
    p1 s).evr.spillOn = s.evr.spillOn ∧ (evFree2 code p0 p1 s).evr.spillFault = s.evr.spillFault ∧ (evFree2 code p0
    p1 s).evr.calSet = s.evr.calSet ∧ (evFree2 code p0 p1 s).evr.notifySev = s.evr.notifySev ∧ (evFree2 code p0 p1
    s).evr.frameBase = s.evr.frameBase := by
  intros; unfold evFree2 drawFree; simp

@[simp ↓] theorem evFree2_aon : ∀ code p0 p1 s, (evFree2 code p0 p1 s).aon.batteryOnly = s.aon.batteryOnly ∧
    (evFree2 code p0 p1 s).aon.batSince = s.aon.batSince ∧ (evFree2 code p0 p1 s).aon.calSecs = s.aon.calSecs ∧
    (evFree2 code p0 p1 s).aon.calTick = s.aon.calTick ∧ (evFree2 code p0 p1 s).aon.calValid = s.aon.calValid ∧
    (evFree2 code p0 p1 s).aon.coldCount = s.aon.coldCount ∧ (evFree2 code p0 p1 s).aon.startRetry =
    s.aon.startRetry ∧ (evFree2 code p0 p1 s).aon.kek = s.aon.kek ∧ (evFree2 code p0 p1 s).aon.kekValid =
    s.aon.kekValid ∧ (evFree2 code p0 p1 s).aon.msgCtr = s.aon.msgCtr ∧ (evFree2 code p0 p1 s).aon.marker =
    s.aon.marker ∧ (evFree2 code p0 p1 s).aon.pendHold = s.aon.pendHold ∧ (evFree2 code p0 p1 s).aon.latched =
    s.aon.latched ∧ (evFree2 code p0 p1 s).aon.domMask = s.aon.domMask ∧ (evFree2 code p0 p1 s).aon.lfsr =
    s.aon.lfsr ∧ (evFree2 code p0 p1 s).aon.seeded = s.aon.seeded ∧ (evFree2 code p0 p1 s).aon.onCellResp =
    s.aon.onCellResp ∧ (evFree2 code p0 p1 s).aon.onCellHold = s.aon.onCellHold ∧ (evFree2 code p0 p1
    s).aon.onCellPin = s.aon.onCellPin ∧ (evFree2 code p0 p1 s).aon.lost = s.aon.lost := by
  intros; unfold evFree2 drawFree; simp

@[simp ↓] theorem evFree2_pmc : ∀ code p0 p1 s, (evFree2 code p0 p1 s).pmc.on = s.pmc.on ∧ (evFree2 code p0 p1
    s).pmc.chain = s.pmc.chain ∧ (evFree2 code p0 p1 s).pmc.userEn = s.pmc.userEn ∧ (evFree2 code p0 p1 s).pmc.tagEn
    = s.pmc.tagEn ∧ (evFree2 code p0 p1 s).pmc.tagN = s.pmc.tagN ∧ (evFree2 code p0 p1 s).pmc.tagSeed =
    s.pmc.tagSeed ∧ (evFree2 code p0 p1 s).pmc.tags = s.pmc.tags ∧ (evFree2 code p0 p1 s).pmc.tagFull =
    s.pmc.tagFull ∧ (evFree2 code p0 p1 s).pmc.bw = s.pmc.bw := by
  intros; unfold evFree2 drawFree; simp

@[simp ↓] theorem evFree2_out : ∀ code p0 p1 s, (evFree2 code p0 p1 s).out.log = s.out.log ∧ (evFree2 code p0 p1
    s).out.rng = s.out.rng := by
  intros; unfold evFree2 drawFree; simp

@[simp ↓] theorem enterRung_pwr : ∀ r s, (enterRung r s).pwr.vinPresent = s.pwr.vinPresent ∧ (enterRung r
    s).pwr.supplyValid = s.pwr.supplyValid ∧ (enterRung r s).pwr.forceTherm = s.pwr.forceTherm ∧ (enterRung r
    s).pwr.forceVin = s.pwr.forceVin ∧ (enterRung r s).pwr.forceHoldup = s.pwr.forceHoldup ∧ (enterRung r
    s).pwr.onHoldup = s.pwr.onHoldup ∧ (enterRung r s).pwr.holdRdy = s.pwr.holdRdy ∧ (enterRung r s).pwr.capThrottle
    = s.pwr.capThrottle ∧ (enterRung r s).pwr.capCount = s.pwr.capCount ∧ (enterRung r s).pwr.capPeak =
    s.pwr.capPeak ∧ (enterRung r s).pwr.profileEff = s.pwr.profileEff ∧ (enterRung r s).pwr.sel = s.pwr.sel ∧
    (enterRung r s).pwr.selApplied = s.pwr.selApplied ∧ (enterRung r s).pwr.vflashOn = s.pwr.vflashOn ∧ (enterRung r
    s).pwr.vflashFault = s.pwr.vflashFault ∧ (enterRung r s).pwr.vfRetry = s.pwr.vfRetry ∧ (enterRung r s).pwr.vfEn
    = s.pwr.vfEn ∧ (enterRung r s).pwr.keepDeep = s.pwr.keepDeep ∧ (enterRung r s).pwr.trips = s.pwr.trips ∧
    (enterRung r s).pwr.batPresent = s.pwr.batPresent ∧ (enterRung r s).pwr.batLow = s.pwr.batLow ∧ (enterRung r
    s).pwr.batLowLogged = s.pwr.batLowLogged ∧ (enterRung r s).pwr.rungTarget = s.pwr.rungTarget ∧ (enterRung r
    s).pwr.rungResult = s.pwr.rungResult ∧ (enterRung r s).pwr.idleEn = s.pwr.idleEn ∧ (enterRung r s).pwr.dozeEn =
    s.pwr.dozeEn ∧ (enterRung r s).pwr.retainOnPg = s.pwr.retainOnPg ∧ (enterRung r s).pwr.fastEn = s.pwr.fastEn ∧
    (enterRung r s).pwr.idleDwell = s.pwr.idleDwell ∧ (enterRung r s).pwr.dozeDwell = s.pwr.dozeDwell ∧ (enterRung r
    s).pwr.wakeEn = s.pwr.wakeEn ∧ (enterRung r s).pwr.wakeCause = s.pwr.wakeCause ∧ (enterRung r s).pwr.fromRung =
    s.pwr.fromRung ∧ (enterRung r s).pwr.tjHigh = s.pwr.tjHigh ∧ (enterRung r s).pwr.hyst = s.pwr.hyst ∧ (enterRung
    r s).pwr.tj = s.pwr.tj ∧ (enterRung r s).pwr.vinMv = s.pwr.vinMv ∧ (enterRung r s).pwr.iinMa = s.pwr.iinMa ∧
    (enterRung r s).pwr.vbatMv = s.pwr.vbatMv ∧ (enterRung r s).pwr.choldV = s.pwr.choldV ∧ (enterRung r
    s).pwr.pinMw = s.pwr.pinMw ∧ (enterRung r s).pwr.chgMa = s.pwr.chgMa ∧ (enterRung r s).pwr.lastFast =
    s.pwr.lastFast ∧ (enterRung r s).pwr.fpReason = s.pwr.fpReason ∧ (enterRung r s).pwr.wakeTimer = s.pwr.wakeTimer
    ∧ (enterRung r s).pwr.lossTick = s.pwr.lossTick ∧ (enterRung r s).pwr.wakePend = s.pwr.wakePend ∧ (enterRung r
    s).pwr.retainRefused = s.pwr.retainRefused ∧ (enterRung r s).pwr.wakeGpio = s.pwr.wakeGpio ∧ (enterRung r
    s).pwr.retValid = s.pwr.retValid ∧ (enterRung r s).pwr.retSecded = s.pwr.retSecded ∧ (enterRung r s).pwr.retMeas
    = s.pwr.retMeas ∧ (enterRung r s).pwr.retIds = s.pwr.retIds ∧ (enterRung r s).pwr.retSeq = s.pwr.retSeq := by
  intros; unfold enterRung; dsimp only; (repeat' split) <;> simp

@[simp ↓] theorem enterRung_hlk : ∀ r s, (enterRung r s).hlk.speed = s.hlk.speed ∧ (enterRung r s).hlk.width =
    s.hlk.width ∧ (enterRung r s).hlk.reversed = s.hlk.reversed ∧ (enterRung r s).hlk.flit = s.hlk.flit ∧ (enterRung
    r s).hlk.pm = s.hlk.pm ∧ (enterRung r s).hlk.numVf = s.hlk.numVf ∧ (enterRung r s).hlk.pmeWait = s.hlk.pmeWait ∧
    (enterRung r s).hlk.aspm = s.hlk.aspm ∧ (enterRung r s).hlk.ari = s.hlk.ari ∧ (enterRung r s).hlk.fns =
    s.hlk.fns ∧ (enterRung r s).hlk.ringBase = s.hlk.ringBase ∧ (enterRung r s).hlk.ringEn = s.hlk.ringEn ∧
    (enterRung r s).hlk.ringMsix = s.hlk.ringMsix ∧ (enterRung r s).hlk.ringK = s.hlk.ringK ∧ (enterRung r
    s).hlk.holdoff = s.hlk.holdoff ∧ (enterRung r s).hlk.head = s.hlk.head ∧ (enterRung r s).hlk.tail = s.hlk.tail ∧
    (enterRung r s).hlk.phase = s.hlk.phase ∧ (enterRung r s).hlk.runFullAge = s.hlk.runFullAge ∧ (enterRung r
    s).hlk.runQueueAge = s.hlk.runQueueAge ∧ (enterRung r s).hlk.holdoffOn = s.hlk.holdoffOn ∧ (enterRung r
    s).hlk.batchPosted = s.hlk.batchPosted ∧ (enterRung r s).hlk.holdoffOwed = s.hlk.holdoffOwed ∧ (enterRung r
    s).hlk.policy = s.hlk.policy ∧ (enterRung r s).hlk.ide = s.hlk.ide ∧ (enterRung r s).hlk.ideFails =
    s.hlk.ideFails ∧ (enterRung r s).hlk.sessions = s.hlk.sessions ∧ (enterRung r s).hlk.shakes = s.hlk.shakes ∧
    (enterRung r s).hlk.bar2 = s.hlk.bar2 := by
  intros; unfold enterRung; dsimp only; (repeat' split) <;> simp

@[simp ↓] theorem enterRung_evr : ∀ r s, (enterRung r s).evr.ph = s.evr.ph ∧ (enterRung r s).evr.frozen =
    s.evr.frozen ∧ (enterRung r s).evr.freezeTick = s.evr.freezeTick ∧ (enterRung r s).evr.lossAge = s.evr.lossAge ∧
    (enterRung r s).evr.cursor = s.evr.cursor ∧ (enterRung r s).evr.cursorSpill = s.evr.cursorSpill ∧ (enterRung r
    s).evr.cursorAuto = s.evr.cursorAuto ∧ (enterRung r s).evr.win = s.evr.win ∧ (enterRung r s).evr.winReady =
    s.evr.winReady ∧ (enterRung r s).evr.winPresent = s.evr.winPresent ∧ (enterRung r s).evr.cmdResult =
    s.evr.cmdResult ∧ (enterRung r s).evr.spillHead = s.evr.spillHead ∧ (enterRung r s).evr.spillGen =
    s.evr.spillGen ∧ (enterRung r s).evr.spillOn = s.evr.spillOn ∧ (enterRung r s).evr.spillFault = s.evr.spillFault
    ∧ (enterRung r s).evr.calSet = s.evr.calSet ∧ (enterRung r s).evr.notifySev = s.evr.notifySev ∧ (enterRung r
    s).evr.frameBase = s.evr.frameBase := by
  intros; unfold enterRung; dsimp only; (repeat' split) <;> simp

@[simp ↓] theorem enterRung_aon : ∀ r s, (enterRung r s).aon.batteryOnly = s.aon.batteryOnly ∧ (enterRung r
    s).aon.batSince = s.aon.batSince ∧ (enterRung r s).aon.calSecs = s.aon.calSecs ∧ (enterRung r s).aon.calTick =
    s.aon.calTick ∧ (enterRung r s).aon.calValid = s.aon.calValid ∧ (enterRung r s).aon.coldCount = s.aon.coldCount
    ∧ (enterRung r s).aon.startRetry = s.aon.startRetry ∧ (enterRung r s).aon.kek = s.aon.kek ∧ (enterRung r
    s).aon.kekValid = s.aon.kekValid ∧ (enterRung r s).aon.msgCtr = s.aon.msgCtr ∧ (enterRung r s).aon.marker =
    s.aon.marker ∧ (enterRung r s).aon.pendHold = s.aon.pendHold ∧ (enterRung r s).aon.latched = s.aon.latched ∧
    (enterRung r s).aon.domMask = s.aon.domMask ∧ (enterRung r s).aon.lfsr = s.aon.lfsr ∧ (enterRung r s).aon.seeded
    = s.aon.seeded ∧ (enterRung r s).aon.onCellResp = s.aon.onCellResp ∧ (enterRung r s).aon.onCellHold =
    s.aon.onCellHold ∧ (enterRung r s).aon.onCellPin = s.aon.onCellPin ∧ (enterRung r s).aon.lost = s.aon.lost := by
  intros; unfold enterRung; dsimp only; (repeat' split) <;> simp

@[simp ↓] theorem enterRung_pmc : ∀ r s, (enterRung r s).pmc.on = s.pmc.on ∧ (enterRung r s).pmc.chain =
    s.pmc.chain ∧ (enterRung r s).pmc.userEn = s.pmc.userEn ∧ (enterRung r s).pmc.tagEn = s.pmc.tagEn ∧ (enterRung r
    s).pmc.tagN = s.pmc.tagN ∧ (enterRung r s).pmc.tagSeed = s.pmc.tagSeed ∧ (enterRung r s).pmc.tags = s.pmc.tags ∧
    (enterRung r s).pmc.tagFull = s.pmc.tagFull ∧ (enterRung r s).pmc.bw = s.pmc.bw := by
  intros; unfold enterRung; dsimp only; (repeat' split) <;> simp

@[simp ↓] theorem enterRung_out : ∀ r s, (enterRung r s).out.log = s.out.log ∧ (enterRung r s).out.rng =
    s.out.rng := by
  intros; unfold enterRung; dsimp only; (repeat' split) <;> simp

@[simp ↓] theorem gateCluster_pln : ∀ c s, (gateCluster c s).pln.usable = s.pln.usable ∧ (gateCluster c
    s).pln.progs = s.pln.progs ∧ (gateCluster c s).pln.gradDv = s.pln.gradDv ∧ (gateCluster c s).pln.gradDt =
    s.pln.gradDt ∧ (gateCluster c s).pln.dtEpisode = s.pln.dtEpisode ∧ (gateCluster c s).pln.traps = s.pln.traps ∧
    (gateCluster c s).pln.pinIpus = s.pln.pinIpus ∧ (gateCluster c s).pln.pinClusters = s.pln.pinClusters := by
  intros; unfold gateCluster modCluster; simp

@[simp ↓] theorem gateCluster_pmc : ∀ c s, (gateCluster c s).pmc.on = s.pmc.on ∧ (gateCluster c s).pmc.chain =
    s.pmc.chain ∧ (gateCluster c s).pmc.userEn = s.pmc.userEn ∧ (gateCluster c s).pmc.tagEn = s.pmc.tagEn ∧
    (gateCluster c s).pmc.tagN = s.pmc.tagN ∧ (gateCluster c s).pmc.tagSeed = s.pmc.tagSeed ∧ (gateCluster c
    s).pmc.tags = s.pmc.tags ∧ (gateCluster c s).pmc.tagFull = s.pmc.tagFull ∧ (gateCluster c s).pmc.bw = s.pmc.bw
    := by
  intros; unfold gateCluster modCluster; simp

@[simp ↓] theorem clusterPower_pln_usable : ∀ s, (clusterPower s).pln.usable = s.pln.usable := by
  intros; unfold clusterPower; refine foldl_keep (fun s : State => s.pln.usable) _ (fun s c => ?_) _ _; dsimp only; (repeat' split) <;> simp [modCluster]

@[simp ↓] theorem clusterPower_pln_progs : ∀ s, (clusterPower s).pln.progs = s.pln.progs := by
  intros; unfold clusterPower; refine foldl_keep (fun s : State => s.pln.progs) _ (fun s c => ?_) _ _; dsimp only; (repeat' split) <;> simp [modCluster]

@[simp ↓] theorem clusterPower_pln_gradDv : ∀ s, (clusterPower s).pln.gradDv = s.pln.gradDv := by
  intros; unfold clusterPower; refine foldl_keep (fun s : State => s.pln.gradDv) _ (fun s c => ?_) _ _; dsimp only; (repeat' split) <;> simp [modCluster]

@[simp ↓] theorem clusterPower_pln_gradDt : ∀ s, (clusterPower s).pln.gradDt = s.pln.gradDt := by
  intros; unfold clusterPower; refine foldl_keep (fun s : State => s.pln.gradDt) _ (fun s c => ?_) _ _; dsimp only; (repeat' split) <;> simp [modCluster]

@[simp ↓] theorem clusterPower_pln_dtEpisode : ∀ s, (clusterPower s).pln.dtEpisode = s.pln.dtEpisode := by
  intros; unfold clusterPower; refine foldl_keep (fun s : State => s.pln.dtEpisode) _ (fun s c => ?_) _ _; dsimp only; (repeat' split) <;> simp [modCluster]

@[simp ↓] theorem clusterPower_pln_traps : ∀ s, (clusterPower s).pln.traps = s.pln.traps := by
  intros; unfold clusterPower; refine foldl_keep (fun s : State => s.pln.traps) _ (fun s c => ?_) _ _; dsimp only; (repeat' split) <;> simp [modCluster]

@[simp ↓] theorem clusterPower_pln_pinIpus : ∀ s, (clusterPower s).pln.pinIpus = s.pln.pinIpus := by
  intros; unfold clusterPower; refine foldl_keep (fun s : State => s.pln.pinIpus) _ (fun s c => ?_) _ _; dsimp only; (repeat' split) <;> simp [modCluster]

@[simp ↓] theorem clusterPower_pln_pinClusters : ∀ s, (clusterPower s).pln.pinClusters = s.pln.pinClusters := by
  intros; unfold clusterPower; refine foldl_keep (fun s : State => s.pln.pinClusters) _ (fun s c => ?_) _ _; dsimp only; (repeat' split) <;> simp [modCluster]

@[simp ↓] theorem clusterPower_pmc_on : ∀ s, (clusterPower s).pmc.on = s.pmc.on := by
  intros; unfold clusterPower; refine foldl_keep (fun s : State => s.pmc.on) _ (fun s c => ?_) _ _; dsimp only; (repeat' split) <;> simp [modCluster]

@[simp ↓] theorem clusterPower_pmc_chain : ∀ s, (clusterPower s).pmc.chain = s.pmc.chain := by
  intros; unfold clusterPower; refine foldl_keep (fun s : State => s.pmc.chain) _ (fun s c => ?_) _ _; dsimp only; (repeat' split) <;> simp [modCluster]

@[simp ↓] theorem clusterPower_pmc_userEn : ∀ s, (clusterPower s).pmc.userEn = s.pmc.userEn := by
  intros; unfold clusterPower; refine foldl_keep (fun s : State => s.pmc.userEn) _ (fun s c => ?_) _ _; dsimp only; (repeat' split) <;> simp [modCluster]

@[simp ↓] theorem clusterPower_pmc_tagEn : ∀ s, (clusterPower s).pmc.tagEn = s.pmc.tagEn := by
  intros; unfold clusterPower; refine foldl_keep (fun s : State => s.pmc.tagEn) _ (fun s c => ?_) _ _; dsimp only; (repeat' split) <;> simp [modCluster]

@[simp ↓] theorem clusterPower_pmc_tagN : ∀ s, (clusterPower s).pmc.tagN = s.pmc.tagN := by
  intros; unfold clusterPower; refine foldl_keep (fun s : State => s.pmc.tagN) _ (fun s c => ?_) _ _; dsimp only; (repeat' split) <;> simp [modCluster]

@[simp ↓] theorem clusterPower_pmc_tagSeed : ∀ s, (clusterPower s).pmc.tagSeed = s.pmc.tagSeed := by
  intros; unfold clusterPower; refine foldl_keep (fun s : State => s.pmc.tagSeed) _ (fun s c => ?_) _ _; dsimp only; (repeat' split) <;> simp [modCluster]

@[simp ↓] theorem clusterPower_pmc_tags : ∀ s, (clusterPower s).pmc.tags = s.pmc.tags := by
  intros; unfold clusterPower; refine foldl_keep (fun s : State => s.pmc.tags) _ (fun s c => ?_) _ _; dsimp only; (repeat' split) <;> simp [modCluster]

@[simp ↓] theorem clusterPower_pmc_tagFull : ∀ s, (clusterPower s).pmc.tagFull = s.pmc.tagFull := by
  intros; unfold clusterPower; refine foldl_keep (fun s : State => s.pmc.tagFull) _ (fun s c => ?_) _ _; dsimp only; (repeat' split) <;> simp [modCluster]

@[simp ↓] theorem clusterPower_pmc_bw : ∀ s, (clusterPower s).pmc.bw = s.pmc.bw := by
  intros; unfold clusterPower; refine foldl_keep (fun s : State => s.pmc.bw) _ (fun s c => ?_) _ _; dsimp only; (repeat' split) <;> simp [modCluster]

@[simp ↓] theorem forceNow_pwr : ∀ s, (forceNow s).pwr.vinPresent = s.pwr.vinPresent ∧ (forceNow
    s).pwr.supplyValid = s.pwr.supplyValid ∧ (forceNow s).pwr.forceTherm = s.pwr.forceTherm ∧ (forceNow
    s).pwr.forceVin = s.pwr.forceVin ∧ (forceNow s).pwr.forceHoldup = s.pwr.forceHoldup ∧ (forceNow s).pwr.onHoldup
    = s.pwr.onHoldup ∧ (forceNow s).pwr.holdRdy = s.pwr.holdRdy ∧ (forceNow s).pwr.capThrottle = s.pwr.capThrottle ∧
    (forceNow s).pwr.capCount = s.pwr.capCount ∧ (forceNow s).pwr.capPeak = s.pwr.capPeak ∧ (forceNow s).pwr.sel =
    s.pwr.sel ∧ (forceNow s).pwr.selApplied = s.pwr.selApplied ∧ (forceNow s).pwr.vflashOn = s.pwr.vflashOn ∧
    (forceNow s).pwr.vflashFault = s.pwr.vflashFault ∧ (forceNow s).pwr.vfRetry = s.pwr.vfRetry ∧ (forceNow
    s).pwr.vfEn = s.pwr.vfEn ∧ (forceNow s).pwr.keepDeep = s.pwr.keepDeep ∧ (forceNow s).pwr.trips = s.pwr.trips ∧
    (forceNow s).pwr.batPresent = s.pwr.batPresent ∧ (forceNow s).pwr.batLow = s.pwr.batLow ∧ (forceNow
    s).pwr.batLowLogged = s.pwr.batLowLogged ∧ (forceNow s).pwr.rung = s.pwr.rung ∧ (forceNow s).pwr.rungTarget =
    s.pwr.rungTarget ∧ (forceNow s).pwr.rungResult = s.pwr.rungResult ∧ (forceNow s).pwr.idleEn = s.pwr.idleEn ∧
    (forceNow s).pwr.dozeEn = s.pwr.dozeEn ∧ (forceNow s).pwr.retainOnPg = s.pwr.retainOnPg ∧ (forceNow
    s).pwr.fastEn = s.pwr.fastEn ∧ (forceNow s).pwr.idleDwell = s.pwr.idleDwell ∧ (forceNow s).pwr.dozeDwell =
    s.pwr.dozeDwell ∧ (forceNow s).pwr.wakeEn = s.pwr.wakeEn ∧ (forceNow s).pwr.wakeCause = s.pwr.wakeCause ∧
    (forceNow s).pwr.fromRung = s.pwr.fromRung ∧ (forceNow s).pwr.tjHigh = s.pwr.tjHigh ∧ (forceNow s).pwr.hyst =
    s.pwr.hyst ∧ (forceNow s).pwr.tj = s.pwr.tj ∧ (forceNow s).pwr.vinMv = s.pwr.vinMv ∧ (forceNow s).pwr.iinMa =
    s.pwr.iinMa ∧ (forceNow s).pwr.vbatMv = s.pwr.vbatMv ∧ (forceNow s).pwr.choldV = s.pwr.choldV ∧ (forceNow
    s).pwr.pinMw = s.pwr.pinMw ∧ (forceNow s).pwr.chgMa = s.pwr.chgMa ∧ (forceNow s).pwr.lastFast = s.pwr.lastFast ∧
    (forceNow s).pwr.fpReason = s.pwr.fpReason ∧ (forceNow s).pwr.wakeTimer = s.pwr.wakeTimer ∧ (forceNow
    s).pwr.lossTick = s.pwr.lossTick ∧ (forceNow s).pwr.rungTick = s.pwr.rungTick ∧ (forceNow s).pwr.wakePend =
    s.pwr.wakePend ∧ (forceNow s).pwr.retainRefused = s.pwr.retainRefused ∧ (forceNow s).pwr.wakeGpio =
    s.pwr.wakeGpio ∧ (forceNow s).pwr.tamperSince = s.pwr.tamperSince ∧ (forceNow s).pwr.tamperWake =
    s.pwr.tamperWake ∧ (forceNow s).pwr.retValid = s.pwr.retValid ∧ (forceNow s).pwr.retSecded = s.pwr.retSecded ∧
    (forceNow s).pwr.retMeas = s.pwr.retMeas ∧ (forceNow s).pwr.retIds = s.pwr.retIds ∧ (forceNow s).pwr.retSeq =
    s.pwr.retSeq := by
  intros; unfold forceNow; split <;> simp

@[simp ↓] theorem forceNow_pln : ∀ s, (forceNow s).pln.usable = s.pln.usable ∧ (forceNow s).pln.progs =
    s.pln.progs ∧ (forceNow s).pln.gradDv = s.pln.gradDv ∧ (forceNow s).pln.gradDt = s.pln.gradDt ∧ (forceNow
    s).pln.dtEpisode = s.pln.dtEpisode ∧ (forceNow s).pln.traps = s.pln.traps ∧ (forceNow s).pln.pinIpus =
    s.pln.pinIpus ∧ (forceNow s).pln.pinClusters = s.pln.pinClusters := by
  intros; unfold forceNow; split <;> simp

@[simp ↓] theorem forceNow_pmc : ∀ s, (forceNow s).pmc.on = s.pmc.on ∧ (forceNow s).pmc.chain = s.pmc.chain ∧
    (forceNow s).pmc.userEn = s.pmc.userEn ∧ (forceNow s).pmc.tagEn = s.pmc.tagEn ∧ (forceNow s).pmc.tagN =
    s.pmc.tagN ∧ (forceNow s).pmc.tagSeed = s.pmc.tagSeed ∧ (forceNow s).pmc.tags = s.pmc.tags ∧ (forceNow
    s).pmc.tagFull = s.pmc.tagFull ∧ (forceNow s).pmc.bw = s.pmc.bw := by
  intros; unfold forceNow; split <;> simp

@[simp ↓] theorem forceEnds_pwr : ∀ s, (forceEnds s).pwr.vinPresent = s.pwr.vinPresent ∧ (forceEnds
    s).pwr.supplyValid = s.pwr.supplyValid ∧ (forceEnds s).pwr.forceTherm = s.pwr.forceTherm ∧ (forceEnds
    s).pwr.forceVin = s.pwr.forceVin ∧ (forceEnds s).pwr.forceHoldup = s.pwr.forceHoldup ∧ (forceEnds
    s).pwr.onHoldup = s.pwr.onHoldup ∧ (forceEnds s).pwr.holdRdy = s.pwr.holdRdy ∧ (forceEnds s).pwr.capThrottle =
    s.pwr.capThrottle ∧ (forceEnds s).pwr.capCount = s.pwr.capCount ∧ (forceEnds s).pwr.capPeak = s.pwr.capPeak ∧
    (forceEnds s).pwr.sel = s.pwr.sel ∧ (forceEnds s).pwr.selApplied = s.pwr.selApplied ∧ (forceEnds s).pwr.vflashOn
    = s.pwr.vflashOn ∧ (forceEnds s).pwr.vflashFault = s.pwr.vflashFault ∧ (forceEnds s).pwr.vfRetry = s.pwr.vfRetry
    ∧ (forceEnds s).pwr.vfEn = s.pwr.vfEn ∧ (forceEnds s).pwr.keepDeep = s.pwr.keepDeep ∧ (forceEnds s).pwr.trips =
    s.pwr.trips ∧ (forceEnds s).pwr.batPresent = s.pwr.batPresent ∧ (forceEnds s).pwr.batLow = s.pwr.batLow ∧
    (forceEnds s).pwr.batLowLogged = s.pwr.batLowLogged ∧ (forceEnds s).pwr.rung = s.pwr.rung ∧ (forceEnds
    s).pwr.rungTarget = s.pwr.rungTarget ∧ (forceEnds s).pwr.rungResult = s.pwr.rungResult ∧ (forceEnds
    s).pwr.idleEn = s.pwr.idleEn ∧ (forceEnds s).pwr.dozeEn = s.pwr.dozeEn ∧ (forceEnds s).pwr.retainOnPg =
    s.pwr.retainOnPg ∧ (forceEnds s).pwr.fastEn = s.pwr.fastEn ∧ (forceEnds s).pwr.idleDwell = s.pwr.idleDwell ∧
    (forceEnds s).pwr.dozeDwell = s.pwr.dozeDwell ∧ (forceEnds s).pwr.wakeEn = s.pwr.wakeEn ∧ (forceEnds
    s).pwr.wakeCause = s.pwr.wakeCause ∧ (forceEnds s).pwr.fromRung = s.pwr.fromRung ∧ (forceEnds s).pwr.tjHigh =
    s.pwr.tjHigh ∧ (forceEnds s).pwr.hyst = s.pwr.hyst ∧ (forceEnds s).pwr.tj = s.pwr.tj ∧ (forceEnds s).pwr.vinMv =
    s.pwr.vinMv ∧ (forceEnds s).pwr.iinMa = s.pwr.iinMa ∧ (forceEnds s).pwr.vbatMv = s.pwr.vbatMv ∧ (forceEnds
    s).pwr.choldV = s.pwr.choldV ∧ (forceEnds s).pwr.pinMw = s.pwr.pinMw ∧ (forceEnds s).pwr.chgMa = s.pwr.chgMa ∧
    (forceEnds s).pwr.lastFast = s.pwr.lastFast ∧ (forceEnds s).pwr.fpReason = s.pwr.fpReason ∧ (forceEnds
    s).pwr.wakeTimer = s.pwr.wakeTimer ∧ (forceEnds s).pwr.lossTick = s.pwr.lossTick ∧ (forceEnds s).pwr.rungTick =
    s.pwr.rungTick ∧ (forceEnds s).pwr.wakePend = s.pwr.wakePend ∧ (forceEnds s).pwr.retainRefused =
    s.pwr.retainRefused ∧ (forceEnds s).pwr.wakeGpio = s.pwr.wakeGpio ∧ (forceEnds s).pwr.tamperSince =
    s.pwr.tamperSince ∧ (forceEnds s).pwr.tamperWake = s.pwr.tamperWake ∧ (forceEnds s).pwr.retValid =
    s.pwr.retValid ∧ (forceEnds s).pwr.retSecded = s.pwr.retSecded ∧ (forceEnds s).pwr.retMeas = s.pwr.retMeas ∧
    (forceEnds s).pwr.retIds = s.pwr.retIds ∧ (forceEnds s).pwr.retSeq = s.pwr.retSeq := by
  intros; unfold forceEnds; split <;> simp

@[simp ↓] theorem forceEnds_pln : ∀ s, (forceEnds s).pln.usable = s.pln.usable ∧ (forceEnds s).pln.progs =
    s.pln.progs ∧ (forceEnds s).pln.gradDv = s.pln.gradDv ∧ (forceEnds s).pln.gradDt = s.pln.gradDt ∧ (forceEnds
    s).pln.dtEpisode = s.pln.dtEpisode ∧ (forceEnds s).pln.traps = s.pln.traps ∧ (forceEnds s).pln.pinIpus =
    s.pln.pinIpus ∧ (forceEnds s).pln.pinClusters = s.pln.pinClusters := by
  intros; unfold forceEnds; split <;> simp

@[simp ↓] theorem forceEnds_pmc : ∀ s, (forceEnds s).pmc.on = s.pmc.on ∧ (forceEnds s).pmc.chain = s.pmc.chain ∧
    (forceEnds s).pmc.userEn = s.pmc.userEn ∧ (forceEnds s).pmc.tagEn = s.pmc.tagEn ∧ (forceEnds s).pmc.tagN =
    s.pmc.tagN ∧ (forceEnds s).pmc.tagSeed = s.pmc.tagSeed ∧ (forceEnds s).pmc.tags = s.pmc.tags ∧ (forceEnds
    s).pmc.tagFull = s.pmc.tagFull ∧ (forceEnds s).pmc.bw = s.pmc.bw := by
  intros; unfold forceEnds; split <;> simp

@[simp ↓] theorem linkPm_hlk : ∀ n s, (linkPm n s).hlk.speed = s.hlk.speed ∧ (linkPm n s).hlk.width =
    s.hlk.width ∧ (linkPm n s).hlk.reversed = s.hlk.reversed ∧ (linkPm n s).hlk.flit = s.hlk.flit ∧ (linkPm n
    s).hlk.numVf = s.hlk.numVf ∧ (linkPm n s).hlk.pmeWait = s.hlk.pmeWait ∧ (linkPm n s).hlk.aspm = s.hlk.aspm ∧
    (linkPm n s).hlk.ari = s.hlk.ari ∧ (linkPm n s).hlk.fns = s.hlk.fns ∧ (linkPm n s).hlk.ringBase = s.hlk.ringBase
    ∧ (linkPm n s).hlk.ringEn = s.hlk.ringEn ∧ (linkPm n s).hlk.ringMsix = s.hlk.ringMsix ∧ (linkPm n s).hlk.ringK =
    s.hlk.ringK ∧ (linkPm n s).hlk.holdoff = s.hlk.holdoff ∧ (linkPm n s).hlk.head = s.hlk.head ∧ (linkPm n
    s).hlk.tail = s.hlk.tail ∧ (linkPm n s).hlk.phase = s.hlk.phase ∧ (linkPm n s).hlk.msgs = s.hlk.msgs ∧ (linkPm n
    s).hlk.dropTotal = s.hlk.dropTotal ∧ (linkPm n s).hlk.dropSince = s.hlk.dropSince ∧ (linkPm n s).hlk.runFull =
    s.hlk.runFull ∧ (linkPm n s).hlk.runQueue = s.hlk.runQueue ∧ (linkPm n s).hlk.runFullSeen = s.hlk.runFullSeen ∧
    (linkPm n s).hlk.runQueueSeen = s.hlk.runQueueSeen ∧ (linkPm n s).hlk.runFullAge = s.hlk.runFullAge ∧ (linkPm n
    s).hlk.runQueueAge = s.hlk.runQueueAge ∧ (linkPm n s).hlk.holdoffOn = s.hlk.holdoffOn ∧ (linkPm n
    s).hlk.batchPosted = s.hlk.batchPosted ∧ (linkPm n s).hlk.holdoffOwed = s.hlk.holdoffOwed ∧ (linkPm n
    s).hlk.policy = s.hlk.policy ∧ (linkPm n s).hlk.ide = s.hlk.ide ∧ (linkPm n s).hlk.ideFails = s.hlk.ideFails ∧
    (linkPm n s).hlk.sessions = s.hlk.sessions ∧ (linkPm n s).hlk.shakes = s.hlk.shakes ∧ (linkPm n s).hlk.bar2 =
    s.hlk.bar2 := by
  intros; unfold linkPm; simp

@[simp ↓] theorem linkPm_pins : ∀ n s, (linkPm n s).pins.domRst = s.pins.domRst ∧ (linkPm n s).pins.domPg =
    s.pins.domPg ∧ (linkPm n s).pins.flPwr = s.pins.flPwr ∧ (linkPm n s).pins.fWp = s.pins.fWp ∧ (linkPm n
    s).pins.devRstLow = s.pins.devRstLow ∧ (linkPm n s).pins.perstLow = s.pins.perstLow ∧ (linkPm n s).pins.txIdle =
    s.pins.txIdle ∧ (linkPm n s).pins.wakeLow = s.pins.wakeLow ∧ (linkPm n s).pins.gpio = s.pins.gpio ∧ (linkPm n
    s).pins.gpioIn = s.pins.gpioIn ∧ (linkPm n s).pins.deepPd = s.pins.deepPd := by
  intros; unfold linkPm; simp

@[simp ↓] theorem leaveIdle_pwr : ∀ s, (leaveIdle s).pwr.vinPresent = s.pwr.vinPresent ∧ (leaveIdle
    s).pwr.supplyValid = s.pwr.supplyValid ∧ (leaveIdle s).pwr.forceTherm = s.pwr.forceTherm ∧ (leaveIdle
    s).pwr.forceVin = s.pwr.forceVin ∧ (leaveIdle s).pwr.forceHoldup = s.pwr.forceHoldup ∧ (leaveIdle
    s).pwr.onHoldup = s.pwr.onHoldup ∧ (leaveIdle s).pwr.holdRdy = s.pwr.holdRdy ∧ (leaveIdle s).pwr.capThrottle =
    s.pwr.capThrottle ∧ (leaveIdle s).pwr.capCount = s.pwr.capCount ∧ (leaveIdle s).pwr.capPeak = s.pwr.capPeak ∧
    (leaveIdle s).pwr.sel = s.pwr.sel ∧ (leaveIdle s).pwr.selApplied = s.pwr.selApplied ∧ (leaveIdle s).pwr.vflashOn
    = s.pwr.vflashOn ∧ (leaveIdle s).pwr.vflashFault = s.pwr.vflashFault ∧ (leaveIdle s).pwr.vfRetry = s.pwr.vfRetry
    ∧ (leaveIdle s).pwr.vfEn = s.pwr.vfEn ∧ (leaveIdle s).pwr.keepDeep = s.pwr.keepDeep ∧ (leaveIdle s).pwr.trips =
    s.pwr.trips ∧ (leaveIdle s).pwr.batPresent = s.pwr.batPresent ∧ (leaveIdle s).pwr.batLow = s.pwr.batLow ∧
    (leaveIdle s).pwr.batLowLogged = s.pwr.batLowLogged ∧ (leaveIdle s).pwr.rungTarget = s.pwr.rungTarget ∧
    (leaveIdle s).pwr.idleEn = s.pwr.idleEn ∧ (leaveIdle s).pwr.dozeEn = s.pwr.dozeEn ∧ (leaveIdle s).pwr.retainOnPg
    = s.pwr.retainOnPg ∧ (leaveIdle s).pwr.fastEn = s.pwr.fastEn ∧ (leaveIdle s).pwr.idleDwell = s.pwr.idleDwell ∧
    (leaveIdle s).pwr.dozeDwell = s.pwr.dozeDwell ∧ (leaveIdle s).pwr.wakeEn = s.pwr.wakeEn ∧ (leaveIdle
    s).pwr.wakeCause = s.pwr.wakeCause ∧ (leaveIdle s).pwr.fromRung = s.pwr.fromRung ∧ (leaveIdle s).pwr.tjHigh =
    s.pwr.tjHigh ∧ (leaveIdle s).pwr.hyst = s.pwr.hyst ∧ (leaveIdle s).pwr.tj = s.pwr.tj ∧ (leaveIdle s).pwr.vinMv =
    s.pwr.vinMv ∧ (leaveIdle s).pwr.iinMa = s.pwr.iinMa ∧ (leaveIdle s).pwr.vbatMv = s.pwr.vbatMv ∧ (leaveIdle
    s).pwr.choldV = s.pwr.choldV ∧ (leaveIdle s).pwr.pinMw = s.pwr.pinMw ∧ (leaveIdle s).pwr.chgMa = s.pwr.chgMa ∧
    (leaveIdle s).pwr.lastFast = s.pwr.lastFast ∧ (leaveIdle s).pwr.fpReason = s.pwr.fpReason ∧ (leaveIdle
    s).pwr.wakeTimer = s.pwr.wakeTimer ∧ (leaveIdle s).pwr.lossTick = s.pwr.lossTick ∧ (leaveIdle s).pwr.wakePend =
    s.pwr.wakePend ∧ (leaveIdle s).pwr.retainRefused = s.pwr.retainRefused ∧ (leaveIdle s).pwr.wakeGpio =
    s.pwr.wakeGpio ∧ (leaveIdle s).pwr.retValid = s.pwr.retValid ∧ (leaveIdle s).pwr.retSecded = s.pwr.retSecded ∧
    (leaveIdle s).pwr.retMeas = s.pwr.retMeas ∧ (leaveIdle s).pwr.retIds = s.pwr.retIds ∧ (leaveIdle s).pwr.retSeq =
    s.pwr.retSeq := by
  intros; unfold leaveIdle; dsimp only; (repeat' split) <;> simp

@[simp ↓] theorem leaveIdle_pins : ∀ s, (leaveIdle s).pins.domRst = s.pins.domRst ∧ (leaveIdle s).pins.domPg =
    s.pins.domPg ∧ (leaveIdle s).pins.flPwr = s.pins.flPwr ∧ (leaveIdle s).pins.fWp = s.pins.fWp ∧ (leaveIdle
    s).pins.devRstLow = s.pins.devRstLow ∧ (leaveIdle s).pins.perstLow = s.pins.perstLow ∧ (leaveIdle s).pins.txIdle
    = s.pins.txIdle ∧ (leaveIdle s).pins.wakeLow = s.pins.wakeLow ∧ (leaveIdle s).pins.gpio = s.pins.gpio ∧
    (leaveIdle s).pins.gpioIn = s.pins.gpioIn ∧ (leaveIdle s).pins.deepPd = s.pins.deepPd := by
  intros; unfold leaveIdle; dsimp only; (repeat' split) <;> simp

@[simp ↓] theorem leaveIdle_hlk : ∀ s, (leaveIdle s).hlk.speed = s.hlk.speed ∧ (leaveIdle s).hlk.width =
    s.hlk.width ∧ (leaveIdle s).hlk.reversed = s.hlk.reversed ∧ (leaveIdle s).hlk.flit = s.hlk.flit ∧ (leaveIdle
    s).hlk.numVf = s.hlk.numVf ∧ (leaveIdle s).hlk.pmeWait = s.hlk.pmeWait ∧ (leaveIdle s).hlk.aspm = s.hlk.aspm ∧
    (leaveIdle s).hlk.ari = s.hlk.ari ∧ (leaveIdle s).hlk.fns = s.hlk.fns ∧ (leaveIdle s).hlk.ringBase =
    s.hlk.ringBase ∧ (leaveIdle s).hlk.ringEn = s.hlk.ringEn ∧ (leaveIdle s).hlk.ringMsix = s.hlk.ringMsix ∧
    (leaveIdle s).hlk.ringK = s.hlk.ringK ∧ (leaveIdle s).hlk.holdoff = s.hlk.holdoff ∧ (leaveIdle s).hlk.head =
    s.hlk.head ∧ (leaveIdle s).hlk.tail = s.hlk.tail ∧ (leaveIdle s).hlk.phase = s.hlk.phase ∧ (leaveIdle
    s).hlk.runFullAge = s.hlk.runFullAge ∧ (leaveIdle s).hlk.runQueueAge = s.hlk.runQueueAge ∧ (leaveIdle
    s).hlk.holdoffOn = s.hlk.holdoffOn ∧ (leaveIdle s).hlk.batchPosted = s.hlk.batchPosted ∧ (leaveIdle
    s).hlk.holdoffOwed = s.hlk.holdoffOwed ∧ (leaveIdle s).hlk.policy = s.hlk.policy ∧ (leaveIdle s).hlk.ide =
    s.hlk.ide ∧ (leaveIdle s).hlk.ideFails = s.hlk.ideFails ∧ (leaveIdle s).hlk.sessions = s.hlk.sessions ∧
    (leaveIdle s).hlk.shakes = s.hlk.shakes ∧ (leaveIdle s).hlk.bar2 = s.hlk.bar2 := by
  intros; unfold leaveIdle; dsimp only; (repeat' split) <;> simp

@[simp ↓] theorem leaveIdle_evr : ∀ s, (leaveIdle s).evr.ph = s.evr.ph ∧ (leaveIdle s).evr.frozen = s.evr.frozen
    ∧ (leaveIdle s).evr.freezeTick = s.evr.freezeTick ∧ (leaveIdle s).evr.lossAge = s.evr.lossAge ∧ (leaveIdle
    s).evr.cursor = s.evr.cursor ∧ (leaveIdle s).evr.cursorSpill = s.evr.cursorSpill ∧ (leaveIdle s).evr.cursorAuto
    = s.evr.cursorAuto ∧ (leaveIdle s).evr.win = s.evr.win ∧ (leaveIdle s).evr.winReady = s.evr.winReady ∧
    (leaveIdle s).evr.winPresent = s.evr.winPresent ∧ (leaveIdle s).evr.cmdResult = s.evr.cmdResult ∧ (leaveIdle
    s).evr.spillHead = s.evr.spillHead ∧ (leaveIdle s).evr.spillGen = s.evr.spillGen ∧ (leaveIdle s).evr.spillOn =
    s.evr.spillOn ∧ (leaveIdle s).evr.spillFault = s.evr.spillFault ∧ (leaveIdle s).evr.calSet = s.evr.calSet ∧
    (leaveIdle s).evr.notifySev = s.evr.notifySev ∧ (leaveIdle s).evr.frameBase = s.evr.frameBase := by
  intros; unfold leaveIdle; dsimp only; (repeat' split) <;> simp

@[simp ↓] theorem leaveIdle_aon : ∀ s, (leaveIdle s).aon.batteryOnly = s.aon.batteryOnly ∧ (leaveIdle
    s).aon.batSince = s.aon.batSince ∧ (leaveIdle s).aon.calSecs = s.aon.calSecs ∧ (leaveIdle s).aon.calTick =
    s.aon.calTick ∧ (leaveIdle s).aon.calValid = s.aon.calValid ∧ (leaveIdle s).aon.coldCount = s.aon.coldCount ∧
    (leaveIdle s).aon.startRetry = s.aon.startRetry ∧ (leaveIdle s).aon.kek = s.aon.kek ∧ (leaveIdle s).aon.kekValid
    = s.aon.kekValid ∧ (leaveIdle s).aon.msgCtr = s.aon.msgCtr ∧ (leaveIdle s).aon.marker = s.aon.marker ∧
    (leaveIdle s).aon.pendHold = s.aon.pendHold ∧ (leaveIdle s).aon.latched = s.aon.latched ∧ (leaveIdle
    s).aon.domMask = s.aon.domMask ∧ (leaveIdle s).aon.lfsr = s.aon.lfsr ∧ (leaveIdle s).aon.seeded = s.aon.seeded ∧
    (leaveIdle s).aon.onCellResp = s.aon.onCellResp ∧ (leaveIdle s).aon.onCellHold = s.aon.onCellHold ∧ (leaveIdle
    s).aon.onCellPin = s.aon.onCellPin ∧ (leaveIdle s).aon.lost = s.aon.lost := by
  intros; unfold leaveIdle; dsimp only; (repeat' split) <;> simp

@[simp ↓] theorem leaveIdle_pmc : ∀ s, (leaveIdle s).pmc.on = s.pmc.on ∧ (leaveIdle s).pmc.chain = s.pmc.chain ∧
    (leaveIdle s).pmc.userEn = s.pmc.userEn ∧ (leaveIdle s).pmc.tagEn = s.pmc.tagEn ∧ (leaveIdle s).pmc.tagN =
    s.pmc.tagN ∧ (leaveIdle s).pmc.tagSeed = s.pmc.tagSeed ∧ (leaveIdle s).pmc.tags = s.pmc.tags ∧ (leaveIdle
    s).pmc.tagFull = s.pmc.tagFull ∧ (leaveIdle s).pmc.bw = s.pmc.bw := by
  intros; unfold leaveIdle; dsimp only; (repeat' split) <;> simp

@[simp ↓] theorem leaveIdle_out : ∀ s, (leaveIdle s).out.log = s.out.log ∧ (leaveIdle s).out.rng = s.out.rng :=
    by
  intros; unfold leaveIdle; dsimp only; (repeat' split) <;> simp

@[simp ↓] theorem leaveIdle_pln : ∀ s, (leaveIdle s).pln.usable = s.pln.usable ∧ (leaveIdle s).pln.progs =
    s.pln.progs ∧ (leaveIdle s).pln.gradDv = s.pln.gradDv ∧ (leaveIdle s).pln.gradDt = s.pln.gradDt ∧ (leaveIdle
    s).pln.dtEpisode = s.pln.dtEpisode ∧ (leaveIdle s).pln.traps = s.pln.traps ∧ (leaveIdle s).pln.pinIpus =
    s.pln.pinIpus ∧ (leaveIdle s).pln.pinClusters = s.pln.pinClusters := by
  intros; unfold leaveIdle; dsimp only; (repeat' split) <;> simp

end Sys2Proof.Machine
end

