-- ==== Sys2Proof/Laws/Flow.lean ====
section
/-! SUPPORT. What the operations of Machine/Flow.lean leave as it was: every block of the state they do not name, and the
queue. -/

namespace Sys2Proof.Machine

@[simp ↓] theorem callInstr_hide : ∀ gd off x2 x3 s m, 0x0#26 &&& ~~~m = 0#26 → hide m (callInstr gd off x2 x3 s).2 =
    hide m s := by
  intro gd off x2 x3 s m h; refine hide_le (k := 0x0#26) ?_ h; unfold callInstr; simp

@[simp ↓] theorem retInstr_hide : ∀ ga x1 x2 s m, 0x0#26 &&& ~~~m = 0#26 → hide m (retInstr ga x1 x2 s).2 = hide m s
    := by
  intro ga x1 x2 s m h; refine hide_le (k := 0x0#26) ?_ h; unfold retInstr; simp

@[simp ↓] theorem loopInstr_hide : ∀ gd n x2 x3 s m, 0x0#26 &&& ~~~m = 0#26 → hide m (loopInstr gd n x2 x3 s).2 = hide
    m s := by
  intro gd n x2 x3 s m h; refine hide_le (k := 0x0#26) ?_ h; unfold loopInstr; simp

@[simp ↓] theorem waitcInstr_hide : ∀ ga b x2 x3 s m, 0x0#26 &&& ~~~m = 0#26 → hide m (waitcInstr ga b x2 x3 s).2 =
    hide m s := by
  intro ga b x2 x3 s m h; refine hide_le (k := 0x0#26) ?_ h; unfold waitcInstr; simp

@[simp ↓] theorem wakeWaiters_hide : ∀ id b n s m, 0x1823d08#26 &&& ~~~m = 0#26 → hide m (wakeWaiters id b n s) = hide
    m s := by
  intro id b n s m h; refine hide_le (k := 0x1823d08#26) ?_ h; unfold wakeWaiters; simp

@[simp ↓] theorem signalInstr_hide : ∀ b x1 x2 s m, 0x1823d08#26 &&& ~~~m = 0#26 → hide m (signalInstr b x1 x2 s).2 =
    hide m s := by
  intro b x1 x2 s m h; refine hide_le (k := 0x1823d08#26) ?_ h; unfold signalInstr; (repeat' first | split | dsimp only) <;> simp

@[simp ↓] theorem mfsInstr_hide : ∀ gd n x2 x3 s m, 0x0#26 &&& ~~~m = 0#26 → hide m (mfsInstr gd n x2 x3 s).2 = hide m
    s := by
  intro gd n x2 x3 s m h; refine hide_le (k := 0x0#26) ?_ h; unfold mfsInstr; simp

@[simp ↓] theorem mtsInstr_hide : ∀ n ga x2 x3 s m, 0x0#26 &&& ~~~m = 0#26 → hide m (mtsInstr n ga x2 x3 s).2 = hide m
    s := by
  intro n ga x2 x3 s m h; refine hide_le (k := 0x0#26) ?_ h; unfold mtsInstr; simp

@[simp ↓] theorem dclInstr_hide : ∀ gd x1 x2 s m, 0x0#26 &&& ~~~m = 0#26 → hide m (dclInstr gd x1 x2 s).2 = hide m s
    := by
  intro gd x1 x2 s m h; refine hide_le (k := 0x0#26) ?_ h; unfold dclInstr; simp

@[simp ↓] theorem loadKey_hide : ∀ j slot s m, 0x1000#26 &&& ~~~m = 0#26 → hide m (loadKey j slot s).2 = hide m s :=
    by
  intro j slot s m h; refine hide_le (k := 0x1000#26) ?_ h; unfold loadKey; (repeat' first | split | dsimp only) <;> simp

@[simp ↓] theorem keyToAes_hide : ∀ e x j slot s m, 0x1823d08#26 &&& ~~~m = 0#26 → hide m (keyToAes e x j slot s) =
    hide m s := by
  intro e x j slot s m h; refine hide_le (k := 0x1823d08#26) ?_ h; unfold keyToAes
  (repeat' first | split | dsimp only) <;> ((try simp) <;> (repeat (refine hide_snd (by assumption) ?_; try simp)))

@[simp ↓] theorem keyldDone_hide : ∀ e s m, 0x1823d08#26 &&& ~~~m = 0#26 → hide m (keyldDone e s) = hide m s := by
  intro e s m h; refine hide_le (k := 0x1823d08#26) ?_ h; unfold keyldDone; (repeat' first | split | dsimp only) <;> simp

@[simp ↓] theorem undefinedWord_hide : ∀ e w s m, 0x1863d08#26 &&& ~~~m = 0#26 → hide m (undefinedWord e w s) = hide m
    s := by
  intro e w s m h; refine hide_le (k := 0x1863d08#26) ?_ h; unfold undefinedWord; simp

end Sys2Proof.Machine
end

