-- ==== Sys2Proof/Laws/Fuseop.lean ====
section
/-! SUPPORT. What the operations of Machine/Fuseop.lean leave as it was: every block of the state they do not name, and the
queue. -/

namespace Sys2Proof.Machine

@[simp ↓] theorem lockBlown_hide : ∀ a s m, 0x200#26 &&& ~~~m = 0#26 → hide m (lockBlown a s) = hide m s := by
  intro a s m h; refine hide_le (k := 0x200#26) ?_ h; unfold lockBlown; simp

@[simp ↓] theorem ctrFollow_hide : ∀ a s m, 0x200#26 &&& ~~~m = 0#26 → hide m (ctrFollow a s) = hide m s := by
  intro a s m h; refine hide_le (k := 0x200#26) ?_ h; unfold ctrFollow; (repeat' first | split | dsimp only) <;> simp

@[simp ↓] theorem startPulse_hide : ∀ p s m, 0x300#26 &&& ~~~m = 0#26 → hide m (startPulse p s) = hide m s := by
  intro p s m h; refine hide_le (k := 0x300#26) ?_ h; unfold startPulse; simp

@[simp ↓] theorem endFuse_hide : ∀ err s m, 0x200#26 &&& ~~~m = 0#26 → hide m (endFuse err s) = hide m s := by
  intro err s m h; refine hide_le (k := 0x200#26) ?_ h; unfold endFuse; simp

@[simp ↓] theorem trFinish_hide : ∀ p s m, 0x1802208#26 &&& ~~~m = 0#26 → hide m (trFinish p s) = hide m s := by
  intro p s m h; refine hide_le (k := 0x1802208#26) ?_ h; unfold trFinish; simp

@[simp ↓] theorem trTail_hide : ∀ p ws s m, 0x1802308#26 &&& ~~~m = 0#26 → hide m (trTail p ws s) = hide m s := by
  intro p ws s m h; refine hide_le (k := 0x1802308#26) ?_ h; unfold trTail; (repeat' first | split | dsimp only) <;> simp

@[simp ↓] theorem trStuck_hide : ∀ p s m, 0x1802209#26 &&& ~~~m = 0#26 → hide m (trStuck p s) = hide m s := by
  intro p s m h; refine hide_le (k := 0x1802209#26) ?_ h; unfold trStuck; simp

@[simp ↓] theorem trRoot_hide : ∀ p s m, 0x1842309#26 &&& ~~~m = 0#26 → hide m (trRoot p s) = hide m s := by
  intro p s m h; refine hide_le (k := 0x1842309#26) ?_ h; unfold trRoot; simp

@[simp ↓] theorem trHead_hide : ∀ p ws s m, 0x1842309#26 &&& ~~~m = 0#26 → hide m (trHead p ws s) = hide m s := by
  intro p ws s m h; refine hide_le (k := 0x1842309#26) ?_ h; unfold trHead; (repeat' first | split | dsimp only) <;> simp

@[simp ↓] theorem fuseDone_hide : ∀ p s m, 0x1802208#26 &&& ~~~m = 0#26 → hide m (fuseDone p s) = hide m s := by
  intro p s m h; refine hide_le (k := 0x1802208#26) ?_ h; unfold fuseDone; simp

@[simp ↓] theorem fuseNext_hide : ∀ p ws s m, 0x1802308#26 &&& ~~~m = 0#26 → hide m (fuseNext p ws s) = hide m s := by
  intro p ws s m h; refine hide_le (k := 0x1802308#26) ?_ h; unfold fuseNext; (repeat' first | split | dsimp only) <;> simp

@[simp ↓] theorem beginProg_hide : ∀ p ws s m, 0x1802708#26 &&& ~~~m = 0#26 → hide m (beginProg p ws s) = hide m s :=
    by
  intro p ws s m h; refine hide_le (k := 0x1802708#26) ?_ h; unfold beginProg; simp

@[simp ↓] theorem trAfter_hide : ∀ p ok s m, 0x1842309#26 &&& ~~~m = 0#26 → hide m (trAfter p ok s) = hide m s := by
  intro p ok s m h; refine hide_le (k := 0x1842309#26) ?_ h; unfold trAfter; simp

@[simp ↓] theorem pulseDone_hide : ∀ tight loose s m, 0x1842309#26 &&& ~~~m = 0#26 → hide m (pulseDone tight loose s)
    = hide m s := by
  intro tight loose s m h; refine hide_le (k := 0x1842309#26) ?_ h; unfold pulseDone; (repeat' first | split | dsimp only) <;> simp

end Sys2Proof.Machine
end

