-- ==== Sys2Proof/Laws/Fuses.lean ====
section
/-! SUPPORT. What the operations of Machine/Fuses.lean leave as it was: every block of the state they do not name, and the
queue. -/

namespace Sys2Proof.Machine

@[simp ↓] theorem fusRefuse_hide : ∀ op err s m, 0x1802208#26 &&& ~~~m = 0#26 → hide m (fusRefuse op err s) = hide m s
    := by
  intro op err s m h; refine hide_le (k := 0x1802208#26) ?_ h; unfold fusRefuse; simp

@[simp ↓] theorem fusRefuse_keeps : ∀ op err s, (fusRefuse op err s).glb = s.glb ∧ (fusRefuse op err s).pwr = s.pwr ∧
    (fusRefuse op err s).pins = s.pins ∧ (fusRefuse op err s).tbs = s.tbs ∧ (fusRefuse op err s).rst = s.rst ∧
    (fusRefuse op err s).boot = s.boot ∧ (fusRefuse op err s).nv = s.nv ∧ (fusRefuse op err s).out = s.out ∧
    (fusRefuse op err s).wsh = s.wsh ∧ (fusRefuse op err s).pln = s.pln ∧ (fusRefuse op err s).job = s.job ∧
    (fusRefuse op err s).sdl = s.sdl ∧ (fusRefuse op err s).prs = s.prs ∧ (fusRefuse op err s).ldg = s.ldg ∧
    (fusRefuse op err s).kvt = s.kvt ∧ (fusRefuse op err s).ent = s.ent ∧ (fusRefuse op err s).att = s.att ∧
    (fusRefuse op err s).tmp = s.tmp ∧ (fusRefuse op err s).wdg = s.wdg ∧ (fusRefuse op err s).chp = s.chp ∧
    (fusRefuse op err s).pending = s.pending := by
  intro op err s; have h := fusRefuse_hide op err s 0x1802208#26 rfl; exact ⟨hide_glb h rfl, hide_pwr h rfl, hide_pins h
    rfl, hide_tbs h rfl, hide_rst h rfl, hide_boot h rfl, hide_nv h rfl, hide_out h rfl, hide_wsh h rfl, hide_pln h
    rfl, hide_job h rfl, hide_sdl h rfl, hide_prs h rfl, hide_ldg h rfl, hide_kvt h rfl, hide_ent h rfl, hide_att h
    rfl, hide_tmp h rfl, hide_wdg h rfl, hide_chp h rfl, hide_pending h rfl⟩

@[simp ↓] theorem fusCmd_hide (a : Agent) (key : BitVec 16) (op : Nat) (f : State → State) (s : State) (m : BitVec 26)
    (hm : 0x1802b0f#26 &&& ~~~m = 0#26) (h : ∀ s, hide m (f s) = hide m s) : hide m (fusCmd a key op f s) = hide m s
    := by
  have t (k : BitVec 26) (hk : k &&& ~~~0x1802b0f#26 = 0#26) : k &&& ~~~m = 0#26 := sub_trans hk hm
  unfold fusCmd; refine access_hide _ _ _ _ _ (t _ rfl) fun s => ?_
  (repeat' first | split | dsimp only) <;> simp [h, t]

@[simp ↓] theorem fusProg_hide : ∀ a key op plan s m, 0x1802f0f#26 &&& ~~~m = 0#26 → hide m (fusProg a key op plan s)
    = hide m s := by
  intro a key op plan s m h; refine hide_le (k := 0x1802f0f#26) ?_ h; unfold fusProg
  exact fusCmd_hide _ _ _ _ _ _ rfl (by intro s; (repeat' first | split | dsimp only) <;> simp)

@[simp ↓] theorem fusReadWord_hide : ∀ s m, 0x1ffffff#26 &&& ~~~m = 0#26 → hide m (fusReadWord s) = hide m s := by
  intro s m h; refine hide_le (k := 0x1ffffff#26) ?_ h; unfold fusReadWord; (repeat' first | split | dsimp only) <;> simp

@[simp ↓] theorem trAuth_hide : ∀ t msg s m, 0x1822008#26 &&& ~~~m = 0#26 → hide m (trAuth t msg s).2 = hide m s := by
  intro t msg s m h; refine hide_le (k := 0x1822008#26) ?_ h; unfold trAuth; (repeat' first | split | dsimp only) <;> simp

@[simp ↓] theorem transitionCmd_hide : ∀ a target msg s m, 0x18e3709#26 &&& ~~~m = 0#26 → hide m (transitionCmd a
    target msg s) = hide m s := by
  intro a target msg s m h; refine hide_le (k := 0x18e3709#26) ?_ h; unfold transitionCmd
  (repeat' first | split | dsimp only) <;> ((try simp) <;> (repeat (refine hide_snd (by assumption) ?_; try simp)))

end Sys2Proof.Machine
end

