-- ==== Sys2Proof/Laws/Queues.lean ====
section
/-! SUPPORT. What the operations of Machine/Queues.lean leave as it was: every block of the state they do not name, and the
queue. -/

namespace Sys2Proof.Machine

@[simp ↓] theorem jobAccess_hide (a : Agent) (f : Fin 16) (off : Nat) (k : State → State) (s : State) (m : BitVec 26)
    (hm : 0x180290f#26 &&& ~~~m = 0#26) (h : ∀ s, hide m (k s) = hide m s) : hide m (jobAccess a f off k s) = hide m s
    := by
  have t (k : BitVec 26) (hk : k &&& ~~~0x180290f#26 = 0#26) : k &&& ~~~m = 0#26 := sub_trans hk hm
  unfold jobAccess; (repeat' first | split | dsimp only) <;> simp [h, t]

@[simp ↓] theorem setupIgnored_hide : ∀ f off v s m, 0x1802008#26 &&& ~~~m = 0#26 → hide m (setupIgnored f off v s) =
    hide m s := by
  intro f off v s m h; refine hide_le (k := 0x1802008#26) ?_ h; unfold setupIgnored; simp

@[simp ↓] theorem abortQueue_hide : ∀ f q s m, 0x1823d08#26 &&& ~~~m = 0#26 → hide m (abortQueue f q s) = hide m s :=
    by
  intro f q s m h; refine hide_le (k := 0x1823d08#26) ?_ h; unfold abortQueue; simp

@[simp ↓] theorem qCtrlWrite_hide : ∀ f q v s m, 0x1823d08#26 &&& ~~~m = 0#26 → hide m (qCtrlWrite f q v s) = hide m s
    := by
  intro f q v s m h; refine hide_le (k := 0x1823d08#26) ?_ h; unfold qCtrlWrite; simp

@[simp ↓] theorem doQueueEnable_hide : ∀ a f q v s m, 0x1823d0f#26 &&& ~~~m = 0#26 → hide m (doQueueEnable a f q v s)
    = hide m s := by
  intro a f q v s m h; refine hide_le (k := 0x1823d0f#26) ?_ h; unfold doQueueEnable; simp

@[simp ↓] theorem doQueueDisable_hide : ∀ a f q s m, 0x1823d0f#26 &&& ~~~m = 0#26 → hide m (doQueueDisable a f q s) =
    hide m s := by
  intro a f q s m h; refine hide_le (k := 0x1823d0f#26) ?_ h; unfold doQueueDisable; simp

@[simp ↓] theorem doQueueAbort_hide : ∀ a f q s m, 0x1823d0f#26 &&& ~~~m = 0#26 → hide m (doQueueAbort a f q s) = hide
    m s := by
  intro a f q s m h; refine hide_le (k := 0x1823d0f#26) ?_ h; unfold doQueueAbort; simp

@[simp ↓] theorem doorbell_hide (f : Fin 16) (q : Fin 64) (o : Nat) (k : State → State) (s : State) (m : BitVec 26)
    (hm : 0x180290f#26 &&& ~~~m = 0#26) (h : ∀ s, hide m (k s) = hide m s) : hide m (doorbell f q o k s) = hide m s :=
    by
  have t (k : BitVec 26) (hk : k &&& ~~~0x180290f#26 = 0#26) : k &&& ~~~m = 0#26 := sub_trans hk hm
  unfold doorbell; exact accessBar_hide _ _ _ _ _ _ (t _ rfl) fun s => by simp [h, t]

@[simp ↓] theorem doorbellIgnored_hide : ∀ f q cq v s m, 0x1802008#26 &&& ~~~m = 0#26 → hide m (doorbellIgnored f q cq
    v s) = hide m s := by
  intro f q cq v s m h; refine hide_le (k := 0x1802008#26) ?_ h; unfold doorbellIgnored; simp

@[simp ↓] theorem doSqTailDoorbell_hide : ∀ f q v s m, 0x180390f#26 &&& ~~~m = 0#26 → hide m (doSqTailDoorbell f q v
    s) = hide m s := by
  intro f q v s m h; refine hide_le (k := 0x180390f#26) ?_ h; unfold doSqTailDoorbell; simp

@[simp ↓] theorem doCqHeadDoorbell_hide : ∀ f q v s m, 0x180390f#26 &&& ~~~m = 0#26 → hide m (doCqHeadDoorbell f q v
    s) = hide m s := by
  intro f q v s m h; refine hide_le (k := 0x180390f#26) ?_ h; unfold doCqHeadDoorbell; simp

@[simp ↓] theorem admitDesc_hide : ∀ f q d s m, 0x1823d08#26 &&& ~~~m = 0#26 → hide m (admitDesc f q d s) = hide m s
    := by
  intro f q d s m h; refine hide_le (k := 0x1823d08#26) ?_ h; unfold admitDesc; (repeat' first | split | dsimp only) <;> simp

@[simp ↓] theorem doDescriptorReadFailure_hide : ∀ f q s m, 0x1803008#26 &&& ~~~m = 0#26 → hide m
    (doDescriptorReadFailure f q s) = hide m s := by
  intro f q s m h; refine hide_le (k := 0x1803008#26) ?_ h; unfold doDescriptorReadFailure; simp

@[simp ↓] theorem doCoalescingTimer_hide : ∀ f q s m, 0x1003100#26 &&& ~~~m = 0#26 → hide m (doCoalescingTimer f q s)
    = hide m s := by
  intro f q s m h; refine hide_le (k := 0x1003100#26) ?_ h; unfold doCoalescingTimer; simp

@[simp ↓] theorem doJobTimeout_hide : ∀ id s m, 0x1823d08#26 &&& ~~~m = 0#26 → hide m (doJobTimeout id s) = hide m s
    := by
  intro id s m h; refine hide_le (k := 0x1823d08#26) ?_ h; unfold doJobTimeout; (repeat' first | split | dsimp only) <;> simp

@[simp ↓] theorem doDmaError_hide : ∀ id which s m, 0x1823d08#26 &&& ~~~m = 0#26 → hide m (doDmaError id which s) =
    hide m s := by
  intro id which s m h; refine hide_le (k := 0x1823d08#26) ?_ h; unfold doDmaError; (repeat' first | split | dsimp only) <;> simp

end Sys2Proof.Machine
end

