-- ==== Sys2Proof/Laws/Recop.lean ====
section
/-! SUPPORT. What the operations of Machine/Recop.lean leave as it was: every block of the state they do not name, and the
queue. -/

namespace Sys2Proof.Machine

@[simp ↓] theorem spillPut_hide : ∀ p r s m, 0x80#26 &&& ~~~m = 0#26 → hide m (spillPut p r s) = hide m s := by
  intro p r s m h; refine hide_le (k := 0x80#26) ?_ h; unfold spillPut; simp

@[simp ↓] theorem spillErase_hide : ∀ k s m, 0x80#26 &&& ~~~m = 0#26 → hide m (spillErase k s) = hide m s := by
  intro k s m h; refine hide_le (k := 0x80#26) ?_ h; unfold spillErase; simp

@[simp ↓] theorem openSector_hide : ∀ k s m, 0x1802088#26 &&& ~~~m = 0#26 → hide m (openSector k s) = hide m s := by
  intro k s m h; refine hide_le (k := 0x1802088#26) ?_ h; unfold openSector; simp

@[simp ↓] theorem markSpilled_hide : ∀ ns s m, 0x800000#26 &&& ~~~m = 0#26 → hide m (markSpilled ns s) = hide m s :=
    by
  intro ns s m h; refine hide_le (k := 0x800000#26) ?_ h; unfold markSpilled; simp

@[simp ↓] theorem spillRoom_hide : ∀ s m, 0x1802088#26 &&& ~~~m = 0#26 → hide m (spillRoom s) = hide m s := by
  intro s m h; refine hide_le (k := 0x1802088#26) ?_ h; unfold spillRoom; simp

@[simp ↓] theorem spillOne_hide : ∀ r s m, 0x1802088#26 &&& ~~~m = 0#26 → hide m (spillOne r s) = hide m s := by
  intro r s m h; refine hide_le (k := 0x1802088#26) ?_ h; unfold spillOne; simp

@[simp ↓] theorem spillBatch_hide : ∀ rs s m, 0x1802088#26 &&& ~~~m = 0#26 → hide m (spillBatch rs s) = hide m s := by
  intro rs s m h; refine hide_le (k := 0x1802088#26) ?_ h; unfold spillBatch; simp

@[simp ↓] theorem spillFlush_hide : ∀ bad s m, 0x1802088#26 &&& ~~~m = 0#26 → hide m (spillFlush bad s) = hide m s :=
    by
  intro bad s m h; refine hide_le (k := 0x1802088#26) ?_ h; unfold spillFlush; (repeat' first | split | dsimp only) <;> simp

@[simp ↓] theorem spillScan_hide : ∀ s m, 0x1802088#26 &&& ~~~m = 0#26 → hide m (spillScan s) = hide m s := by
  intro s m h; refine hide_le (k := 0x1802088#26) ?_ h; unfold spillScan; (repeat' first | split | dsimp only) <;> simp

@[simp ↓] theorem recorderOff_hide : ∀ s m, 0x1802088#26 &&& ~~~m = 0#26 → hide m (recorderOff s) = hide m s := by
  intro s m h; refine hide_le (k := 0x1802088#26) ?_ h; unfold recorderOff; simp

@[simp ↓] theorem loadWindow_hide : ∀ s m, 0x800000#26 &&& ~~~m = 0#26 → hide m (loadWindow s) = hide m s := by
  intro s m h; refine hide_le (k := 0x800000#26) ?_ h; unfold loadWindow; simp

end Sys2Proof.Machine
end

