-- ==== Sys2Proof/Laws/Rungs.lean ====
section
/-! SUPPORT. What the operations of Machine/Rungs.lean leave as it was: every block of the state they do not name, and the
queue. -/

namespace Sys2Proof.Machine

@[simp ↓] theorem linkTo_hide : ∀ target s m, 0x2004#26 &&& ~~~m = 0#26 → hide m (linkTo target s) = hide m s := by
  intro target s m h; refine hide_le (k := 0x2004#26) ?_ h; unfold linkTo; simp

@[simp ↓] theorem enterIdle_hide : ∀ doze s m, 0x180290e#26 &&& ~~~m = 0#26 → hide m (enterIdle doze s) = hide m s :=
    by
  intro doze s m h; refine hide_le (k := 0x180290e#26) ?_ h; unfold enterIdle; simp

@[simp ↓] theorem doAutoIdleEntry_hide : ∀ s m, 0x180290e#26 &&& ~~~m = 0#26 → hide m (doAutoIdleEntry s) = hide m s
    := by
  intro s m h; refine hide_le (k := 0x180290e#26) ?_ h; unfold doAutoIdleEntry; simp

@[simp ↓] theorem doAutoDozeEntry_hide : ∀ s m, 0x180290e#26 &&& ~~~m = 0#26 → hide m (doAutoDozeEntry s) = hide m s
    := by
  intro s m h; refine hide_le (k := 0x180290e#26) ?_ h; unfold doAutoDozeEntry; simp

@[simp ↓] theorem reqIdle_hide : ∀ t s m, 0x2#26 &&& ~~~m = 0#26 → hide m (reqIdle t s) = hide m s := by
  intro t s m h; refine hide_le (k := 0x2#26) ?_ h; unfold reqIdle; simp

@[simp ↓] theorem doRungReqIdle_hide : ∀ a s m, 0x180290f#26 &&& ~~~m = 0#26 → hide m (doRungReqIdle a s) = hide m s
    := by
  intro a s m h; refine hide_le (k := 0x180290f#26) ?_ h; unfold doRungReqIdle; simp

@[simp ↓] theorem doRungReqDoze_hide : ∀ a s m, 0x180290f#26 &&& ~~~m = 0#26 → hide m (doRungReqDoze a s) = hide m s
    := by
  intro a s m h; refine hide_le (k := 0x180290f#26) ?_ h; unfold doRungReqDoze; simp

@[simp ↓] theorem doLowRungEntry_hide : ∀ s m, 0x180290e#26 &&& ~~~m = 0#26 → hide m (doLowRungEntry s) = hide m s :=
    by
  intro s m h; refine hide_le (k := 0x180290e#26) ?_ h; unfold doLowRungEntry; simp

@[simp ↓] theorem refuseRung_hide : ∀ t s m, 0x180210a#26 &&& ~~~m = 0#26 → hide m (refuseRung t s) = hide m s := by
  intro t s m h; refine hide_le (k := 0x180210a#26) ?_ h; unfold refuseRung; simp

@[simp ↓] theorem doRungReqTimeout_hide : ∀ s m, 0x180210a#26 &&& ~~~m = 0#26 → hide m (doRungReqTimeout s) = hide m s
    := by
  intro s m h; refine hide_le (k := 0x180210a#26) ?_ h; unfold doRungReqTimeout; simp

@[simp ↓] theorem rungHolds_hide : ∀ s m, 0x1a1e18c#26 &&& ~~~m = 0#26 → hide m (rungHolds s) = hide m s := by
  intro s m h; refine hide_le (k := 0x1a1e18c#26) ?_ h; unfold rungHolds; simp

@[simp ↓] theorem retain_hide : ∀ ids s m, 0x2#26 &&& ~~~m = 0#26 → hide m (retain ids s) = hide m s := by
  intro ids s m h; refine hide_le (k := 0x2#26) ?_ h; unfold retain; simp

@[simp ↓] theorem gateRails_hide : ∀ r s m, 0x1a0690e#26 &&& ~~~m = 0#26 → hide m (gateRails r s) = hide m s := by
  intro r s m h; refine hide_le (k := 0x1a0690e#26) ?_ h; unfold gateRails; simp

@[simp ↓] theorem flashWake_hide : ∀ s m, 0x180e00e#26 &&& ~~~m = 0#26 → hide m (flashWake s) = hide m s := by
  intro s m h; refine hide_le (k := 0x180e00e#26) ?_ h; unfold flashWake; simp

@[simp ↓] theorem uncheck_hide : ∀ s m, 0x10000#26 &&& ~~~m = 0#26 → hide m (uncheck s) = hide m s := by
  intro s m h; refine hide_le (k := 0x10000#26) ?_ h; unfold uncheck; simp

@[simp ↓] theorem wakePlatform_hide : ∀ reason s m, 0x1e9e58e#26 &&& ~~~m = 0#26 → hide m (wakePlatform reason s) =
    hide m s := by
  intro reason s m h; refine hide_le (k := 0x1e9e58e#26) ?_ h; unfold wakePlatform; simp

@[simp ↓] theorem deepWake_hide : ∀ s m, 0x1ae2108#26 &&& ~~~m = 0#26 → hide m (deepWake s) = hide m s := by
  intro s m h; refine hide_le (k := 0x1ae2108#26) ?_ h; unfold deepWake; simp

@[simp ↓] theorem wakeUp_hide : ∀ cause w s m, 0x1efedce#26 &&& ~~~m = 0#26 → hide m (wakeUp cause w s) = hide m s :=
    by
  intro cause w s m h; refine hide_le (k := 0x1efedce#26) ?_ h; unfold wakeUp; simp

@[simp ↓] theorem finishEntry_hide : ∀ r s m, 0x1efedce#26 &&& ~~~m = 0#26 → hide m (finishEntry r s) = hide m s := by
  intro r s m h; refine hide_le (k := 0x1efedce#26) ?_ h; unfold finishEntry; (repeat' first | split | dsimp only) <;> simp

@[simp ↓] theorem enterLow_hide : ∀ r s m, 0x1effdce#26 &&& ~~~m = 0#26 → hide m (enterLow r s) = hide m s := by
  intro r s m h; refine hide_le (k := 0x1effdce#26) ?_ h; unfold enterLow; simp

@[simp ↓] theorem reqLow_hide : ∀ r s m, 0x1effdce#26 &&& ~~~m = 0#26 → hide m (reqLow r s) = hide m s := by
  intro r s m h; refine hide_le (k := 0x1effdce#26) ?_ h; unfold reqLow; simp

@[simp ↓] theorem doRungReqNap_hide : ∀ a s m, 0x1effdcf#26 &&& ~~~m = 0#26 → hide m (doRungReqNap a s) = hide m s :=
    by
  intro a s m h; refine hide_le (k := 0x1effdcf#26) ?_ h; unfold doRungReqNap; simp

@[simp ↓] theorem doRungReqRest_hide : ∀ a s m, 0x1effdcf#26 &&& ~~~m = 0#26 → hide m (doRungReqRest a s) = hide m s
    := by
  intro a s m h; refine hide_le (k := 0x1effdcf#26) ?_ h; unfold doRungReqRest; simp

@[simp ↓] theorem doRungReqRetain_hide : ∀ a s m, 0x1effdcf#26 &&& ~~~m = 0#26 → hide m (doRungReqRetain a s) = hide m
    s := by
  intro a s m h; refine hide_le (k := 0x1effdcf#26) ?_ h; unfold doRungReqRetain; simp

@[simp ↓] theorem wakeEvent_hide : ∀ cause w s m, 0x1efedce#26 &&& ~~~m = 0#26 → hide m (wakeEvent cause w s) = hide m
    s := by
  intro cause w s m h; refine hide_le (k := 0x1efedce#26) ?_ h; unfold wakeEvent; simp

@[simp ↓] theorem doWakeTimerExpiry_hide : ∀ w s m, 0x1efedce#26 &&& ~~~m = 0#26 → hide m (doWakeTimerExpiry w s) =
    hide m s := by
  intro w s m h; refine hide_le (k := 0x1efedce#26) ?_ h; unfold doWakeTimerExpiry; simp

@[simp ↓] theorem doRetainOnPgEntry_hide : ∀ s m, 0x1effdce#26 &&& ~~~m = 0#26 → hide m (doRetainOnPgEntry s) = hide m
    s := by
  intro s m h; refine hide_le (k := 0x1effdce#26) ?_ h; unfold doRetainOnPgEntry; simp

end Sys2Proof.Machine
end

