-- ==== Sys2Proof/Laws/HostLink.lean ====
section
/-! SUPPORT. What the operations of Machine/HostLink.lean leave as it was: every block of the state they do not name, and the
queue. -/

namespace Sys2Proof.Machine

@[simp ↓] theorem discardJobs_hide : ∀ sel s m, 0x1823d08#26 &&& ~~~m = 0#26 → hide m (discardJobs sel s) = hide m s
    := by
  intro sel s m h; refine hide_le (k := 0x1823d08#26) ?_ h; unfold discardJobs; simp

@[simp ↓] theorem resetFns_hide : ∀ sel s m, 0x1823d08#26 &&& ~~~m = 0#26 → hide m (resetFns sel s) = hide m s := by
  intro sel s m h; refine hide_le (k := 0x1823d08#26) ?_ h; unfold resetFns; simp

@[simp ↓] theorem endIde_hide : ∀ s m, 0x1823108#26 &&& ~~~m = 0#26 → hide m (endIde s) = hide m s := by
  intro s m h; refine hide_le (k := 0x1823108#26) ?_ h; unfold endIde; simp

@[simp ↓] theorem resetAll_hide : ∀ cause s m, 0x1823d08#26 &&& ~~~m = 0#26 → hide m (resetAll cause s) = hide m s :=
    by
  intro cause s m h; refine hide_le (k := 0x1823d08#26) ?_ h; unfold resetAll; simp

@[simp ↓] theorem linkFalls_hide : ∀ s m, 0x2004#26 &&& ~~~m = 0#26 → hide m (linkFalls s) = hide m s := by
  intro s m h; refine hide_le (k := 0x2004#26) ?_ h; unfold linkFalls; simp

@[simp ↓] theorem entryGoesOn_hide : ∀ s m, 0x1efedce#26 &&& ~~~m = 0#26 → hide m (entryGoesOn s) = hide m s := by
  intro s m h; refine hide_le (k := 0x1efedce#26) ?_ h; unfold entryGoesOn; (repeat' first | split | dsimp only) <;> simp

@[simp ↓] theorem doUnservedBarAccess_hide : ∀ a bar off write s m, 0x180290f#26 &&& ~~~m = 0#26 → hide m
    (doUnservedBarAccess a bar off write s) = hide m s := by
  intro a bar off write s m h; refine hide_le (k := 0x180290f#26) ?_ h; unfold doUnservedBarAccess; simp

@[simp ↓] theorem doLinkUp_hide : ∀ width reversed flit s m, 0x180200c#26 &&& ~~~m = 0#26 → hide m (doLinkUp width
    reversed flit s) = hide m s := by
  intro width reversed flit s m h; refine hide_le (k := 0x180200c#26) ?_ h; unfold doLinkUp; simp

@[simp ↓] theorem doLinkDown_hide : ∀ ltssm s m, 0x1effdce#26 &&& ~~~m = 0#26 → hide m (doLinkDown ltssm s) = hide m s
    := by
  intro ltssm s m h; refine hide_le (k := 0x1effdce#26) ?_ h; unfold doLinkDown; simp

@[simp ↓] theorem doHotReset_hide : ∀ s m, 0x1823d08#26 &&& ~~~m = 0#26 → hide m (doHotReset s) = hide m s := by
  intro s m h; refine hide_le (k := 0x1823d08#26) ?_ h; unfold doHotReset; simp

@[simp ↓] theorem doPerstAssert_hide : ∀ s m, 0x1effdce#26 &&& ~~~m = 0#26 → hide m (doPerstAssert s) = hide m s := by
  intro s m h; refine hide_le (k := 0x1effdce#26) ?_ h; unfold doPerstAssert; simp

@[simp ↓] theorem doPerstRelease_hide : ∀ s m, 0x4#26 &&& ~~~m = 0#26 → hide m (doPerstRelease s) = hide m s := by
  intro s m h; refine hide_le (k := 0x4#26) ?_ h; unfold doPerstRelease; simp

@[simp ↓] theorem doFunctionLevelReset_hide : ∀ f s m, 0x1823d08#26 &&& ~~~m = 0#26 → hide m (doFunctionLevelReset f
    s) = hide m s := by
  intro f s m h; refine hide_le (k := 0x1823d08#26) ?_ h; unfold doFunctionLevelReset; simp

@[simp ↓] theorem vfsOff_hide : ∀ s m, 0x1823d08#26 &&& ~~~m = 0#26 → hide m (vfsOff s) = hide m s := by
  intro s m h; refine hide_le (k := 0x1823d08#26) ?_ h; unfold vfsOff; simp

@[simp ↓] theorem doVfEnableWrite_hide : ∀ en numVf s m, 0x1823d08#26 &&& ~~~m = 0#26 → hide m (doVfEnableWrite en
    numVf s) = hide m s := by
  intro en numVf s m h; refine hide_le (k := 0x1823d08#26) ?_ h; unfold doVfEnableWrite; simp

@[simp ↓] theorem holdsEnd_hide : ∀ was s m, 0x1803d08#26 &&& ~~~m = 0#26 → hide m (holdsEnd was s) = hide m s := by
  intro was s m h; refine hide_le (k := 0x1803d08#26) ?_ h; unfold holdsEnd; simp

@[simp ↓] theorem doFunctionReturnD0_hide : ∀ f s m, 0x1803d08#26 &&& ~~~m = 0#26 → hide m (doFunctionReturnD0 f s) =
    hide m s := by
  intro f s m h; refine hide_le (k := 0x1803d08#26) ?_ h; unfold doFunctionReturnD0; simp

@[simp ↓] theorem doAtomicOp_hide : ∀ f s m, 0x180290e#26 &&& ~~~m = 0#26 → hide m (doAtomicOp f s) = hide m s := by
  intro f s m h; refine hide_le (k := 0x180290e#26) ?_ h; unfold doAtomicOp; simp

@[simp ↓] theorem doPmeTurnOff_hide : ∀ s m, 0x1efedce#26 &&& ~~~m = 0#26 → hide m (doPmeTurnOff s) = hide m s := by
  intro s m h; refine hide_le (k := 0x1efedce#26) ?_ h; unfold doPmeTurnOff; (repeat' first | split | dsimp only) <;> simp

@[simp ↓] theorem doPmeTimeout_hide : ∀ s m, 0x1effdce#26 &&& ~~~m = 0#26 → hide m (doPmeTimeout s) = hide m s := by
  intro s m h; refine hide_le (k := 0x1effdce#26) ?_ h; unfold doPmeTimeout
  (repeat' first | split | dsimp only) <;> ((try simp) <;> (repeat (refine hide_snd (by assumption) ?_; try simp)))

@[simp ↓] theorem doConfigurationWrite_hide : ∀ f w s m, 0x1803d0c#26 &&& ~~~m = 0#26 → hide m (doConfigurationWrite f
    w s) = hide m s := by
  intro f w s m h; refine hide_le (k := 0x1803d0c#26) ?_ h; unfold doConfigurationWrite; (repeat' first | split | dsimp only) <;> simp

@[simp ↓] theorem doLinkSpeedChange_hide : ∀ speed width s m, 0x1802108#26 &&& ~~~m = 0#26 → hide m (doLinkSpeedChange
    speed width s) = hide m s := by
  intro speed width s m h; refine hide_le (k := 0x1802108#26) ?_ h; unfold doLinkSpeedChange; simp

end Sys2Proof.Machine
end

