-- ==== Sys2Proof/Laws/Ide.lean ====
section
/-! SUPPORT. What the operations of Machine/Ide.lean leave as it was: every block of the state they do not name, and the
queue. -/

namespace Sys2Proof.Machine

@[simp ↓] theorem doIdeIntegrityFailure_hide : ∀ st s m, 0x1802008#26 &&& ~~~m = 0#26 → hide m (doIdeIntegrityFailure
    st s) = hide m s := by
  intro st s m h; refine hide_le (k := 0x1802008#26) ?_ h; unfold doIdeIntegrityFailure; simp

@[simp ↓] theorem doIdePolicyRefusal_hide : ∀ f bar off posted s m, 0x180290e#26 &&& ~~~m = 0#26 → hide m
    (doIdePolicyRefusal f bar off posted s) = hide m s := by
  intro f bar off posted s m h; refine hide_le (k := 0x180290e#26) ?_ h; unfold doIdePolicyRefusal; simp

@[simp ↓] theorem ideDrop_hide : ∀ st kid s m, 0x1823108#26 &&& ~~~m = 0#26 → hide m (ideDrop st kid s) = hide m s :=
    by
  intro st kid s m h; refine hide_le (k := 0x1823108#26) ?_ h; unfold ideDrop; (repeat' first | split | dsimp only) <;> simp

@[simp ↓] theorem doIdeKmKeyProg_hide : ∀ st kid key s m, 0x1863108#26 &&& ~~~m = 0#26 → hide m (doIdeKmKeyProg st kid
    key s) = hide m s := by
  intro st kid key s m h; refine hide_le (k := 0x1863108#26) ?_ h; unfold doIdeKmKeyProg; (repeat' first | split | dsimp only) <;> simp

@[simp ↓] theorem doIdeKmKeySetStop_hide : ∀ st kid s m, 0x1823108#26 &&& ~~~m = 0#26 → hide m (doIdeKmKeySetStop st
    kid s) = hide m s := by
  intro st kid s m h; refine hide_le (k := 0x1823108#26) ?_ h; unfold doIdeKmKeySetStop; simp

@[simp ↓] theorem doIdeKmKeySetGo_hide : ∀ st set s m, 0x1802008#26 &&& ~~~m = 0#26 → hide m (doIdeKmKeySetGo st set
    s) = hide m s := by
  intro st set s m h; refine hide_le (k := 0x1802008#26) ?_ h; unfold doIdeKmKeySetGo; simp

@[simp ↓] theorem doSpdmGetMeasurements_hide : ∀ index s m, 0x100#26 &&& ~~~m = 0#26 → hide m (doSpdmGetMeasurements
    index s) = hide m s := by
  intro index s m h; refine hide_le (k := 0x100#26) ?_ h; unfold doSpdmGetMeasurements; simp

@[simp ↓] theorem doSpdmSetCertificate_hide : ∀ s m, 0x100#26 &&& ~~~m = 0#26 → hide m (doSpdmSetCertificate s) = hide
    m s := by
  intro s m h; refine hide_le (k := 0x100#26) ?_ h; unfold doSpdmSetCertificate; simp

@[simp ↓] theorem doDoeAbort_hide : ∀ s m, 0x1802108#26 &&& ~~~m = 0#26 → hide m (doDoeAbort s) = hide m s := by
  intro s m h; refine hide_le (k := 0x1802108#26) ?_ h; unfold doDoeAbort; simp

@[simp ↓] theorem inSession_hide (session : BitVec 32) (k : State → State) (s : State) (m : BitVec 26) (hm : 0x100#26
    &&& ~~~m = 0#26) (h : ∀ s, hide m (k s) = hide m s) : hide m (inSession session k s) = hide m s := by
  have t (k : BitVec 26) (hk : k &&& ~~~0x100#26 = 0#26) : k &&& ~~~m = 0#26 := sub_trans hk hm
  unfold inSession; (repeat' first | split | dsimp only) <;> simp [h, t]

@[simp ↓] theorem doSpdmRequest_hide : ∀ k session s m, 0x1802108#26 &&& ~~~m = 0#26 → hide m (doSpdmRequest k session
    s) = hide m s := by
  intro k session s m h; refine hide_le (k := 0x1802108#26) ?_ h; unfold doSpdmRequest; (repeat' first | split | dsimp only) <;> simp

end Sys2Proof.Machine
end

