-- ==== Sys2Proof/Laws/Ledger.lean ====
section
/-! SUPPORT. What the operations of Machine/Ledger.lean leave as it was: every block of the state they do not name, and the
queue. -/

namespace Sys2Proof.Machine

@[simp ↓] theorem doLedgerAppend_hide : ∀ r bad s m, 0x1812088#26 &&& ~~~m = 0#26 → hide m (doLedgerAppend r bad s) =
    hide m s := by
  intro r bad s m h; refine hide_le (k := 0x1812088#26) ?_ h; unfold doLedgerAppend; simp

@[simp ↓] theorem adoptReq_hide : ∀ o b f s m, 0x1812088#26 &&& ~~~m = 0#26 → hide m (adoptReq o b f s).2.2 = hide m s
    := by
  intro o b f s m h; refine hide_le (k := 0x1812088#26) ?_ h; unfold adoptReq; simp

@[simp ↓] theorem doAdopt_hide : ∀ a key o slotB f s m, 0x181298f#26 &&& ~~~m = 0#26 → hide m (doAdopt a key o slotB f
    s) = hide m s := by
  intro a key o slotB f s m h; refine hide_le (k := 0x181298f#26) ?_ h; unfold doAdopt; simp

@[simp ↓] theorem doCompact_hide : ∀ a key s m, 0x181298f#26 &&& ~~~m = 0#26 → hide m (doCompact a key s) = hide m s
    := by
  intro a key s m h; refine hide_le (k := 0x181298f#26) ?_ h; unfold doCompact; simp

end Sys2Proof.Machine
end

