-- ==== Sys2Proof/Laws/Maps.lean ====
section
/-! SUPPORT. Sparse memories: a write is read back, leaves every other key alone, and keeps the canonical form. -/

namespace Sys2Proof.Machine

variable {α : Type} [DecidableEq α]

/-- Weakening the bound of the canonical form. -/
theorem cellWfFrom_le (d : α) (lo hi : Nat) (m : List (Nat × α)) (h : cellWfFrom d hi m = true) (hl : lo ≤ hi) :
    cellWfFrom d lo m = true := by
  cases m with
  | nil => rfl
  | cons x m => simp only [cellWfFrom, Bool.and_eq_true, decide_eq_true_eq] at h ⊢; exact ⟨⟨by omega, h.1.2⟩, h.2⟩

/-- A key below every listed one reads as the default. -/
theorem cellGet_below (d : α) (lo a : Nat) (m : List (Nat × α)) (h : cellWfFrom d lo m = true) (ha : a < lo) :
    cellGet d m a = d := by
  induction m generalizing lo with
  | nil => rfl
  | cons x m ih =>
    simp only [cellWfFrom, Bool.and_eq_true, decide_eq_true_eq] at h
    rw [cellGet, if_neg (by omega)]
    exact ih (x.1 + 1) h.2 (by omega)

/-- A write keeps the canonical form. -/
theorem cellWfFrom_set (d : α) (lo a : Nat) (v : α) (m : List (Nat × α)) (h : cellWfFrom d lo m = true) (ha : lo ≤ a) :
    cellWfFrom d lo (cellSet d m a v) = true := by
  induction m generalizing lo with
  | nil => simp only [cellSet]; split <;> simp_all [cellWfFrom]
  | cons x m ih =>
    simp only [cellWfFrom, Bool.and_eq_true, decide_eq_true_eq] at h
    simp only [cellSet]
    split
    · split <;> simp only [cellWfFrom, Bool.and_eq_true, decide_eq_true_eq]
      · exact h
      · exact ⟨⟨ha, ‹_›⟩, ⟨by omega, h.1.2⟩, h.2⟩
    · split
      · split
        · exact cellWfFrom_le d _ _ m h.2 (by omega)
        · simp only [cellWfFrom, Bool.and_eq_true, decide_eq_true_eq]
          exact ⟨⟨ha, ‹_›⟩, by simp_all⟩
      · simp only [cellWfFrom, Bool.and_eq_true, decide_eq_true_eq]
        exact ⟨h.1, ih (x.1 + 1) h.2 (by omega)⟩

theorem cellWf_set (d : α) (a : Nat) (v : α) (m : List (Nat × α)) (h : cellWf d m = true) : cellWf d (cellSet d m a v) = true :=
  cellWfFrom_set d 0 a v m h (Nat.zero_le a)

/-- What was written is read. -/
theorem cellGet_set_self (d : α) (a : Nat) (v : α) (m : List (Nat × α)) (h : cellWf d m = true) :
    cellGet d (cellSet d m a v) a = v := by
  suffices ∀ lo, cellWfFrom d lo m = true → cellGet d (cellSet d m a v) a = v from this 0 h
  clear h
  induction m with
  | nil => intro lo _; simp only [cellSet]; split <;> simp_all [cellGet]
  | cons x m ih =>
    intro lo h
    simp only [cellWfFrom, Bool.and_eq_true, decide_eq_true_eq] at h
    simp only [cellSet]
    split
    · split
      · rw [cellGet, if_neg (by omega), cellGet_below d (x.1 + 1) a m h.2 (by omega)]; simp_all
      · simp [cellGet]
    · split
      · split
        · rw [cellGet_below d (x.1 + 1) a m h.2 (by omega)]; simp_all
        · simp [cellGet]
      · rw [cellGet, if_neg (by omega)]; exact ih (x.1 + 1) h.2

/-- Every other key reads as before. -/
theorem cellGet_set_other (d : α) (a b : Nat) (v : α) (m : List (Nat × α)) (hab : b ≠ a) :
    cellGet d (cellSet d m a v) b = cellGet d m b := by
  induction m with
  | nil => simp only [cellSet]; split <;> simp [cellGet, hab]
  | cons x m ih =>
    simp only [cellSet]
    split
    · split <;> simp [cellGet, hab]
    · split
      · split <;> simp_all [cellGet]
      · simp only [cellGet, ih]

end Sys2Proof.Machine
end

