-- ==== Sys2Proof/Laws/Operations.lean ====
section
/-! SUPPORT. What the operations of Machine/Operations.lean leave as it was: every block of the state they do not name, and the
queue. -/

namespace Sys2Proof.Machine

@[simp ↓] theorem refuseLoad_hide : ∀ j id reason off s m, 0x1823d08#26 &&& ~~~m = 0#26 → hide m (refuseLoad j id
    reason off s) = hide m s := by
  intro j id reason off s m h; refine hide_le (k := 0x1823d08#26) ?_ h; unfold refuseLoad; simp

@[simp ↓] theorem refuseLoad_keeps : ∀ j id reason off s, (refuseLoad j id reason off s).glb = s.glb ∧ (refuseLoad j
    id reason off s).pwr = s.pwr ∧ (refuseLoad j id reason off s).pins = s.pins ∧ (refuseLoad j id reason off s).tbs =
    s.tbs ∧ (refuseLoad j id reason off s).rst = s.rst ∧ (refuseLoad j id reason off s).boot = s.boot ∧ (refuseLoad j
    id reason off s).nv = s.nv ∧ (refuseLoad j id reason off s).fus = s.fus ∧ (refuseLoad j id reason off s).sdl =
    s.sdl ∧ (refuseLoad j id reason off s).prs = s.prs ∧ (refuseLoad j id reason off s).ldg = s.ldg ∧ (refuseLoad j id
    reason off s).ent = s.ent ∧ (refuseLoad j id reason off s).att = s.att ∧ (refuseLoad j id reason off s).tmp =
    s.tmp ∧ (refuseLoad j id reason off s).wdg = s.wdg ∧ (refuseLoad j id reason off s).chp = s.chp ∧ (refuseLoad j id
    reason off s).pending = s.pending := by
  intro j id reason off s; have h := refuseLoad_hide j id reason off s 0x1823d08#26 rfl; exact ⟨hide_glb h rfl, hide_pwr h rfl,
    hide_pins h rfl, hide_tbs h rfl, hide_rst h rfl, hide_boot h rfl, hide_nv h rfl, hide_fus h rfl, hide_sdl h rfl,
    hide_prs h rfl, hide_ldg h rfl, hide_ent h rfl, hide_att h rfl, hide_tmp h rfl, hide_wdg h rfl, hide_chp h rfl,
    hide_pending h rfl⟩

@[simp ↓] theorem checkJob_hide (op : Nat) (id : Nat) (ok : Job → State → State) (s : State) (m : BitVec 26) (hm :
    0x1823d08#26 &&& ~~~m = 0#26) (h : ∀ j s, hide m (ok j s) = hide m s) : hide m (checkJob op id ok s) = hide m s :=
    by
  have t (k : BitVec 26) (hk : k &&& ~~~0x1823d08#26 = 0#26) : k &&& ~~~m = 0#26 := sub_trans hk hm
  unfold checkJob; (repeat' first | split | dsimp only) <;> simp [h, t]

@[simp ↓] theorem queueJob_hide : ∀ j s m, 0x1000#26 &&& ~~~m = 0#26 → hide m (queueJob j s) = hide m s := by
  intro j s m h; refine hide_le (k := 0x1000#26) ?_ h; unfold queueJob; simp

@[simp ↓] theorem drainCopy_hide : ∀ id s m, 0x800#26 &&& ~~~m = 0#26 → hide m (drainCopy id s) = hide m s := by
  intro id s m h; refine hide_le (k := 0x800#26) ?_ h; unfold drainCopy; simp

@[simp ↓] theorem loadImage_hide : ∀ img j s m, 0x1823d08#26 &&& ~~~m = 0#26 → hide m (loadImage img j s) = hide m s
    := by
  intro img j s m h; refine hide_le (k := 0x1823d08#26) ?_ h; unfold loadImage
  (repeat' first | split | dsimp only) <;> ((try simp) <;> (repeat (refine hide_snd (by assumption) ?_; try simp)))

end Sys2Proof.Machine
end

