-- ==== Sys2Proof/WellFormed.lean ====
section
/-! DEFINITION. Which commands the world can send at all: lengths and numbers the spec bounds. Everything else about a
command is judged by its meaning. -/

namespace Sys2Proof

/-- The BARs a memory request can reach (R228): BAR0, BAR2 and BAR4. -/
def barOk (bar : Fin 6) : Bool := bar.val % 2 = 0

/-- A read of at most a maximum-size request (R222), and not empty. One of BAR2 crosses no 4 KiB boundary, as PCIe has it. -/
def readLenOk (n : Nat) : Bool := decide (0 < n) && decide (n ≤ 4096)

/-- The widths of the link (R222). -/
def widthOk (w : BitVec 5) : Bool := decide (w = 1 ∨ w = 2 ∨ w = 4 ∨ w = 8 ∨ w = 16)

/-- A JEDEC device's facts: erase sizes are powers of two (R466) and dummy cycles small enough for a byte (R287). -/
def flashIdOk (f : FlashId) : Bool :=
  f.erases.all (fun e => decide (0 < e.2)) && f.minDummy.all fun e => decide (e.2 < 256)

/-- A platform command carries the data it says, at most (R283). -/
def flashCmdOk (k : FlashCmd) : Bool := decide (k.data.length ≤ k.len)

/-- A start brings at most one time for each of the twelve steps (R82). -/
def startOk (i : StartIn) : Bool := decide (i.stepUs.length ≤ 12)

/-- The commands the world can send. -/
def wf : Instr → Bool
  | .supplyValid i | .devRstRelease i | .warmResetRelease i | .transitionResume i => startOk i
  | .unservedBarAccess _ bar _ _ | .atomicOp _ bar _ | .idePolicyRefusal _ bar _ _ => barOk bar
  | .bar2Read off n _ => readLenOk n && decide (off.toNat % 4096 + n ≤ 4096)
  | .windowRead _ off n _ data =>
    readLenOk n && decide (off.toNat + n ≤ 2 ^ 24) && decide (data.length ≤ n)
  | .discovery _ r => (r.cs0.map flashIdOk).getD true && (r.cs1.map flashIdOk).getD true
  | .cmdRead _ k | .cmdFastRead _ k | .cmdRegRead _ k | .cmdSecRead _ k | .cmdProgram _ k | .cmdErase _ k
  | .cmdRegWrite _ k | .cmdSecWrite _ k | .cmdDiscovery _ k | .cmdWriteEn _ k | .cmdReset _ k | .cmdPower _ k
  | .cmdSuspend _ k | .cmdUndefined _ k => flashCmdOk k
  | .descriptorFetch _ _ ds => decide (0 < ds.length)
  | .linkUp w _ _ => widthOk w
  | .linkSpeedChange sp w => decide (sp ≠ 0) && widthOk w
  | _ => true

end Sys2Proof
end

