-- ==== Sys2Proof/Laws/PerInstr.lean ====
section
/-! SUPPORT. No family of statements per instruction: the table's rows carry no encoding. -/

namespace Sys2Proof.Laws

/-- The BARs of a memory request are even. -/
theorem barOk_iff (b : Fin 6) : barOk b = true ↔ b.val % 2 = 0 := by simp [barOk]

end Sys2Proof.Laws
end

