-- ==== Sys2Proof/Laws/Recorder.lean ====
section
/-! SUPPORT. What the operations of Machine/Recorder.lean leave as it was: every block of the state they do not name, and the
queue. -/

namespace Sys2Proof.Machine

@[simp ↓] theorem pageParity_hide : ∀ c p s m, 0x1823d08#26 &&& ~~~m = 0#26 → hide m (pageParity c p s) = hide m s :=
    by
  intro c p s m h; refine hide_le (k := 0x1823d08#26) ?_ h; unfold pageParity; (repeat' first | split | dsimp only) <;> simp

@[simp ↓] theorem storeParity_hide : ∀ c a s m, 0x1823d08#26 &&& ~~~m = 0#26 → hide m (storeParity c a s) = hide m s
    := by
  intro c a s m h; refine hide_le (k := 0x1823d08#26) ?_ h; unfold storeParity; simp

@[simp ↓] theorem evrResult_hide : ∀ r s m, 0x800000#26 &&& ~~~m = 0#26 → hide m (evrResult r s) = hide m s := by
  intro r s m h; refine hide_le (k := 0x800000#26) ?_ h; unfold evrResult; simp

@[simp ↓] theorem evrResult_keeps : ∀ r s, (evrResult r s).glb = s.glb ∧ (evrResult r s).pwr = s.pwr ∧ (evrResult r
    s).pins = s.pins ∧ (evrResult r s).aon = s.aon ∧ (evrResult r s).tbs = s.tbs ∧ (evrResult r s).rst = s.rst ∧
    (evrResult r s).boot = s.boot ∧ (evrResult r s).nv = s.nv ∧ (evrResult r s).out = s.out ∧ (evrResult r s).fus =
    s.fus ∧ (evrResult r s).wsh = s.wsh ∧ (evrResult r s).pln = s.pln ∧ (evrResult r s).job = s.job ∧ (evrResult r
    s).hlk = s.hlk ∧ (evrResult r s).sdl = s.sdl ∧ (evrResult r s).prs = s.prs ∧ (evrResult r s).ldg = s.ldg ∧
    (evrResult r s).kvt = s.kvt ∧ (evrResult r s).ent = s.ent ∧ (evrResult r s).att = s.att ∧ (evrResult r s).tmp =
    s.tmp ∧ (evrResult r s).wdg = s.wdg ∧ (evrResult r s).chp = s.chp ∧ (evrResult r s).pmc = s.pmc ∧ (evrResult r
    s).pending = s.pending := by
  intro r s; have h := evrResult_hide r s 0x800000#26 rfl; exact ⟨hide_glb h rfl, hide_pwr h rfl, hide_pins h rfl,
    hide_aon h rfl, hide_tbs h rfl, hide_rst h rfl, hide_boot h rfl, hide_nv h rfl, hide_out h rfl, hide_fus h rfl,
    hide_wsh h rfl, hide_pln h rfl, hide_job h rfl, hide_hlk h rfl, hide_sdl h rfl, hide_prs h rfl, hide_ldg h rfl,
    hide_kvt h rfl, hide_ent h rfl, hide_att h rfl, hide_tmp h rfl, hide_wdg h rfl, hide_chp h rfl, hide_pmc h rfl,
    hide_pending h rfl⟩

@[simp ↓] theorem evrCmd_hide (a : Agent) (key : BitVec 16) (f : State → State) (s : State) (m : BitVec 26) (hm :
    0x180290f#26 &&& ~~~m = 0#26) (h : ∀ s, hide m (f s) = hide m s) : hide m (evrCmd a key f s) = hide m s := by
  have t (k : BitVec 26) (hk : k &&& ~~~0x180290f#26 = 0#26) : k &&& ~~~m = 0#26 := sub_trans hk hm
  unfold evrCmd; refine access_hide _ _ _ _ _ (t _ rfl) fun s => ?_
  (repeat' first | split | dsimp only) <;> simp [h, t]

@[simp ↓] theorem doFreeze_hide : ∀ a key s m, 0x180290f#26 &&& ~~~m = 0#26 → hide m (doFreeze a key s) = hide m s :=
    by
  intro a key s m h; refine hide_le (k := 0x180290f#26) ?_ h; unfold doFreeze; simp

@[simp ↓] theorem doThaw_hide : ∀ a key s m, 0x180290f#26 &&& ~~~m = 0#26 → hide m (doThaw a key s) = hide m s := by
  intro a key s m h; refine hide_le (k := 0x180290f#26) ?_ h; unfold doThaw; simp

@[simp ↓] theorem doFreezeTimeLimit_hide : ∀ s m, 0x1802008#26 &&& ~~~m = 0#26 → hide m (doFreezeTimeLimit s) = hide m
    s := by
  intro s m h; refine hide_le (k := 0x1802008#26) ?_ h; unfold doFreezeTimeLimit; simp

@[simp ↓] theorem setCal_hide : ∀ s m, 0x1802008#26 &&& ~~~m = 0#26 → hide m (setCal s) = hide m s := by
  intro s m h; refine hide_le (k := 0x1802008#26) ?_ h; unfold setCal; simp

@[simp ↓] theorem doSetCal_hide : ∀ a key s m, 0x180290f#26 &&& ~~~m = 0#26 → hide m (doSetCal a key s) = hide m s :=
    by
  intro a key s m h; refine hide_le (k := 0x180290f#26) ?_ h; unfold doSetCal; simp

@[simp ↓] theorem doEvrCursorWrite_hide : ∀ a v s m, 0x180290f#26 &&& ~~~m = 0#26 → hide m (doEvrCursorWrite a v s) =
    hide m s := by
  intro a v s m h; refine hide_le (k := 0x180290f#26) ?_ h; unfold doEvrCursorWrite; simp

@[simp ↓] theorem doEvrWinAutoRead_hide : ∀ a s m, 0x180290f#26 &&& ~~~m = 0#26 → hide m (doEvrWinAutoRead a s) = hide
    m s := by
  intro a s m h; refine hide_le (k := 0x180290f#26) ?_ h; unfold doEvrWinAutoRead; simp

@[simp ↓] theorem doSpillSnapshotLoaded_hide : ∀ s m, 0x800000#26 &&& ~~~m = 0#26 → hide m (doSpillSnapshotLoaded s) =
    hide m s := by
  intro s m h; refine hide_le (k := 0x800000#26) ?_ h; unfold doSpillSnapshotLoaded; simp

end Sys2Proof.Machine
end

