-- ==== Sys2Proof/Laws/Recovery.lean ====
section
/-! SUPPORT. What the operations of Machine/Recovery.lean leave as it was: every block of the state they do not name, and the
queue. -/

namespace Sys2Proof.Machine

@[simp ↓] theorem rcvWriteReq_hide : ∀ o dmaOk p s m, 0x1e9e58c#26 &&& ~~~m = 0#26 → hide m (rcvWriteReq o dmaOk p
    s).2.2 = hide m s := by
  intro o dmaOk p s m h; refine hide_le (k := 0x1e9e58c#26) ?_ h; unfold rcvWriteReq; (repeat' first | split | dsimp only) <;> simp

@[simp ↓] theorem doRcvWrite_hide : ∀ a key o dmaOk p s m, 0x1e9ed8f#26 &&& ~~~m = 0#26 → hide m (doRcvWrite a key o
    dmaOk p s) = hide m s := by
  intro a key o dmaOk p s m h; refine hide_le (k := 0x1e9ed8f#26) ?_ h; unfold doRcvWrite; simp

@[simp ↓] theorem doRcvDone_hide : ∀ a key s m, 0x1e9ed8f#26 &&& ~~~m = 0#26 → hide m (doRcvDone a key s) = hide m s
    := by
  intro a key s m h; refine hide_le (k := 0x1e9ed8f#26) ?_ h; unfold doRcvDone; simp

@[simp ↓] theorem doRetry_hide : ∀ a key s m, 0x1e9ed8f#26 &&& ~~~m = 0#26 → hide m (doRetry a key s) = hide m s := by
  intro a key s m h; refine hide_le (k := 0x1e9ed8f#26) ?_ h; unfold doRetry; simp

@[simp ↓] theorem doRecoveryPackage_hide : ∀ p s m, 0x1e9e58c#26 &&& ~~~m = 0#26 → hide m (doRecoveryPackage p s) =
    hide m s := by
  intro p s m h; refine hide_le (k := 0x1e9e58c#26) ?_ h; unfold doRecoveryPackage; (repeat' first | split | dsimp only) <;> simp

@[simp ↓] theorem doRecoveryReadbackDone_hide : ∀ f s m, 0x1e9e58c#26 &&& ~~~m = 0#26 → hide m (doRecoveryReadbackDone
    f s) = hide m s := by
  intro f s m h; refine hide_le (k := 0x1e9e58c#26) ?_ h; unfold doRecoveryReadbackDone; (repeat' first | split | dsimp only) <;> simp

@[simp ↓] theorem doRcvTimeout_hide : ∀ s m, 0x1e9e58c#26 &&& ~~~m = 0#26 → hide m (doRcvTimeout s) = hide m s := by
  intro s m h; refine hide_le (k := 0x1e9e58c#26) ?_ h; unfold doRcvTimeout; simp

@[simp ↓] theorem doRetryMinExpiry_hide : ∀ s m, 0x1e9e58c#26 &&& ~~~m = 0#26 → hide m (doRetryMinExpiry s) = hide m s
    := by
  intro s m h; refine hide_le (k := 0x1e9e58c#26) ?_ h; unfold doRetryMinExpiry; simp

end Sys2Proof.Machine
end

