-- ==== Sys2Proof/Laws/Saddleop.lean ====
section
/-! SUPPORT. What the operations of Machine/Saddleop.lean leave as it was: every block of the state they do not name, and the
queue. -/

namespace Sys2Proof.Machine

@[simp ↓] theorem reachSlots_hide : ∀ c cs1 a n s m, 0x10000#26 &&& ~~~m = 0#26 → hide m (reachSlots c cs1 a n s) =
    hide m s := by
  intro c cs1 a n s m h; refine hide_le (k := 0x10000#26) ?_ h; unfold reachSlots
  exact hide_foldl _ _ (by intros; (repeat' first | split | dsimp only) <;> simp) _ _

@[simp ↓] theorem reachCmd_hide : ∀ c cs1 k s m, 0x10000#26 &&& ~~~m = 0#26 → hide m (reachCmd c cs1 k s) = hide m s
    := by
  intro c cs1 k s m h; refine hide_le (k := 0x10000#26) ?_ h; unfold reachCmd; simp

@[simp ↓] theorem eregRead_hide : ∀ c r n s m, 0x4100#26 &&& ~~~m = 0#26 → hide m (eregRead c r n s) = hide m s := by
  intro c r n s m h; refine hide_le (k := 0x4100#26) ?_ h; unfold eregRead; simp

@[simp ↓] theorem deny_hide : ∀ c k rule mal fill flags s m, 0x1806108#26 &&& ~~~m = 0#26 → hide m (deny c k rule mal
    fill flags s) = hide m s := by
  intro c k rule mal fill flags s m h; refine hide_le (k := 0x1806108#26) ?_ h; unfold deny; simp

@[simp ↓] theorem denyEarly_hide : ∀ c k rule fill s m, 0x1806128#26 &&& ~~~m = 0#26 → hide m (denyEarly c k rule fill
    s) = hide m s := by
  intro c k rule fill s m h; refine hide_le (k := 0x1806128#26) ?_ h; unfold denyEarly; simp

@[simp ↓] theorem issueWrite_hide : ∀ c cs1 k s m, 0x14100#26 &&& ~~~m = 0#26 → hide m (issueWrite c cs1 k s) = hide m
    s := by
  intro c cs1 k s m h; refine hide_le (k := 0x14100#26) ?_ h; unfold issueWrite; simp

@[simp ↓] theorem openRedir_hide : ∀ c o k d s m, 0x1816188#26 &&& ~~~m = 0#26 → hide m (openRedir c o k d s) = hide m
    s := by
  intro c o k d s m h; refine hide_le (k := 0x1816188#26) ?_ h; unfold openRedir; simp

@[simp ↓] theorem redirect_hide : ∀ c k d s m, 0x1816188#26 &&& ~~~m = 0#26 → hide m (redirect c k d s) = hide m s :=
    by
  intro c k d s m h; refine hide_le (k := 0x1816188#26) ?_ h; unfold redirect; (repeat' first | split | dsimp only) <;> simp

@[simp ↓] theorem queueLeaf_hide : ∀ c key s m, 0x180690e#26 &&& ~~~m = 0#26 → hide m (queueLeaf c key s).2 = hide m s
    := by
  intro c key s m h; refine hide_le (k := 0x180690e#26) ?_ h; unfold queueLeaf; simp

@[simp ↓] theorem checkedRead_hide : ∀ c cs1 r k s m, 0x180690e#26 &&& ~~~m = 0#26 → hide m (checkedRead c cs1 r k s)
    = hide m s := by
  intro c cs1 r k s m h; refine hide_le (k := 0x180690e#26) ?_ h; unfold checkedRead; simp

@[simp ↓] theorem allowRead_hide : ∀ c k d s m, 0x180690e#26 &&& ~~~m = 0#26 → hide m (allowRead c k d s) = hide m s
    := by
  intro c k d s m h; refine hide_le (k := 0x180690e#26) ?_ h; unfold allowRead; (repeat' first | split | dsimp only) <;> simp

@[simp ↓] theorem emulate_hide : ∀ c k d s m, 0x1004100#26 &&& ~~~m = 0#26 → hide m (emulate c k d s) = hide m s := by
  intro c k d s m h; refine hide_le (k := 0x1004100#26) ?_ h; unfold emulate; simp

@[simp ↓] theorem decideAction_hide : ∀ c k s m, 0x18169ae#26 &&& ~~~m = 0#26 → hide m (decideAction c k s) = hide m s
    := by
  intro c k s m h; refine hide_le (k := 0x18169ae#26) ?_ h; unfold decideAction; simp

@[simp ↓] theorem commitReq_hide : ∀ c o src s m, 0x181690e#26 &&& ~~~m = 0#26 → hide m (commitReq c o src s).2 = hide
    m s := by
  intro c o src s m h; refine hide_le (k := 0x181690e#26) ?_ h; unfold commitReq; simp

@[simp ↓] theorem abandonReq_hide : ∀ c o src s m, 0x1816188#26 &&& ~~~m = 0#26 → hide m (abandonReq c o src s).2 =
    hide m s := by
  intro c o src s m h; refine hide_le (k := 0x1816188#26) ?_ h; unfold abandonReq; simp

@[simp ↓] theorem mboxProgram_hide : ∀ c d s m, 0x181698e#26 &&& ~~~m = 0#26 → hide m (mboxProgram c d s) = hide m s
    := by
  intro c d s m h; refine hide_le (k := 0x181698e#26) ?_ h; unfold mboxProgram; (repeat' first | split | dsimp only) <;> simp

@[simp ↓] theorem mailboxCmd_hide : ∀ c k s m, 0x18169ae#26 &&& ~~~m = 0#26 → hide m (mailboxCmd c k s) = hide m s :=
    by
  intro c k s m h; refine hide_le (k := 0x18169ae#26) ?_ h; unfold mailboxCmd; simp

@[simp ↓] theorem presentedReset_hide : ∀ c src s m, 0x1806108#26 &&& ~~~m = 0#26 → hide m (presentedReset c src s) =
    hide m s := by
  intro c src s m h; refine hide_le (k := 0x1806108#26) ?_ h; unfold presentedReset; simp

@[simp ↓] theorem discoveryReply_hide : ∀ c k s m, 0x100#26 &&& ~~~m = 0#26 → hide m (discoveryReply c k s) = hide m s
    := by
  intro c k s m h; refine hide_le (k := 0x100#26) ?_ h; unfold discoveryReply; simp

@[simp ↓] theorem fixedCmd_hide : ∀ c k armed s m, 0x1806108#26 &&& ~~~m = 0#26 → hide m (fixedCmd c k armed s) = hide
    m s := by
  intro c k armed s m h; refine hide_le (k := 0x1806108#26) ?_ h; unfold fixedCmd; (repeat' first | split | dsimp only) <;> simp

@[simp ↓] theorem filterCmd_hide : ∀ c k s m, 0x18169ae#26 &&& ~~~m = 0#26 → hide m (filterCmd c k s) = hide m s := by
  intro c k s m h; refine hide_le (k := 0x18169ae#26) ?_ h; unfold filterCmd; simp

@[simp ↓] theorem passCmd_hide : ∀ c k s m, 0x10100#26 &&& ~~~m = 0#26 → hide m (passCmd c k s) = hide m s := by
  intro c k s m h; refine hide_le (k := 0x10100#26) ?_ h; unfold passCmd; simp

@[simp ↓] theorem platCmd_hide : ∀ want c k s m, 0x18169ae#26 &&& ~~~m = 0#26 → hide m (platCmd want c k s) = hide m s
    := by
  intro want c k s m h; refine hide_le (k := 0x18169ae#26) ?_ h; unfold platCmd; (repeat' first | split | dsimp only) <;> simp

end Sys2Proof.Machine
end

