-- ==== Sys2Proof/Laws/Release.lean ====
section
/-! SUPPORT. What the operations of Machine/Release.lean leave as it was: every block of the state they do not name, and the
queue. -/

namespace Sys2Proof.Machine

@[simp ↓] theorem doSlotCheckDone_hide : ∀ o w f s m, 0x1e9e58c#26 &&& ~~~m = 0#26 → hide m (doSlotCheckDone o w f s)
    = hide m s := by
  intro o w f s m h; refine hide_le (k := 0x1e9e58c#26) ?_ h; unfold doSlotCheckDone
  (repeat' first | split | dsimp only) <;> (try simp) <;> (repeat (refine hide_snd_snd (by assumption) ?_; try simp))

@[simp ↓] theorem doReleaseDelayExpiry_hide : ∀ d s m, 0x1e9e58c#26 &&& ~~~m = 0#26 → hide m (doReleaseDelayExpiry d
    s) = hide m s := by
  intro d s m h; refine hide_le (k := 0x1e9e58c#26) ?_ h; unfold doReleaseDelayExpiry; simp

@[simp ↓] theorem prsCmd_hide (a : Agent) (key : BitVec 16) (op : Nat) (d : Fin 32) (k : State → Nat × State) (s :
    State) (m : BitVec 26) (hm : 0x180a90f#26 &&& ~~~m = 0#26) (h : ∀ s, hide m (k s).2 = hide m s) : hide m (prsCmd a
    key op d k s) = hide m s := by
  have t (k : BitVec 26) (hk : k &&& ~~~0x180a90f#26 = 0#26) : k &&& ~~~m = 0#26 := sub_trans hk hm
  unfold prsCmd; refine access_hide _ _ _ _ _ (t _ rfl) fun s => ?_
  (repeat' first | split | dsimp only) <;> (try simp [h, t]) <;> (refine hide_snd (by assumption) ?_; simp [h, t])

@[simp ↓] theorem doPrsHold_hide : ∀ a key d s m, 0x1e9ed8f#26 &&& ~~~m = 0#26 → hide m (doPrsHold a key d s) = hide m
    s := by
  intro a key d s m h; refine hide_le (k := 0x1e9ed8f#26) ?_ h; unfold doPrsHold; simp

@[simp ↓] theorem doPrsRelease_hide : ∀ a key d s m, 0x1e9ed8f#26 &&& ~~~m = 0#26 → hide m (doPrsRelease a key d s) =
    hide m s := by
  intro a key d s m h; refine hide_le (k := 0x1e9ed8f#26) ?_ h; unfold doPrsRelease; simp

@[simp ↓] theorem doPrsRestart_hide : ∀ a key d s m, 0x1e9ed8f#26 &&& ~~~m = 0#26 → hide m (doPrsRestart a key d s) =
    hide m s := by
  intro a key d s m h; refine hide_le (k := 0x1e9ed8f#26) ?_ h; unfold doPrsRestart; simp

@[simp ↓] theorem doHoldCauseTimer_hide : ∀ d bit s m, 0x1e9e58c#26 &&& ~~~m = 0#26 → hide m (doHoldCauseTimer d bit
    s) = hide m s := by
  intro d bit s m h; refine hide_le (k := 0x1e9e58c#26) ?_ h; unfold doHoldCauseTimer; simp

@[simp ↓] theorem doDomPgChange_hide : ∀ d good s m, 0x1e9e58e#26 &&& ~~~m = 0#26 → hide m (doDomPgChange d good s) =
    hide m s := by
  intro d good s m h; refine hide_le (k := 0x1e9e58e#26) ?_ h; unfold doDomPgChange; simp

@[simp ↓] theorem doReadbackLow_hide : ∀ d ms s m, 0x180a008#26 &&& ~~~m = 0#26 → hide m (doReadbackLow d ms s) = hide
    m s := by
  intro d ms s m h; refine hide_le (k := 0x180a008#26) ?_ h; unfold doReadbackLow; simp

@[simp ↓] theorem doReadbackHigh_hide : ∀ d s m, 0x180a008#26 &&& ~~~m = 0#26 → hide m (doReadbackHigh d s) = hide m s
    := by
  intro d s m h; refine hide_le (k := 0x180a008#26) ?_ h; unfold doReadbackHigh; simp

end Sys2Proof.Machine
end

