-- ==== Sys2Proof/Laws/Saddle.lean ====
section
/-! SUPPORT. What the operations of Machine/Saddle.lean leave as it was: every block of the state they do not name, and the
queue. -/

namespace Sys2Proof.Machine

@[simp ↓] theorem csFound_hide : ∀ c cs1 g s m, 0x1806008#26 &&& ~~~m = 0#26 → hide m (csFound c cs1 g s) = hide m s
    := by
  intro c cs1 g s m h; refine hide_le (k := 0x1806008#26) ?_ h; unfold csFound; simp

@[simp ↓] theorem discFails_hide : ∀ c cs1 e s m, 0x1806108#26 &&& ~~~m = 0#26 → hide m (discFails c cs1 e s) = hide m
    s := by
  intro c cs1 e s m h; refine hide_le (k := 0x1806108#26) ?_ h; unfold discFails; (repeat' first | split | dsimp only) <;> simp

@[simp ↓] theorem discTurn_hide : ∀ c cs1 r s m, 0x1806108#26 &&& ~~~m = 0#26 → hide m (discTurn c cs1 r s).2 = hide m
    s := by
  intro c cs1 r s m h; refine hide_le (k := 0x1806108#26) ?_ h; unfold discTurn; (repeat' first | split | dsimp only) <;> simp

@[simp ↓] theorem cycleDone_hide : ∀ c s m, 0x1806008#26 &&& ~~~m = 0#26 → hide m (cycleDone c s) = hide m s := by
  intro c s m h; refine hide_le (k := 0x1806008#26) ?_ h; unfold cycleDone; simp

@[simp ↓] theorem after15_hide : ∀ s m, 0x1812188#26 &&& ~~~m = 0#26 → hide m (after15 s) = hide m s := by
  intro s m h; refine hide_le (k := 0x1812188#26) ?_ h; unfold after15; simp

@[simp ↓] theorem doDiscovery_hide : ∀ c r s m, 0x1e9e58c#26 &&& ~~~m = 0#26 → hide m (doDiscovery c r s) = hide m s
    := by
  intro c r s m h; refine hide_le (k := 0x1e9e58c#26) ?_ h; unfold doDiscovery; simp

@[simp ↓] theorem closeRedir_hide : ∀ o s m, 0x10000#26 &&& ~~~m = 0#26 → hide m (closeRedir o s) = hide m s := by
  intro o s m h; refine hide_le (k := 0x10000#26) ?_ h; unfold closeRedir; simp

@[simp ↓] theorem stagedFails_hide : ∀ c o res s m, 0x1816188#26 &&& ~~~m = 0#26 → hide m (stagedFails c o res s) =
    hide m s := by
  intro c o res s m h; refine hide_le (k := 0x1816188#26) ?_ h; unfold stagedFails; simp

@[simp ↓] theorem stagedPasses_hide : ∀ c o m s mk, 0x1816088#26 &&& ~~~mk = 0#26 → hide mk (stagedPasses c o m s) =
    hide mk s := by
  intro c o m s mk h; refine hide_le (k := 0x1816088#26) ?_ h; unfold stagedPasses; simp

@[simp ↓] theorem doStagedCheckDone_hide : ∀ o f s m, 0x1816188#26 &&& ~~~m = 0#26 → hide m (doStagedCheckDone o f s)
    = hide m s := by
  intro o f s m h; refine hide_le (k := 0x1816188#26) ?_ h; unfold doStagedCheckDone
  (repeat' first | split | dsimp only) <;> ((try simp) <;> (repeat (refine hide_snd (by assumption) ?_; try simp)))

@[simp ↓] theorem doDeviceReadStarved_hide : ∀ c kind s m, 0x1806008#26 &&& ~~~m = 0#26 → hide m (doDeviceReadStarved
    c kind s) = hide m s := by
  intro c kind s m h; refine hide_le (k := 0x1806008#26) ?_ h; unfold doDeviceReadStarved; simp

@[simp ↓] theorem leafJudged_hide : ∀ o s m, 0x10000#26 &&& ~~~m = 0#26 → hide m (leafJudged o s) = hide m s := by
  intro o s m h; refine hide_le (k := 0x10000#26) ?_ h; unfold leafJudged; simp

@[simp ↓] theorem cvFails_hide : ∀ c o a s m, 0x1e9e58c#26 &&& ~~~m = 0#26 → hide m (cvFails c o a s) = hide m s := by
  intro c o a s m h; refine hide_le (k := 0x1e9e58c#26) ?_ h; unfold cvFails; (repeat' first | split | dsimp only) <;> simp

@[simp ↓] theorem doCvLeafCheck_hide : ∀ c l s m, 0x1e9e58c#26 &&& ~~~m = 0#26 → hide m (doCvLeafCheck c l s) = hide m
    s := by
  intro c l s m h; refine hide_le (k := 0x1e9e58c#26) ?_ h; unfold doCvLeafCheck; (repeat' first | split | dsimp only) <;> simp

@[simp ↓] theorem sdlCmd_hide (a : Agent) (key : BitVec 16) (op : Nat) (c : Option (Fin 16)) (k : State → Nat × State)
    (s : State) (m : BitVec 26) (hm : 0x180690f#26 &&& ~~~m = 0#26) (h : ∀ s, hide m (k s).2 = hide m s) : hide m
    (sdlCmd a key op c k s) = hide m s := by
  have t (k : BitVec 26) (hk : k &&& ~~~0x180690f#26 = 0#26) : k &&& ~~~m = 0#26 := sub_trans hk hm
  unfold sdlCmd; refine access_hide _ _ _ _ _ (t _ rfl) fun s => ?_
  (repeat' first | split | dsimp only) <;> (try simp [h, t]) <;> (refine hide_snd (by assumption) ?_; simp [h, t])

@[simp ↓] theorem doSdlCommit_hide : ∀ a key c o s m, 0x181690f#26 &&& ~~~m = 0#26 → hide m (doSdlCommit a key c o s)
    = hide m s := by
  intro a key c o s m h; refine hide_le (k := 0x181690f#26) ?_ h; unfold doSdlCommit; simp

@[simp ↓] theorem doSdlAbandon_hide : ∀ a key c o s m, 0x181698f#26 &&& ~~~m = 0#26 → hide m (doSdlAbandon a key c o
    s) = hide m s := by
  intro a key c o s m h; refine hide_le (k := 0x181698f#26) ?_ h; unfold doSdlAbandon; simp

@[simp ↓] theorem doPwrCycle_hide : ∀ a key c s m, 0x180690f#26 &&& ~~~m = 0#26 → hide m (doPwrCycle a key c s) = hide
    m s := by
  intro a key c s m h; refine hide_le (k := 0x180690f#26) ?_ h; unfold doPwrCycle; simp

@[simp ↓] theorem doPwrCycleEnd_hide : ∀ c s m, 0x180600c#26 &&& ~~~m = 0#26 → hide m (doPwrCycleEnd c s) = hide m s
    := by
  intro c s m h; refine hide_le (k := 0x180600c#26) ?_ h; unfold doPwrCycleEnd; simp

@[simp ↓] theorem doGoldenViewOff_hide : ∀ a key s m, 0x1e9ed8f#26 &&& ~~~m = 0#26 → hide m (doGoldenViewOff a key s)
    = hide m s := by
  intro a key s m h; refine hide_le (k := 0x1e9ed8f#26) ?_ h; unfold doGoldenViewOff; simp

@[simp ↓] theorem doContverApply_hide : ∀ c s m, 0x1806008#26 &&& ~~~m = 0#26 → hide m (doContverApply c s) = hide m s
    := by
  intro c s m h; refine hide_le (k := 0x1806008#26) ?_ h; unfold doContverApply; (repeat' first | split | dsimp only) <;> simp

@[simp ↓] theorem doSdlChClr_hide : ∀ a c s m, 0x180690f#26 &&& ~~~m = 0#26 → hide m (doSdlChClr a c s) = hide m s :=
    by
  intro a c s m h; refine hide_le (k := 0x180690f#26) ?_ h; unfold doSdlChClr; simp

@[simp ↓] theorem doVioPlatLow_hide : ∀ c mv s m, 0x1806008#26 &&& ~~~m = 0#26 → hide m (doVioPlatLow c mv s) = hide m
    s := by
  intro c mv s m h; refine hide_le (k := 0x1806008#26) ?_ h; unfold doVioPlatLow; simp

@[simp ↓] theorem doVioPlatValid_hide : ∀ c mv s m, 0x1806008#26 &&& ~~~m = 0#26 → hide m (doVioPlatValid c mv s) =
    hide m s := by
  intro c mv s m h; refine hide_le (k := 0x1806008#26) ?_ h; unfold doVioPlatValid; simp

end Sys2Proof.Machine
end

