-- ==== Sys2Proof/Laws/Tamper.lean ====
section
/-! SUPPORT. What the operations of Machine/Tamper.lean leave as it was: every block of the state they do not name, and the
queue. -/

namespace Sys2Proof.Machine

@[simp ↓] theorem setTrips_hide : ∀ src trips s m, 0x100000#26 &&& ~~~m = 0#26 → hide m (setTrips src trips s) = hide
    m s := by
  intro src trips s m h; refine hide_le (k := 0x100000#26) ?_ h; unfold setTrips; simp

@[simp ↓] theorem cellGone_hide : ∀ cause s m, 0x2#26 &&& ~~~m = 0#26 → hide m (cellGone cause s) = hide m s := by
  intro cause s m h; refine hide_le (k := 0x2#26) ?_ h; unfold cellGone; simp

@[simp ↓] theorem physTrips_hide : ∀ src trips cause s m, 0x1ffffff#26 &&& ~~~m = 0#26 → hide m (physTrips src trips
    cause s) = hide m s := by
  intro src trips cause s m h; refine hide_le (k := 0x1ffffff#26) ?_ h; unfold physTrips; simp

@[simp ↓] theorem condition_hide : ∀ src det cause s m, 0x1ffffff#26 &&& ~~~m = 0#26 → hide m (condition src det cause
    s) = hide m s := by
  intro src det cause s m h; refine hide_le (k := 0x1ffffff#26) ?_ h; unfold condition; simp

@[simp ↓] theorem doTamperAlarm_hide : ∀ src det cause s m, 0x1ffffff#26 &&& ~~~m = 0#26 → hide m (doTamperAlarm src
    det cause s) = hide m s := by
  intro src det cause s m h; refine hide_le (k := 0x1ffffff#26) ?_ h; unfold doTamperAlarm; simp

@[simp ↓] theorem doTamperConditionEnd_hide : ∀ src s m, 0x190200a#26 &&& ~~~m = 0#26 → hide m (doTamperConditionEnd
    src s) = hide m s := by
  intro src s m h; refine hide_le (k := 0x190200a#26) ?_ h; unfold doTamperConditionEnd; simp

@[simp ↓] theorem doTamperSample_hide : ∀ a b s m, 0x1ffffff#26 &&& ~~~m = 0#26 → hide m (doTamperSample a b s) = hide
    m s := by
  intro a b s m h; refine hide_le (k := 0x1ffffff#26) ?_ h; unfold doTamperSample; simp

@[simp ↓] theorem tmpRefuse_hide : ∀ op res s m, 0x1902008#26 &&& ~~~m = 0#26 → hide m (tmpRefuse op res s) = hide m s
    := by
  intro op res s m h; refine hide_le (k := 0x1902008#26) ?_ h; unfold tmpRefuse; simp

@[simp ↓] theorem doTmpAck_hide : ∀ a key src s m, 0x1f9ed8f#26 &&& ~~~m = 0#26 → hide m (doTmpAck a key src s) = hide
    m s := by
  intro a key src s m h; refine hide_le (k := 0x1f9ed8f#26) ?_ h; unfold doTmpAck; (repeat' first | split | dsimp only) <;> simp

@[simp ↓] theorem doHoldAutoRelease_hide : ∀ src s m, 0x1f9e58c#26 &&& ~~~m = 0#26 → hide m (doHoldAutoRelease src s)
    = hide m s := by
  intro src s m h; refine hide_le (k := 0x1f9e58c#26) ?_ h; unfold doHoldAutoRelease; simp

@[simp ↓] theorem doSelftest_hide : ∀ a key src s m, 0x190290f#26 &&& ~~~m = 0#26 → hide m (doSelftest a key src s) =
    hide m s := by
  intro a key src s m h; refine hide_le (k := 0x190290f#26) ?_ h; unfold doSelftest; (repeat' first | split | dsimp only) <;> simp

@[simp ↓] theorem testedBad_hide : ∀ src b s m, 0x1ffffff#26 &&& ~~~m = 0#26 → hide m (testedBad src b s) = hide m s
    := by
  intro src b s m h; refine hide_le (k := 0x1ffffff#26) ?_ h; unfold testedBad; simp

@[simp ↓] theorem doSelftestDone_hide : ∀ okA okB s m, 0x1ffffff#26 &&& ~~~m = 0#26 → hide m (doSelftestDone okA okB
    s) = hide m s := by
  intro okA okB s m h; refine hide_le (k := 0x1ffffff#26) ?_ h; unfold doSelftestDone; (repeat' first | split | dsimp only) <;> simp

end Sys2Proof.Machine
end

