-- ==== Sys2Proof/Laws/Vault.lean ====
section
/-! SUPPORT. What the operations of Machine/Vault.lean leave as it was: every block of the state they do not name, and the
queue. -/

namespace Sys2Proof.Machine

@[simp ↓] theorem kvtRefuse_hide : ∀ slot res sub s m, 0x1822008#26 &&& ~~~m = 0#26 → hide m (kvtRefuse slot res sub
    s) = hide m s := by
  intro slot res sub s m h; refine hide_le (k := 0x1822008#26) ?_ h; unfold kvtRefuse; simp

@[simp ↓] theorem kvtRefuse_keeps : ∀ slot res sub s, (kvtRefuse slot res sub s).glb = s.glb ∧ (kvtRefuse slot res sub
    s).pwr = s.pwr ∧ (kvtRefuse slot res sub s).pins = s.pins ∧ (kvtRefuse slot res sub s).tbs = s.tbs ∧ (kvtRefuse
    slot res sub s).rst = s.rst ∧ (kvtRefuse slot res sub s).boot = s.boot ∧ (kvtRefuse slot res sub s).nv = s.nv ∧
    (kvtRefuse slot res sub s).out = s.out ∧ (kvtRefuse slot res sub s).fus = s.fus ∧ (kvtRefuse slot res sub s).wsh =
    s.wsh ∧ (kvtRefuse slot res sub s).pln = s.pln ∧ (kvtRefuse slot res sub s).job = s.job ∧ (kvtRefuse slot res sub
    s).sdl = s.sdl ∧ (kvtRefuse slot res sub s).prs = s.prs ∧ (kvtRefuse slot res sub s).ldg = s.ldg ∧ (kvtRefuse slot
    res sub s).ent = s.ent ∧ (kvtRefuse slot res sub s).att = s.att ∧ (kvtRefuse slot res sub s).tmp = s.tmp ∧
    (kvtRefuse slot res sub s).wdg = s.wdg ∧ (kvtRefuse slot res sub s).chp = s.chp ∧ (kvtRefuse slot res sub
    s).pending = s.pending := by
  intro slot res sub s; have h := kvtRefuse_hide slot res sub s 0x1822008#26 rfl; exact ⟨hide_glb h rfl, hide_pwr h rfl,
    hide_pins h rfl, hide_tbs h rfl, hide_rst h rfl, hide_boot h rfl, hide_nv h rfl, hide_out h rfl, hide_fus h rfl,
    hide_wsh h rfl, hide_pln h rfl, hide_job h rfl, hide_sdl h rfl, hide_prs h rfl, hide_ldg h rfl, hide_ent h rfl,
    hide_att h rfl, hide_tmp h rfl, hide_wdg h rfl, hide_chp h rfl, hide_pending h rfl⟩

@[simp ↓] theorem kvtCmd_hide (a : Agent) (key : BitVec 16) (slot : Nat) (k : State → State) (s : State) (m : BitVec
    26) (hm : 0x182290f#26 &&& ~~~m = 0#26) (h : ∀ s, hide m (k s) = hide m s) : hide m (kvtCmd a key slot k s) = hide
    m s := by
  have t (k : BitVec 26) (hk : k &&& ~~~0x182290f#26 = 0#26) : k &&& ~~~m = 0#26 := sub_trans hk hm
  unfold kvtCmd; refine access_hide _ _ _ _ _ (t _ rfl) fun s => ?_
  (repeat' first | split | dsimp only) <;> simp [h, t]

@[simp ↓] theorem genKey_hide : ∀ kt s m, 0x40100#26 &&& ~~~m = 0#26 → hide m (genKey kt s).2 = hide m s := by
  intro kt s m h; refine hide_le (k := 0x40100#26) ?_ h; unfold genKey; simp

@[simp ↓] theorem kvtReplace_hide : ∀ n kt a owner key checkOk pub s m, 0x1863d08#26 &&& ~~~m = 0#26 → hide m
    (kvtReplace n kt a owner key checkOk pub s) = hide m s := by
  intro n kt a owner key checkOk pub s m h; refine hide_le (k := 0x1863d08#26) ?_ h; unfold kvtReplace; simp

@[simp ↓] theorem doKvtGenerate_hide : ∀ a key slot checkOk dmaOk s m, 0x1863d0f#26 &&& ~~~m = 0#26 → hide m
    (doKvtGenerate a key slot checkOk dmaOk s) = hide m s := by
  intro a key slot checkOk dmaOk s m h; refine hide_le (k := 0x1863d0f#26) ?_ h; unfold doKvtGenerate; simp

@[simp ↓] theorem doKvtZeroise_hide : ∀ a key slot s m, 0x1823d0f#26 &&& ~~~m = 0#26 → hide m (doKvtZeroise a key slot
    s) = hide m s := by
  intro a key slot s m h; refine hide_le (k := 0x1823d0f#26) ?_ h; unfold doKvtZeroise; simp

@[simp ↓] theorem kvtMsgRefuse_hide : ∀ msg code s m, 0x1822108#26 &&& ~~~m = 0#26 → hide m (kvtMsgRefuse msg code s)
    = hide m s := by
  intro msg code s m h; refine hide_le (k := 0x1822108#26) ?_ h; unfold kvtMsgRefuse; simp

@[simp ↓] theorem importKey_hide : ∀ msg checkOk s m, 0x1863d08#26 &&& ~~~m = 0#26 → hide m (importKey msg checkOk s)
    = hide m s := by
  intro msg checkOk s m h; refine hide_le (k := 0x1863d08#26) ?_ h; unfold importKey; simp

@[simp ↓] theorem zeroNamed_hide : ∀ msg s m, 0x1823d08#26 &&& ~~~m = 0#26 → hide m (zeroNamed msg s) = hide m s := by
  intro msg s m h; refine hide_le (k := 0x1823d08#26) ?_ h; unfold zeroNamed; simp

@[simp ↓] theorem doKvtPubkey_hide : ∀ a key slot dmaOk s m, 0x1822d0f#26 &&& ~~~m = 0#26 → hide m (doKvtPubkey a key
    slot dmaOk s) = hide m s := by
  intro a key slot dmaOk s m h; refine hide_le (k := 0x1822d0f#26) ?_ h; unfold doKvtPubkey; simp

@[simp ↓] theorem kvtGoOn_hide : ∀ s m, 0x1863d08#26 &&& ~~~m = 0#26 → hide m (kvtGoOn s) = hide m s := by
  intro s m h; refine hide_le (k := 0x1863d08#26) ?_ h; unfold kvtGoOn; simp

@[simp ↓] theorem imageSwap_hide : ∀ i x ok cause s m, 0x1863d88#26 &&& ~~~m = 0#26 → hide m (imageSwap i x ok cause
    s) = hide m s := by
  intro i x ok cause s m h; refine hide_le (k := 0x1863d88#26) ?_ h; unfold imageSwap; simp

@[simp ↓] theorem doImageWriteDone_hide : ∀ ok cause s m, 0x1863d88#26 &&& ~~~m = 0#26 → hide m (doImageWriteDone ok
    cause s) = hide m s := by
  intro ok cause s m h; refine hide_le (k := 0x1863d88#26) ?_ h; unfold doImageWriteDone; (repeat' first | split | dsimp only) <;> simp

@[simp ↓] theorem doRestoreDone_hide : ∀ s m, 0x1862108#26 &&& ~~~m = 0#26 → hide m (doRestoreDone s) = hide m s := by
  intro s m h; refine hide_le (k := 0x1862108#26) ?_ h; unfold doRestoreDone; simp

@[simp ↓] theorem doRemaskPass_hide : ∀ delayUs s m, 0x1862108#26 &&& ~~~m = 0#26 → hide m (doRemaskPass delayUs s) =
    hide m s := by
  intro delayUs s m h; refine hide_le (k := 0x1862108#26) ?_ h; unfold doRemaskPass; simp

end Sys2Proof.Machine
end

