-- ==== Sys2Proof/Laws/Watchdog.lean ====
section
/-! SUPPORT. What the operations of Machine/Watchdog.lean leave as it was: every block of the state they do not name, and the
queue. -/

namespace Sys2Proof.Machine

@[simp ↓] theorem newPeriod_hide : ∀ s m, 0x200000#26 &&& ~~~m = 0#26 → hide m (newPeriod s) = hide m s := by
  intro s m h; refine hide_le (k := 0x200000#26) ?_ h; unfold newPeriod; simp

@[simp ↓] theorem wdgExpire_hide : ∀ cause s m, 0x1ffffff#26 &&& ~~~m = 0#26 → hide m (wdgExpire cause s) = hide m s
    := by
  intro cause s m h; refine hide_le (k := 0x1ffffff#26) ?_ h; unfold wdgExpire; simp

@[simp ↓] theorem doWdgDevStart_hide : ∀ a key s m, 0x1a0290f#26 &&& ~~~m = 0#26 → hide m (doWdgDevStart a key s) =
    hide m s := by
  intro a key s m h; refine hide_le (k := 0x1a0290f#26) ?_ h; unfold doWdgDevStart; simp

@[simp ↓] theorem dupCheckin_hide : ∀ t s m, 0x1ffffff#26 &&& ~~~m = 0#26 → hide m (dupCheckin t s) = hide m s := by
  intro t s m h; refine hide_le (k := 0x1ffffff#26) ?_ h; unfold dupCheckin; simp

@[simp ↓] theorem checkin_hide : ∀ t s m, 0x1ffffff#26 &&& ~~~m = 0#26 → hide m (checkin t s) = hide m s := by
  intro t s m h; refine hide_le (k := 0x1ffffff#26) ?_ h; unfold checkin; simp

@[simp ↓] theorem doWdgCheckin_hide : ∀ a key task s m, 0x1ffffff#26 &&& ~~~m = 0#26 → hide m (doWdgCheckin a key task
    s) = hide m s := by
  intro a key task s m h; refine hide_le (k := 0x1ffffff#26) ?_ h; unfold doWdgCheckin; simp

@[simp ↓] theorem doWdgWindowOpen_hide : ∀ s m, 0x200000#26 &&& ~~~m = 0#26 → hide m (doWdgWindowOpen s) = hide m s :=
    by
  intro s m h; refine hide_le (k := 0x200000#26) ?_ h; unfold doWdgWindowOpen; simp

@[simp ↓] theorem doWdgPeriodEnd_hide : ∀ s m, 0x1ffffff#26 &&& ~~~m = 0#26 → hide m (doWdgPeriodEnd s) = hide m s :=
    by
  intro s m h; refine hide_le (k := 0x1ffffff#26) ?_ h; unfold doWdgPeriodEnd; simp

@[simp ↓] theorem platExpire_hide : ∀ d cause token s m, 0x1e9e58c#26 &&& ~~~m = 0#26 → hide m (platExpire d cause
    token s) = hide m s := by
  intro d cause token s m h; refine hide_le (k := 0x1e9e58c#26) ?_ h; unfold platExpire; simp

@[simp ↓] theorem kick_hide : ∀ d token s m, 0x1e9e58c#26 &&& ~~~m = 0#26 → hide m (kick d token s) = hide m s := by
  intro d token s m h; refine hide_le (k := 0x1e9e58c#26) ?_ h; unfold kick; simp

@[simp ↓] theorem doPlatKick_hide : ∀ a d token s m, 0x1e9ed8f#26 &&& ~~~m = 0#26 → hide m (doPlatKick a d token s) =
    hide m s := by
  intro a d token s m h; refine hide_le (k := 0x1e9ed8f#26) ?_ h; unfold doPlatKick; simp

@[simp ↓] theorem doPlatWdgExpiry_hide : ∀ d s m, 0x1e9e58c#26 &&& ~~~m = 0#26 → hide m (doPlatWdgExpiry d s) = hide m
    s := by
  intro d s m h; refine hide_le (k := 0x1e9e58c#26) ?_ h; unfold doPlatWdgExpiry; simp

end Sys2Proof.Machine
end

