-- ==== Sys2Proof/Laws/Registers.lean ====
section
/-! SUPPORT. What the operations of Machine/Registers.lean leave as it was: every block of the state they do not name, and the
queue. -/

namespace Sys2Proof.Machine

@[simp ↓] theorem undefWrite_hide : ∀ a off s m, 0x1802008#26 &&& ~~~m = 0#26 → hide m (undefWrite a off s) = hide m s
    := by
  intro a off s m h; refine hide_le (k := 0x1802008#26) ?_ h; unfold undefWrite; simp

@[simp ↓] theorem msixWrite_hide : ∀ f w be v s m, 0x1002100#26 &&& ~~~m = 0#26 → hide m (msixWrite f w be v s) = hide
    m s := by
  intro f w be v s m h; refine hide_le (k := 0x1002100#26) ?_ h; unfold msixWrite; simp

@[simp ↓] theorem txCtrlWrite_hide : ∀ v s m, 0x1882508#26 &&& ~~~m = 0#26 → hide m (txCtrlWrite v s) = hide m s := by
  intro v s m h; refine hide_le (k := 0x1882508#26) ?_ h; unfold txCtrlWrite; simp

@[simp ↓] theorem pmcCtrlWrite_hide : ∀ v s m, 0x1e6614a#26 &&& ~~~m = 0#26 → hide m (pmcCtrlWrite v s) = hide m s :=
    by
  intro v s m h; refine hide_le (k := 0x1e6614a#26) ?_ h; unfold pmcCtrlWrite; simp

end Sys2Proof.Machine
end

