-- ==== Sys2Proof/Laws/SaddleCmd.lean ====
section
/-! SUPPORT. What the operations of Machine/SaddleCmd.lean leave as it was: every block of the state they do not name, and the
queue. -/

namespace Sys2Proof.Machine

@[simp ↓] theorem opEnded_hide : ∀ c s m, 0x1816188#26 &&& ~~~m = 0#26 → hide m (opEnded c s) = hide m s := by
  intro c s m h; refine hide_le (k := 0x1816188#26) ?_ h; unfold opEnded; simp

@[simp ↓] theorem doFlashReady_hide : ∀ c s m, 0x1e9e58c#26 &&& ~~~m = 0#26 → hide m (doFlashReady c s) = hide m s :=
    by
  intro c s m h; refine hide_le (k := 0x1e9e58c#26) ?_ h; unfold doFlashReady; simp

@[simp ↓] theorem doPresentedDeviceReset_hide : ∀ c waitUs s m, 0x1816188#26 &&& ~~~m = 0#26 → hide m
    (doPresentedDeviceReset c waitUs s) = hide m s := by
  intro c waitUs s m h; refine hide_le (k := 0x1816188#26) ?_ h; unfold doPresentedDeviceReset; simp

@[simp ↓] theorem mailbox_hide (c : Fin 16) (write : Bool) (k : State → State) (s : State) (m : BitVec 26) (hm :
    0x1806128#26 &&& ~~~m = 0#26) (h : ∀ s, hide m (k s) = hide m s) : hide m (mailbox c write k s) = hide m s := by
  have t (k : BitVec 26) (hk : k &&& ~~~0x1806128#26 = 0#26) : k &&& ~~~m = 0#26 := sub_trans hk hm
  unfold mailbox; (repeat' first | split | dsimp only) <;> simp [h, t]

@[simp ↓] theorem doMailboxCommit_hide : ∀ c o s m, 0x181692e#26 &&& ~~~m = 0#26 → hide m (doMailboxCommit c o s) =
    hide m s := by
  intro c o s m h; refine hide_le (k := 0x181692e#26) ?_ h; unfold doMailboxCommit; simp

@[simp ↓] theorem doMailboxAbandon_hide : ∀ c o s m, 0x18161a8#26 &&& ~~~m = 0#26 → hide m (doMailboxAbandon c o s) =
    hide m s := by
  intro c o s m h; refine hide_le (k := 0x18161a8#26) ?_ h; unfold doMailboxAbandon; simp

@[simp ↓] theorem doMailboxRead_hide : ∀ c s m, 0x1806128#26 &&& ~~~m = 0#26 → hide m (doMailboxRead c s) = hide m s
    := by
  intro c s m h; refine hide_le (k := 0x1806128#26) ?_ h; unfold doMailboxRead; simp

end Sys2Proof.Machine
end

