-- ==== Sys2Proof/Laws/Shadow.lean ====
section
/-! SUPPORT. What the loading of the fuse shadows leaves of the controller: the array as it was, and PASS of each region by its
own integrity; loads in which every region passes raise no alarm. -/

namespace Sys2Proof.Machine

/-- What a region reads as is the array's alone. -/
theorem regWords_array (f g : Fus) (r : Nat) (h : f.array = g.array) : regWords f r = regWords g r := by
  have k (a : Nat) : fuseRead f a = fuseRead g a := by unfold fuseRead fuseCell; rw [h]
  simp only [regWords, k]

theorem logRead_fus (a : Nat) (x : FuseRead) (s : State) :
    (logRead a x s).fus.array = s.fus.array ∧ (logRead a x s).fus.pass = s.fus.pass ∧
      (logRead a x s).fus.lockR = s.fus.lockR := by
  unfold logRead; refine ⟨?_, ?_, ?_⟩ <;> simp <;> split <;> rfl

theorem logReads_fus {α : Type} (f : α → Nat) (g : α → FuseRead) (l : List α) (s : State) :
    (l.foldl (fun s i => logRead (f i) (g i) s) s).fus.array = s.fus.array ∧
      (l.foldl (fun s i => logRead (f i) (g i) s) s).fus.pass = s.fus.pass := by
  induction l generalizing s with
  | nil => exact ⟨rfl, rfl⟩
  | cons a l ih => exact ⟨(ih _).1.trans (logRead_fus ..).1, (ih _).2.trans (logRead_fus ..).2.1⟩

theorem loadRegion_array (early : Bool) (r : Nat) (s : State) : (loadRegion early r s).fus.array = s.fus.array := by
  unfold loadRegion; (repeat' first | split | dsimp only) <;> simp [(logReads_fus ..).1]

theorem loadRegion_pass (early : Bool) (r : Nat) (s : State) :
    (loadRegion early r s).fus.pass = bvPut s.fus.pass r (regReasons early r (regWords s.fus r)).isEmpty := by
  unfold loadRegion; (repeat' first | split | dsimp only) <;> simp_all [(logReads_fus ..).2]

/-- A bit put is read back, inside the mask. -/
theorem getLsbD_bvPut_self {w : Nat} (b : BitVec w) (i : Nat) (h : i < w) : (bvPut b i true).getLsbD i = true := by
  rw [bvPut, if_pos rfl, BitVec.getLsbD_or, BitVec.getLsbD_ofNat, Nat.testBit_two_pow_self, decide_eq_true h, Bool.and_self,
    Bool.or_true]

/-- A bit that is set stays set as others are put. -/
theorem getLsbD_bvPuts_of_getLsbD {w : Nat} (rs : List Nat) (b : BitVec w) (i : Nat) (h : b.getLsbD i = true) :
    (rs.foldl (fun b r => bvPut b r true) b).getLsbD i = true := by
  induction rs generalizing b with
  | nil => exact h
  | cons r rs ih => exact ih (bvPut b r true) (by rw [bvPut, if_pos rfl, BitVec.getLsbD_or, h, Bool.true_or])

/-- Every bit put is read back. -/
theorem getLsbD_bvPuts {w : Nat} (rs : List Nat) (b : BitVec w) (i : Nat) (h : i < w) (hi : i ∈ rs) :
    (rs.foldl (fun b r => bvPut b r true) b).getLsbD i = true := by
  induction rs generalizing b with
  | nil => cases hi
  | cons r rs ih =>
    rcases List.mem_cons.mp hi with rfl | hi
    · exact getLsbD_bvPuts_of_getLsbD rs _ i (getLsbD_bvPut_self b i h)
    · exact ih _ hi

/-- A region that passes is loaded without an alarm. -/
theorem loadAlarm_pass (early : Bool) (r : Nat) (s : State) (hr : r < 12) (h : regReasons early r (regWords s.fus r) = []) :
    loadAlarm r (loadRegion early r s) = loadRegion early r s := by
  simp [loadAlarm, regPass, loadRegion_pass, h, getLsbD_bvPut_self _ _ hr]

/-- The life-cycle state is the array's alone. -/
theorem earlyLife_array (s t : State) (h : s.fus.array = t.fus.array) : earlyLife s = earlyLife t := by
  simp only [earlyLife, regWords_array _ _ _ h]

/-- Regions that all pass as the array reads are loaded without an alarm (04 R94, R95). -/
theorem loads_pass (rs : List Nat) (s : State) (hr : ∀ r ∈ rs, r < 12)
    (h : ∀ r ∈ rs, regReasons (earlyLife s) r (regWords s.fus r) = []) :
    let t := rs.foldl (fun s r => loadAlarm r (loadRegion (earlyLife s) r s)) s
    t.fus.array = s.fus.array ∧ t.fus.pass = rs.foldl (fun b r => bvPut b r true) s.fus.pass ∧ t.glb = s.glb ∧
      t.rst = s.rst ∧ t.tmp = s.tmp ∧ t.boot = s.boot := by
  induction rs generalizing s with
  | nil => exact ⟨rfl, rfl, rfl, rfl, rfl, rfl⟩
  | cons r rs ih =>
    have h1 := h r (by simp)
    have e := loadAlarm_pass (earlyLife s) r s (hr r (by simp)) h1
    have a := loadRegion_array (earlyLife s) r s
    have l := earlyLife_array _ _ a
    simp only [List.foldl_cons, e]
    have k := ih (loadRegion (earlyLife s) r s) (fun x hx => hr x (by simp [hx]))
      (fun x hx => by rw [l, regWords_array _ _ x a]; exact h x (by simp [hx]))
    simp only at k
    rw [k.1, k.2.1, k.2.2.1, k.2.2.2.1, k.2.2.2.2.1, k.2.2.2.2.2]
    refine ⟨a, ?_, by simp, by simp, by simp, by simp⟩
    rw [loadRegion_pass, h1]; rfl

theorem loadShadows_pass (rs : List Nat) (s : State) (hr : ∀ r ∈ rs, r < 12)
    (h : ∀ r ∈ rs, regReasons (earlyLife s) r (regWords s.fus r) = []) :
    (loadShadows rs s).fus.array = s.fus.array ∧
      (loadShadows rs s).fus.pass = rs.foldl (fun b r => bvPut b r true) s.fus.pass ∧ (loadShadows rs s).glb = s.glb ∧
      (loadShadows rs s).rst = s.rst ∧ (loadShadows rs s).tmp = s.tmp ∧
      ∃ v, (loadShadows rs s).boot = { s.boot with valid := v } := by
  have k := loads_pass rs s hr h
  simp only at k
  refine ⟨k.1, k.2.1, k.2.2.1, k.2.2.2.1, k.2.2.2.2.1, (loadShadows rs s).boot.valid, ?_⟩
  rw [← k.2.2.2.2.2]; rfl

end Sys2Proof.Machine
end

