-- ==== Sys2Proof/Laws/Start.lean ====
section
/-! SUPPORT. What the operations of Machine/Start.lean leave as it was: every block of the state they do not name, and the
queue. -/

namespace Sys2Proof.Machine

@[simp ↓] theorem doSupplyValid_hide : ∀ i s m, 0x1ffffff#26 &&& ~~~m = 0#26 → hide m (doSupplyValid i s) = hide m s
    := by
  intro i s m h; refine hide_le (k := 0x1ffffff#26) ?_ h; unfold doSupplyValid; simp

@[simp ↓] theorem doDevRstRelease_hide : ∀ i s m, 0x1ffffff#26 &&& ~~~m = 0#26 → hide m (doDevRstRelease i s) = hide m
    s := by
  intro i s m h; refine hide_le (k := 0x1ffffff#26) ?_ h; unfold doDevRstRelease; simp

@[simp ↓] theorem doWarmResetRelease_hide : ∀ i s m, 0x1ffffff#26 &&& ~~~m = 0#26 → hide m (doWarmResetRelease i s) =
    hide m s := by
  intro i s m h; refine hide_le (k := 0x1ffffff#26) ?_ h; unfold doWarmResetRelease; simp

end Sys2Proof.Machine
end

