-- ==== Sys2Proof/Laws/Timebase.lean ====
section
/-! SUPPORT. What the operations of Machine/Timebase.lean leave as it was: every block of the state they do not name, and the
queue. -/

namespace Sys2Proof.Machine

@[simp ↓] theorem doTimebaseLoss_hide : ∀ s m, 0x1ffffff#26 &&& ~~~m = 0#26 → hide m (doTimebaseLoss s) = hide m s :=
    by
  intro s m h; refine hide_le (k := 0x1ffffff#26) ?_ h; unfold doTimebaseLoss; simp

@[simp ↓] theorem doTimebaseRestore_hide : ∀ s m, 0x1802018#26 &&& ~~~m = 0#26 → hide m (doTimebaseRestore s) = hide m
    s := by
  intro s m h; refine hide_le (k := 0x1802018#26) ?_ h; unfold doTimebaseRestore; simp

@[simp ↓] theorem doRef32Loss_hide : ∀ s m, 0x1ffffff#26 &&& ~~~m = 0#26 → hide m (doRef32Loss s) = hide m s := by
  intro s m h; refine hide_le (k := 0x1ffffff#26) ?_ h; unfold doRef32Loss; simp

@[simp ↓] theorem doRef32Restore_hide : ∀ s m, 0x1902018#26 &&& ~~~m = 0#26 → hide m (doRef32Restore s) = hide m s :=
    by
  intro s m h; refine hide_le (k := 0x1902018#26) ?_ h; unfold doRef32Restore; simp

end Sys2Proof.Machine
end

