-- ==== Sys2Proof/Tests/Slice0.lean ====
section
/-! SUPPORT. The model's own tests: what a well-formed command is, one state that meets the hypotheses of every clause of
every statement (`witness_<statement>`, its conjuncts in the statement's order), and single steps against values that the
spec states. -/

namespace Sys2Proof.Tests

open Sys2Proof Sys2Proof.Machine Sys2Proof.Safety

/-- A start at 12 V with nothing amiss, DEV_RST# high. -/
def start : StartIn := ⟨12000#16, 0#32, true, 3000#12, 25, false, 0#11, false, false, 0#32, []⟩

/-- A flash of 2^24 bytes. -/
def flashId : FlashId := ⟨0xEF4018#24, 24, 7, true, true, [], [(0x20#8, 4096)]⟩

/-! ### Commands the world cannot send -/

theorem test_wf_bar : wf (.unservedBarAccess .pf0 1 0#34 false) = false := by decide
theorem test_wf_bar_ok : wf (.unservedBarAccess .pf0 2 0#34 false) = true := by decide
theorem test_wf_read_len : wf (.bar2Read 0#34 0 ⟨[], []⟩) = false := by decide
theorem test_wf_read_4k : wf (.bar2Read 0xFFC#34 5 ⟨[], []⟩) = false := by decide
theorem test_wf_window : wf (.windowRead .pf0 0xFFFFFF#24 2 0 []) = false := by decide
theorem test_wf_width : wf (.linkUp 3#5 false false) = false := by decide
theorem test_wf_speed : wf (.linkSpeedChange 0#3 16#5) = false := by decide
theorem test_wf_start : wf (.supplyValid { start with stepUs := List.replicate 13 0 }) = false := by decide
theorem test_wf_fetch : wf (.descriptorFetch 0 0 []) = false := by decide
theorem test_wf_flash_cmd : wf (.cmdProgram 0 ⟨2#8, 0#8, 0#32, 0, [0#8]⟩) = false := by decide
theorem test_wf_flash_cmd_ok : wf (.cmdProgram 0 ⟨2#8, 0#8, 0#32, 1, [0#8]⟩) = true := by decide
theorem test_wf_flash_id : wf (.discovery 0 ⟨some { flashId with erases := [(0x20#8, 0)] }, none⟩) = false := by decide
theorem test_wf_dummy : wf (.discovery 0 ⟨some { flashId with minDummy := [(0x0B#8, 256)] }, none⟩) = false := by decide

/-! ### States -/

/-- After device ready in OPERATIONAL, on VIN, in L0, the link up, PF0 decoding. -/
def on : State := { State.reset with
  glb := { ready := true, lc := 3#3, phase := 15#4 }
  pwr := { supplyValid := true, vinPresent := true, vinMv := 12000#16 }
  tbs := { onRc := false, xtal := true, tick := 1000#64 }
  boot := { cluster0 := true }
  wsh := { started := true, len := 25000 }
  hlk := { speed := 1#3, width := 16#5, pm := 0#3, fns := (Vector.replicate 16 {}).set 0 { bme := true, mse := true } }
  ent := { st := .running }
  evr := { ph := .running } }

theorem reach_on (a : Agent) (o : Nat) (h : a = .mgmt ∨ a = .pf0) : Reach a o on := by
  rcases h with rfl | rfl
  · exact And.intro (by decide) (by decide)
  · exact ⟨by decide, by decide, by rfl⟩

/-! ### Witnesses -/

theorem witness_SupplyCommands :
    (on.pwr.vinPresent = true ∧ on.pwr.onHoldup = false ∧ on.pwr.supplyValid = true) ∧
    ((on.modPwr fun p => { p with onHoldup := true }).pwr.onHoldup = true ∧ 5400 ≤ (5400#16).toNat) ∧
    (onVin on = true ∧ (10999#16).toNat < 11000) ∧
    (onVin (on.modPwr fun p => { p with forceVin := true }) = true ∧
      (on.modPwr fun p => { p with forceVin := true }).pwr.forceVin = true ∧ 12000 < (12001#16).toNat) ∧
    (on.pwr.supplyValid = true ∧ 50000 < (50001#16).toNat) ∧
    ((on.modPwr fun p => { p with onHoldup := true }).pwr.onHoldup = true ∧
      (on.modPwr fun p => { p with onHoldup := true }).rst.ph ≠ .coldHeld) ∧
    (State.reset.aon.batteryOnly = false ∧ State.reset.pwr.supplyValid = false ∧ 2200 ≤ (2200#12).toNat) ∧
    ((49000#24).toNat ≤ capMw on → False) ∧ ((48000#24).toNat ≤ capMw on) ∧
    ((on.pwr.tjHigh.toNat : Int) ≤ 115) ∧
    ((on.modPwr fun p => { p with forceTherm := true }).pwr.forceTherm = true ∧
      (104 : Int) < (on.pwr.tjHigh.toNat : Int) - on.pwr.hyst.toNat) := by
  and_intros <;> decide

theorem witness_RailCommands :
    (Reach .mgmt 0x100018 on ∧ lowRung on = false ∧ on.pwr.vfEn = false ∧ on.pwr.vflashFault = false) ∧
    (let s := on.modPwr fun p => { p with vflashOn := true, vfRetry := .retrying }
     s.pwr.vflashOn = true ∧ s.pwr.vfRetry = .retrying) ∧
    (let s := on.modPwr fun p => { p with vfEn := true, vfRetry := .tripped }
     s.pwr.vfRetry = .tripped ∧ s.pwr.vfEn = true ∧ lowRung s = false ∧ s.pwr.vflashFault = false) ∧
    unsealedMask on = 0#16 ∧ (Reach .pf0 0x100004 on ∧ writeCause .live 0x10 on = 0 ∧ 2#2 ≠ 3#2) := by
  and_intros <;> first | decide | exact reach_on _ _ (by decide)

/-- A plan for domain 0 whose DOM_PG is an enabled input, its level not good. -/
def onPg : State := modDom 0 (fun x => { x with plan := some { pgReq := true } }) on

theorem witness_RungCommands :
    (on.pwr.idleEn = true ∧ on.pwr.rung = .run ∧ canIdle on false = true) ∧
    (let s := on.modPwr fun p => { p with dozeEn := true, rung := .idle }
     s.pwr.dozeEn = true ∧ s.pwr.rung = .idle ∧ canIdle s true = true) ∧
    (Reach .mgmt 0x100008 on ∧ on.hlk.pmeWait = none) ∧
    (let s := on.modPwr fun p => { p with rungResult := 1#2, rungTarget := 2#3 }
     idlePending s = true ∧ canIdle s (s.pwr.rungTarget == 2#3) = true) ∧
    (on.pwr.wakePend = none ∧ canSleep (leaveIdle on) = true ∧ on.hlk.speed ≠ 0#3) ∧
    (let s := on.modHlk fun h => { h with speed := 0#3 }
     Reach .mgmt 0x100008 s ∧ s.hlk.pmeWait = none ∧ s.pwr.wakePend = none ∧ canSleep (leaveIdle s) = true ∧ s.hlk.speed = 0#3) ∧
    (let s := on.modPwr fun p => { p with rung := .nap, wakeGpio := 0x80#8, wakeEn := 0x10#5 }
     lowRung s = true ∧ wakeEnabled 4 s = true) ∧
    (let s := on.modPwr fun p => { p with rung := .retain, wakeTimer := 1#24 }
     s.pwr.wakeTimer ≠ 0#24 ∧ lowRung s = true ∧ wakeEnabled 2 s = true) ∧
    (let s := (onPg.modPwr fun p => { p with retainOnPg := true }).modHlk fun h => { h with speed := 0#3 }
     s.pwr.retainOnPg = true ∧ lowRung s = false ∧ s.hlk.pmeWait = none ∧ s.glb.ready = true ∧
       (∃ d : Fin 32, pgEnabled s d = true) ∧ (∀ d : Fin 32, pgEnabled s d = true → s.pins.domPg.getLsbD d.val = false) ∧
       canSleep s = true ∧ s.pwr.wakePend = none ∧ s.hlk.speed = 0#3) := by
  and_intros <;> first | decide | exact reach_on _ _ (by decide) | exact And.intro (by decide) (by decide)
/-- A fuse array whose regions with a completion word are complete, all other words blank. -/
def fuses : List (Nat × BitVec 39 × BitVec 39) :=
  [(0x3F, 0x69C5009116#39), (0x5F, 0x6EC51077F0#39), (0xFF, 0x2EC5600000#39), (0x13F, 0x23C57083F2#39),
    (0x17F, 0x34C5809116#39), (0x27F, 0x2BC590630C#39), (0x37F, 0x6FC5A00000#39)].map fun x => (x.1, x.2, x.2)

def off : State := { State.reset with fus := { array := fuses } }

def good : StartIn := { start with selftest := 0x7FF#11, batPresent := false }

theorem fuses_life : lifeDecode (regWords { array := fuses } 2) = some (0, 0) := by decide +kernel
set_option maxRecDepth 100000 in
theorem fuses_0 : regReasons true 0 (regWords { array := fuses } 0) = [] := by decide +kernel
set_option maxRecDepth 100000 in
theorem fuses_1 : regReasons true 1 (regWords { array := fuses } 1) = [] := by decide +kernel
set_option maxRecDepth 100000 in
theorem fuses_2 : regReasons true 2 (regWords { array := fuses } 2) = [] := by decide +kernel
set_option maxRecDepth 100000 in
theorem fuses_6 : regReasons true 6 (regWords { array := fuses } 6) = [] := by decide +kernel
set_option maxRecDepth 100000 in
theorem fuses_7 : regReasons true 7 (regWords { array := fuses } 7) = [] := by decide +kernel
set_option maxRecDepth 100000 in
theorem fuses_8 : regReasons true 8 (regWords { array := fuses } 8) = [] := by decide +kernel
set_option maxRecDepth 100000 in
theorem fuses_9 : regReasons true 9 (regWords { array := fuses } 9) = [] := by decide +kernel
set_option maxRecDepth 100000 in
theorem fuses_10 : regReasons true 10 (regWords { array := fuses } 10) = [] := by decide +kernel
set_option maxRecDepth 100000 in
theorem fuses_11 : regReasons true 11 (regWords { array := fuses } 11) = [] := by decide +kernel
theorem fuses_pass (r : Nat) (h : r ∈ 0 :: step4Regions) : regReasons true r (regWords { array := fuses } r) = [] := by
  simp only [step4Regions, List.mem_cons, List.not_mem_nil, or_false] at h
  rcases h with rfl | rfl | rfl | rfl | rfl | rfl | rfl | rfl | rfl
  · exact fuses_0
  · exact fuses_1
  · exact fuses_2
  · exact fuses_6
  · exact fuses_7
  · exact fuses_8
  · exact fuses_9
  · exact fuses_10
  · exact fuses_11
set_option maxRecDepth 100000 in
theorem fuses_patch : patchEntries (regWords { array := fuses } 11) = some [] := by decide +kernel

theorem start_passes (s : State) (h : s.fus.array = fuses) : StartPasses good s := by
  have hw (f : Fus) (k : f.array = fuses) (r : Nat) : regWords f r = regWords { array := fuses } r := regWords_array _ _ _ k
  have he (t : State) (k : t.fus.array = fuses) : earlyLife t = true := by simp only [earlyLife, hw _ k, fuses_life]; rfl
  let s0 := s.modBoot fun b => { b with valid := 0#8 }
  have l0 := loadShadows_pass [0] s0 (by decide) (fun r hr => by
    rw [he s0 h, hw s0.fus h]; exact fuses_pass r (by simp_all))
  let s1 := loadShadows [0] s0
  let s2 := (stepDone 2 good s1).modTbs fun t => { t with xtal := true, onRc := false }
  let s3 := stepDone 3 good (ev 0x2001#16 good.xtalUs.toNat 0 0 s2)
  have a3 : s3.fus.array = fuses := by simp [s3, s2, s1, l0.1, s0, h]
  have l1 := loadShadows_pass step4Regions s3 (by decide) (fun r hr => by
    rw [he s3 a3, hw _ a3]; exact fuses_pass r (by simp_all))
  have p0 : regPass s1 0 = true := by simpa [regPass, s1, l0.2.1] using getLsbD_bvPut_self s0.fus.pass 0 (by decide)
  have p1 (r : Nat) (hr : r ∈ step4Regions) : regPass (loadShadows step4Regions s3) r = true := by
    simp only [regPass, l1.2.1]; exact getLsbD_bvPuts _ _ r (by revert r; decide) hr
  let s4 := loadShadows step4Regions s3
  have e : steps2to4 good s = (0, stepDone 4 good (startWdg (s4.modTmp fun t => { t with resp := startSets s4 }))) := by
    simp only [steps2to4]
    rw [if_neg (by simp; exact p0), if_neg (by simp; exact p1 1 (by decide))]
  refine ⟨by rw [e], ?_⟩
  rw [e]; dsimp only
  let s5 := stepDone 4 good (startWdg (s4.modTmp fun t => { t with resp := startSets s4 }))
  have a5 : s5.fus.array = fuses := by simp [s5, s4, l1.1, a3]
  have q (r : Nat) (hr : r ∈ step4Regions) : regPass s5 r = true := by
    have := p1 r hr
    simpa [regPass, s5, s4] using this
  show (steps5to8 good s5).1 = 0 ∧ (steps5to8 good s5).2.glb.lc ≠ 7#3
  have r11 := q 11 (by decide)
  have r2 := q 2 (by decide)
  rw [steps5to8]
  have pa : applyPatches s5 = (true, (applyPatches s5).2) := by
    simp only [applyPatches, r11, if_true, hw _ a5, fuses_patch]
  rw [pa]; dsimp only
  let s6 := (stepDone 5 good (applyPatches s5).2)
  have f6 : s6.fus = s5.fus := by simp [s6]
  have dl : decodeLife s6 = (true, s6.modGlb fun g => { g with lc := 0#3 }) := by
    simp only [decodeLife, regPass, f6, hw _ a5, fuses_life]; rw [show s5.fus.pass.getLsbD 2 = true from r2]; rfl
  rw [dl]; dsimp only
  let s7 := s6.modGlb fun g => { g with lc := 0#3 }
  have lr : loadRoot s7 = (true, s7) := rfl
  rw [lr]; dsimp only
  have st (t : State) : (selfTests good t).1 = 0 := rfl
  rw [if_neg (by simp), if_neg (by simp), if_neg (by simp), if_neg (by simp [st])]
  refine ⟨rfl, ?_⟩
  simp [stepDone]; show ¬ (0#3 = 7#3); decide

theorem startAlarms_none (s : State) (h : s.tmp.active = 0#17) (b : s.pwr.batPresent = false) :
    (startAlarms s).fus = s.fus := by
  have f (l : List (Fin 15)) (t : State) : (l.foldl (fun s _ => s) t) = t := by induction l <;> simp_all
  unfold startAlarms; simp only [h, b, Bool.and_false, Bool.false_and, Bool.not_false, BitVec.getLsbD_zero, Bool.false_eq_true, if_false, f]
  rfl

theorem supplyFound_array : (supplyFound good off).fus.array = fuses := by
  have h : (senseStart good (off.modEvr fun e => { e with ph := .staging })).tmp.active = 0#17 := by decide +kernel
  have b : (senseStart good (off.modEvr fun e => { e with ph := .staging })).pwr.batPresent = false := by decide +kernel
  rw [supplyFound, State.modPins_fus, startAlarms_none _ h b]; simp [off]

set_option maxRecDepth 100000 in
theorem trim_fails : ∀ b : Bool, let r := steps2to4 good (step1Done good (supplyFound good
    (State.reset.modAon fun a => { a with startRetry := b }))); r.1 ≠ 0 ∧ r.2.aon.startRetry = b := by decide +kernel

set_option maxRecDepth 100000 in
theorem warm_root : retainedCheck (State.reset.modBoot fun b => { b with imgMeas := BitVec.ofNat 384 (leNat (sha3_384 [])) }) = 0 := by
  decide +kernel

/-- A transition to TERMINATED is in progress: word A of step 4 alone. -/
def transfer : State := { State.reset with
  fus := { array := [(0x66, (lifeWord false 4).2, (lifeWord false 4).2)] }
  rst := { transHold := true }, pwr := { holdRdy := true } }

set_option maxRecDepth 100000 in
theorem transfer_ends :
    let u := (resumeTransition 4 (transfer.modRst fun r => { r with transHold := false })).2
    lifeDecode (regWords transfer.fus 2) = some (7, 4) ∧
      (resumeTransition 4 (transfer.modRst fun r => { r with transHold := false })).1 = true ∧
      lifeDecode (regWords u.fus 2) = some (4, 0) ∧
      (loadRoot (u.modGlb fun g => { g with lc := 4#3 })).1 = true := by decide +kernel
def img (s : State) : Bool × Bytes × BitVec 384 × BitVec 2 := (s.boot.imgSecded, s.boot.imgCopy, s.boot.imgMeas, s.boot.src)

theorem stepDone_img (n : Nat) (i : StartIn) (s : State) : img (stepDone n i s) = img s := by simp [stepDone, img]

theorem applyPatches_img (s : State) : img (applyPatches s).2 = img s := by
  unfold applyPatches; split <;> simp [img]

theorem selfTests_img (i : StartIn) (s : State) : img (selfTests i s).2 = img s := by
  unfold selfTests; dsimp only; split <;> simp [img]

theorem warm_passes (s : State) (h : s.fus.array = fuses) (p : s.fus.pass = 0#12) :
    (warmSteps1to4 s.fus.pass good (warmLoad s)).1 = true ∧ img (warmSteps1to4 s.fus.pass good (warmLoad s)).2 = img s := by
  have hw (f : Fus) (k : f.array = fuses) (r : Nat) : regWords f r = regWords { array := fuses } r := regWords_array _ _ _ k
  have he (t : State) (k : t.fus.array = fuses) : earlyLife t = true := by simp only [earlyLife, hw _ k, fuses_life]; rfl
  let s0 := (if (s.modRst fun r => { r with ph := .none }).aon.buffer.isEmpty then
    flushStaged ((s.modRst fun r => { r with ph := .none }).modEvr fun e => { e with ph := .running })
    else recorderRuns (s.modRst fun r => { r with ph := .none })).modEvr fun e => { e with ph := .running }
  have a0 : s0.fus.array = fuses := by simp [s0, h]
  have b0 : s0.boot = s.boot := by simp [s0]
  have l1 := loadShadows_pass step4Regions s0 (by decide) (fun r hr => by
    rw [he s0 a0, hw _ a0]; exact fuses_pass r (by simp_all))
  let s1 := warmLoad s
  have e1 : s1 = startWdg (loadShadows step4Regions s0) := rfl
  have a1 : s1.fus.array = fuses := by simp [e1, l1.1, a0]
  have p1 (r : Nat) (hr : r ∈ step4Regions) : regPass s1 r = true := by
    simp only [regPass, e1, startWdg_keeps, l1.2.1]; exact getLsbD_bvPuts _ _ r (by revert r; decide) hr
  have q1 : img s1 = img s := by
    obtain ⟨v, hv⟩ := l1.2.2.2.2.2
    have : s1.boot = { s.boot with valid := v } := by rw [e1, ← b0, ← hv]; simp
    simp only [img, this]
  show (warmSteps1to4 s.fus.pass good s1).1 = true ∧ img (warmSteps1to4 s.fus.pass good s1).2 = img s
  have lost : lostRegion s.fus.pass s1 step4Regions = none := by simp [lostRegion, p]
  have lf : lifeDecode (regWords s1.fus 2) = some (0, 0) := by rw [hw _ a1]; exact fuses_life
  rw [warmSteps1to4, lost]; dsimp only; rw [lf]
  let s2 := stepDone 1 good s1
  have f2 : s2.fus = s1.fus := by simp [s2]
  have pa : applyPatches s2 = (true, (applyPatches s2).2) := by
    simp only [applyPatches, show regPass s2 11 = true from (by rw [regPass, f2]; exact p1 11 (by decide)), if_true, f2, hw _ a1,
      fuses_patch]
  rw [pa]; dsimp only
  let s3 := stepDone 2 good (applyPatches s2).2
  have f3 : s3.fus = s1.fus := by simp [s3, f2]
  have dl : decodeLife s3 = (true, s3.modGlb fun g => { g with lc := 0#3 }) := by
    simp only [decodeLife, regPass, f3, hw _ a1, fuses_life]
    rw [show s1.fus.pass.getLsbD 2 = true from p1 2 (by decide)]; rfl
  rw [dl]; dsimp only
  let s4 := s3.modGlb fun g => { g with lc := 0#3 }
  have lr : loadRoot s4 = (true, s4) := rfl
  rw [lr]; dsimp only
  have st (t : State) : (selfTests good t).1 = 0 := rfl
  rw [if_neg (by simp), if_neg (by simp), if_neg (by simp), if_neg (by simp [st])]
  refine ⟨rfl, ?_⟩
  show img (stepDone 4 good (selfTests good (stepDone 3 good s4)).2) = img s
  rw [stepDone_img, selfTests_img, stepDone_img]
  show img s3 = _
  rw [stepDone_img, applyPatches_img, stepDone_img, q1]

/-- In a warm reset, with the sealed defaults' retained image. -/
def warm : State := { State.reset with
  fus := { array := fuses }, rst := { ph := .warmHeld }
  boot := { imgMeas := BitVec.ofNat 384 (leNat (sha3_384 [])) } }

theorem warm_check : retainedCheck (warmSteps1to4 warm.fus.pass good (warmLoad warm)).2 = 0 := by
  have w := warm_root
  have k := (warm_passes warm rfl rfl).2
  generalize (warmSteps1to4 warm.fus.pass good (warmLoad warm)).2 = t at k ⊢
  simp only [img, Prod.mk.injEq] at k
  unfold retainedCheck at w ⊢
  rw [k.1, k.2.1, k.2.2.1, k.2.2.2]
  exact w

/-- At step 1, DEV_RST# low. -/
def held : State := off.modRst fun r => { r with heldStart := true }

theorem witness_StartCommands :
    (State.reset.pwr.supplyValid = false ∧ 5400 ≤ ({ good with vinMv := 5400#16, devRstLow := true } : StartIn).vinMv.toNat ∧
      State.reset.tmp.starting = true) ∧
    (off.pwr.supplyValid = false ∧ 5400 ≤ good.vinMv.toNat ∧ good.devRstLow = false ∧
      StartPasses good (step1Done good (supplyFound good off))) ∧
    (∀ b : Bool, let s := State.reset.modAon fun a => { a with startRetry := b }
      s.pwr.supplyValid = false ∧ (steps2to4 good (step1Done good (supplyFound good s))).1 ≠ 0 ∧
        (steps2to4 good (step1Done good (supplyFound good s))).2.aon.startRetry = b) ∧
    (held.rst.heldStart = true ∧ StartPasses good (step1Done good (ev 0x3010#16 good.holdMs.toNat 0 0
      (held.modPins fun p => { p with devRstLow := false })))) ∧
    (warm.rst.ph = .warmHeld ∧ (warmSteps1to4 warm.fus.pass good (warmLoad warm)).1 = true ∧
      retainedCheck (warmSteps1to4 warm.fus.pass good (warmLoad warm)).2 = 0) ∧
    (transfer.rst.transHold = true ∧ transfer.pwr.holdRdy = true ∧
      let u := (resumeTransition 4 (transfer.modRst fun r => { r with transHold := false })).2
      lifeDecode (regWords transfer.fus 2) = some (7, 4) ∧
        (resumeTransition 4 (transfer.modRst fun r => { r with transHold := false })).1 = true ∧
        lifeDecode (regWords u.fus 2) = some (4, 0) ∧ (loadRoot (u.modGlb fun g => { g with lc := 4#3 })).1 = true) := by
  refine ⟨by decide, ⟨rfl, by decide, rfl, start_passes _ ?_⟩, fun b => ⟨rfl, (trim_fails b).1, (trim_fails b).2⟩,
    ⟨rfl, start_passes _ ?_⟩, ⟨rfl, (warm_passes warm rfl rfl).1, warm_check⟩, rfl, rfl, transfer_ends⟩
  · simp [supplyFound_array]
  · simp [held, off]

theorem witness_ResetCommands :
    on.aon.batteryOnly = false ∧
    (on.pins.devRstLow = false ∧ on.pwr.supplyValid = true ∧ on.rst.ph = .none ∧ on.fus.prog = none) ∧
    (on.glb.lc = 3#3 ∧ on.fus.lcDone = false) ∧
    (let s := on.modFus fun f => { f with prog := some {} }
     s.aon.batteryOnly = false ∧ s.pwr.supplyValid = true ∧ s.rst.ph = .none ∧ s.fus.prog.isSome = true) ∧
    (let s := on.modRst fun r => { r with consec := 2#3 }
     Reach .mgmt 0xC s ∧ s.aon.batteryOnly = false ∧ s.pwr.supplyValid = true ∧ s.rst.ph = .none ∧ inColdStart s = false ∧
       s.fus.prog = none ∧ s.rst.consec.toNat < 3 ∧ clusterOn s 0 = true) ∧
    (let s := on.modRst fun r => { r with consec := 3#3 }
     Reach .mgmt 0xC s ∧ s.aon.batteryOnly = false ∧ s.pwr.supplyValid = true ∧ s.rst.ph = .none ∧ inColdStart s = false ∧
       s.fus.prog = none ∧ 3 ≤ s.rst.consec.toNat) ∧
    (let s := on.modRst fun r => { r with ph := .waitingCold }
     s.fus.prog = none ∧ s.rst.ph = .waitingCold) ∧
    (let s := on.modRst fun r => { r with ph := .waitingWarm, consec := 2#3 }
     s.fus.prog = none ∧ s.rst.ph = .waitingWarm ∧ s.rst.consec.toNat < 3) ∧
    (let s := modCh 3 (fun x => { x with devOp := some (0x02#8, false) }) on
     s.sdl.ch[(3 : Fin 16)].devOp = some (0x02#8, false) ∧ s.glb.ready = true) := by
  simp only [Reach]
  decide +kernel

theorem witness_BlockResetCommands :
    (Reach .mgmt 0x300008 on ∧ on.rst.ph = .none) ∧ (∀ b : Fin 10, blockIdle on b.castSucc = true) ∧ on.wsh.started = true ∧
    (on.evr.ph = .running ∧ on.evr.frozen = false ∧ on.boot.live = []) ∧
    lcClosed (on.modGlb fun g => { g with lc := 4#3 }) = true ∧
    (let s := on.modFus fun f => { f with busy := true }
     Reach .mgmt 0x300008 s ∧ s.rst.ph = .none ∧ blockIdle s 0 = false) ∧
    (let s := on.modJob fun j => { j with jobs := [{}] }
     Reach .mgmt 0x300008 s ∧ s.rst.ph = .none ∧ blockIdle s 2 = false) ∧
    (let s := on.modKvt fun k => { k with busy := true }
     Reach .mgmt 0x300008 s ∧ s.rst.ph = .none ∧ blockIdle s 5 = false) := by
  simp only [Reach]
  decide +kernel

/-- In MANUFACTURE, the fuses programmable; an erased word of ID addressed. -/
def man : State := ({ on with
  fus := { array := [(0x60, (lifeWord false 1).2, (lifeWord false 1).2), (0x61, (lifeWord true 1).2, (lifeWord true 1).2)]
           addr := 0x40#11, data := 1#32 } }.modGlb fun g => { g with lc := 1#3 }).modPwr fun p => { p with holdRdy := true }

/-- As `man`, two owner slots usable. -/
def owned : State := man.modFus fun f =>
  let own : List Nat := (List.range 12).map (0x100 + ·) ++ (List.range 12).map (0x110 + ·)
  { f with array := f.array ++ (own.map fun a => (a, secEncode 0#32, secEncode 0#32)) ++
      [(0x13F, secEncode 0xC57083F2#32, secEncode 0xC57083F2#32)] }

/-- A plan that is accepted and has a word to program. -/
def starts (plan : State → Except Nat (FuseProg × List (Nat × BitVec 39))) (s : State) : Bool :=
  match plan s with
  | .ok x => !(firstDue s x.2).isEmpty
  | .error _ => false

theorem starts_due {plan : State → Except Nat (FuseProg × List (Nat × BitVec 39))} {s : State} (h : starts plan s = true) :
    ∃ p ws w g rest, plan s = .ok (p, ws) ∧ firstDue s ws = (w, g) :: rest := by
  unfold starts at h
  split at h
  · rename_i x hx
    cases hd : firstDue s x.2 with
    | nil => simp [hd] at h
    | cons y r => exact ⟨x.1, x.2, y.1, y.2, r, hx, hd⟩
  · cases h

set_option maxRecDepth 20000 in
theorem witness_FuseCommands :
    (Reach .mgmt 0x400004 man ∧ man.fus.busy = false ∧ fusReady man = 0 ∧ man.fus.addr.toNat < 0x580 ∧
      regRoot (regOf man.fus.addr.toNat) = false ∧ man.fus.lockR.getLsbD (regOf man.fus.addr.toNat) = false ∧
      readReason man man.fus.addr.toNat (fuseRead man.fus man.fus.addr.toNat) = 0) ∧
    (let s := man.modFus fun f => { f with addr := 0xDF#11 }
     Reach .mgmt 0x400004 s ∧ s.fus.busy = false ∧ s.fus.addr.toNat < 0x580 ∧ regRoot (regOf s.fus.addr.toNat) = true) ∧
    (let s := man.modFus fun f => { f with addr := 0x57F#11, lockR := 0x800#12 }
     Reach .mgmt 0x400004 s ∧ s.fus.busy = false ∧ s.fus.addr.toNat < 0x580 ∧
       s.fus.lockR.getLsbD (regOf s.fus.addr.toNat) = true) ∧
    (starts planProgram man = true ∧ starts (planComplete 1) man = true ∧ starts (planLock 4 7) owned = true ∧
      starts (planLock 5 0) man = true ∧ starts (planLock 6 11) man = true ∧ starts (planCtr 63) man = true) ∧
    (Reach .mgmt 0x400004 owned ∧ owned.fus.busy = false ∧ fusReady owned = 0 ∧ starts (planRevoke 1) owned = true) ∧
    (pkgOk [] = true → starts (planPatch ⟨[], [(0x80000000#32, 0#32)]⟩) man = true) ∧
    (Reach .pf0 0x400004 man ∧ fusLc man = some 1 ∧ trReady 1 4 man = 0 ∧
      (firstDue man (firstWords 4)).isEmpty = false) ∧
    cellWf (0#39, 0#39) man.fus.array = true := by
  refine ⟨⟨And.intro (by decide) (by decide), ?_⟩, ⟨And.intro (by decide) (by decide), ?_⟩, ⟨And.intro (by decide) (by decide), ?_⟩,
    ?_, ⟨And.intro (by decide) (by decide), ?_⟩, ?_, ⟨And.intro (by decide) (And.intro (by decide) (by decide)), ?_⟩, ?_⟩
  · decide +kernel
  · decide +kernel
  · decide +kernel
  · decide +kernel
  · decide +kernel
  · intro h
    have a : man.fus.lockW.getLsbD 11 = false := by decide +kernel
    have b : (fuseRead man.fus (compAddr 11)).blank = true := by decide +kernel
    have e : starts (fun s => .ok (({ op := 9, arg := [((0x80000000#32 : BitVec 32), (0#32 : BitVec 32))].length } : FuseProg), ((blankEntries s).zip [(0x80000000#32, 0#32)]).flatMap fun x =>
      [(0x380 + 2 * x.1, fuseTarget (0x380 + 2 * x.1) x.2.1), (0x381 + 2 * x.1, fuseTarget (0x381 + 2 * x.1) x.2.2)])) man = true := by
      decide +kernel
    have n : decide ((blankEntries man).length < [((0x80000000#32 : BitVec 32), (0#32 : BitVec 32))].length) = false := by decide +kernel
    simpa only [starts, planPatch, a, b, h, n, Bool.not_true, Bool.false_or, Bool.false_eq_true, if_false] using e
  · decide +kernel
  · decide +kernel

end Sys2Proof.Tests
end

section
/-! SUPPORT. What the end of a job leaves: no engine that works for it, the trap count, and its status and RESULT (07 R167,
R171, 10 R259, R271). -/

namespace Sys2Proof.Proofs

open Sys2Proof.Machine Sys2Proof.Safety

/-! ### A job leaves its cluster -/

/-- No engine works for a job, and no preempted context of it is left. -/
def Gone (id : Nat) (s : State) : Prop :=
  (∀ p ∈ s.pln.engines, p.2.job ≠ id) ∧ ∀ p ∈ s.pln.ctx, p.2.eng.job ≠ id

theorem gone_congr {id : Nat} {s t : State} (heng : t.pln.engines = s.pln.engines) (hctx : t.pln.ctx = s.pln.ctx)
    (h : Gone id s) : Gone id t := by
  simpa only [Gone, heng, hctx] using h

theorem mem_assocPut {α : Type} {m : List (Nat × α)} {k : Nat} {v : α} {p : Nat × α} (h : p ∈ assocPut m k v) :
    p ∈ m ∨ p.2 = v := by
  induction m with
  | nil => simp_all [assocPut]
  | cons q m ih =>
    simp only [assocPut] at h
    split at h
    · obtain rfl | h := List.mem_cons.mp h
      · exact .inr rfl
      · exact .inl h
    split at h
    · obtain rfl | h := List.mem_cons.mp h
      · exact .inr rfl
      · exact .inl (List.mem_cons_of_mem _ h)
    · obtain rfl | h := List.mem_cons.mp h
      · exact .inl List.mem_cons_self
      · exact (ih h).imp_left (List.mem_cons_of_mem _)

@[simp] theorem modCluster_engines (c : Fin 64) (f : Cluster → Cluster) (s : State) :
    (modCluster c f s).pln.engines = s.pln.engines := rfl
@[simp] theorem modCluster_ctx (c : Fin 64) (f : Cluster → Cluster) (s : State) :
    (modCluster c f s).pln.ctx = s.pln.ctx := rfl
@[simp] theorem dropEngine_traps (e : Nat) (s : State) : (dropEngine e s).pln.traps = s.pln.traps := rfl
@[simp] theorem zeroPages_traps (c : Fin 64) (ps : List (Fin 128)) (s : State) :
    (zeroPages c ps s).pln.traps = s.pln.traps := rfl
@[simp] theorem modJob_pln (id : Nat) (f : Job → Job) (s : State) : (modJob id f s).pln = s.pln := rfl

theorem gone_modCluster {id : Nat} {s : State} (c : Fin 64) (f : Cluster → Cluster) (h : Gone id s) :
    Gone id (modCluster c f s) := gone_congr rfl rfl h

theorem gone_resume {id : Nat} {s : State} (e : Nat) (c : Ctx) (hc : c.eng.job ≠ id) (h : Gone id s) :
    Gone id (resume e c s) := by
  obtain ⟨heng, hctx⟩ := h
  refine ⟨fun p hp => ?_, fun p hp => hctx p (List.mem_filter.mp hp).1⟩
  obtain hp | hp := mem_assocPut hp
  · exact heng p hp
  · rw [hp]; exact hc

theorem gone_gateCluster {id : Nat} {s : State} (c : Fin 64) (h : Gone id s) : Gone id (gateCluster c s) := by
  obtain ⟨heng, hctx⟩ := h
  simp only [Gone, gateCluster, pmcAdd_keeps, State.modPln_pln, modCluster_engines, modCluster_ctx]
  exact ⟨fun p hp => heng p (List.mem_filter.mp hp).1, fun p hp => hctx p (List.mem_filter.mp hp).1⟩

/-- What a cluster that settles can do: it changes, is powered down, or takes back engines from its contexts (07 R152,
R181). A property that each of these keeps holds after. -/
theorem settleCluster_induct (P : State → Prop) (c : Fin 64) (s : State) (h : P s)
    (hmod : ∀ t d f, P t → P (modCluster d f t)) (hgate : ∀ t, P t → P (gateCluster c t))
    (hresume : ∀ t, P t → ∀ p ∈ s.pln.ctx, P (resume p.1 p.2 t)) : P (settleCluster c s) := by
  unfold settleCluster
  extract_lets x waits s1 mine live
  have h1 : P s1 := hmod _ _ _ h
  split
  · exact h
  split
  · exact hgate _ h1
  split
  · exact h1
  split
  · exact h1
  · refine List.foldlRecOn (motive := P) _ _ (hmod _ _ _ h1) fun t ht q hq => hresume t ht q.1 ?_
    obtain ⟨p, hp, hpq⟩ := List.mem_filterMap.mp (List.mem_filter.mp hq).1
    obtain ⟨k, -, rfl⟩ := Option.map_eq_some_iff.mp hpq
    exact (List.mem_filter.mp hp).1

theorem gone_settleCluster {id : Nat} {s : State} (c : Fin 64) (h : Gone id s) : Gone id (settleCluster c s) :=
  settleCluster_induct (Gone id) c s h (fun _ _ _ ht => gone_modCluster _ _ ht) (fun _ ht => gone_gateCluster c ht)
    fun _ ht p hp => gone_resume _ _ (h.2 p hp) ht

@[simp] theorem settleCluster_traps (c : Fin 64) (s : State) : (settleCluster c s).pln.traps = s.pln.traps :=
  settleCluster_induct (fun t => t.pln.traps = s.pln.traps) c s rfl (fun _ _ _ ht => ht)
    (fun _ ht => by simpa using ht) fun _ ht _ _ => ht

theorem mem_engines_foldl_dropEngine {es : List Nat} {s : State} {p : Nat × Engine}
    (h : p ∈ (es.foldl (fun s e => dropEngine e s) s).pln.engines) : p ∈ s.pln.engines ∧ p.1 ∉ es := by
  induction es generalizing s with
  | nil => exact ⟨h, List.not_mem_nil⟩
  | cons e es ih =>
    obtain ⟨hp, hes⟩ := ih h
    obtain ⟨hp, he⟩ := List.mem_filter.mp (show p ∈ assocDel s.pln.engines e from hp)
    exact ⟨hp, List.not_mem_cons_of_ne_of_not_mem (of_decide_eq_true he) hes⟩

theorem foldl_dropEngine_traps (es : List Nat) (s : State) :
    (es.foldl (fun s e => dropEngine e s) s).pln.traps = s.pln.traps :=
  foldl_keep (fun t : State => t.pln.traps) _ (fun t e => dropEngine_traps e t) es s

/-- The engines of a job are dropped by their keys, its contexts by their job; what resumes then is of other jobs. -/
theorem gone_leaveCluster {id : Nat} {s : State} (hj : (job? s id).isSome) : Gone id (leaveCluster id s) := by
  unfold leaveCluster
  split
  next hnone => simp [hnone] at hj
  next j hsome =>
    extract_lets es s1 s2
    have h2 : Gone id s2 := by
      refine ⟨fun p hp hid => ?_, fun p hp => by simpa using (List.mem_filter.mp hp).2⟩
      obtain ⟨hp, hes⟩ := mem_engines_foldl_dropEngine hp
      exact hes (List.mem_map.mpr ⟨p, List.mem_filter.mpr ⟨hp, by simpa using hid⟩, rfl⟩)
    split
    · exact h2
    · exact gone_settleCluster _ (gone_congr (s := s2) rfl rfl h2)

@[simp] theorem leaveCluster_traps (id : Nat) (s : State) : (leaveCluster id s).pln.traps = s.pln.traps := by
  unfold leaveCluster
  split
  · rfl
  · extract_lets es s1 s2
    have h2 : s2.pln.traps = s.pln.traps := foldl_dropEngine_traps es s
    split
    · exact h2
    · simpa using h2

/-! ### The record of a job that ended -/

/-- From `s` to `t` no engine and no trap count changed, and no job joined the list. -/
def Trims (s t : State) : Prop :=
  t.pln.traps = s.pln.traps ∧ t.pln.engines = s.pln.engines ∧ t.job.jobs ⊆ s.job.jobs

theorem Trims.refl (s : State) : Trims s s := ⟨rfl, rfl, List.Subset.refl _⟩

theorem Trims.trans {s t u : State} : Trims s t → Trims t u → Trims s u := by
  rintro ⟨htraps, heng, hjobs⟩ ⟨htraps', heng', hjobs'⟩
  exact ⟨htraps'.trans htraps, heng'.trans heng, List.Subset.trans hjobs' hjobs⟩

/-- What changes neither the array's block nor the job block. -/
theorem trims_of_hide {m : BitVec 26} {s t : State} (h : hide m t = hide m s) (hpln : m.getLsbD 11 = false)
    (hjob : m.getLsbD 12 = false) : Trims s t := by
  simp [Trims, hide_pln h hpln, hide_job h hjob]

theorem trims_ev (c : BitVec 16) (a b d : Nat) (s : State) : Trims s (ev c a b d s) :=
  trims_of_hide (ev_hide c a b d s 0x1802008#26 rfl) rfl rfl

theorem trims_freeCopies (s : State) : Trims s (freeCopies s) := by
  unfold freeCopies
  refine List.foldlRecOn (motive := Trims s) _ _ (.refl s) fun t ht p _ => ht.trans ?_
  exact .trans ⟨rfl, rfl, List.Subset.refl _⟩ (trims_ev _ _ _ _ _)

theorem trims_modQueue (f q : Nat) (g : Queue → Queue) (s : State) : Trims s (modQueue f q g s) :=
  ⟨rfl, rfl, List.Subset.refl _⟩

theorem trims_afterRecord (j : Job) (s : State) : Trims s (afterRecord j s) := by
  unfold afterRecord
  extract_lets q
  split
  · exact .refl s
  split
  · exact .trans (trims_modQueue _ _ _ _) (trims_of_hide (sendMsix_hide _ _ _ 0x1002100#26 rfl) rfl rfl)
  · exact trims_modQueue _ _ _ _

theorem trims_tryRecord (j : Job) (s : State) : Trims s (tryRecord j s) := by
  unfold tryRecord
  split
  · exact .refl s
  split
  next ok s1 hdst =>
    have h1 : Trims s s1 := trims_of_hide (hide_snd hdst (writeDst_hide _ _ _ 0x1000500#26 rfl)) rfl rfl
    extract_lets s2 j' q at_
    have h2 : Trims s1 s2 := by
      unfold s2; split
      · exact .refl s1
      · exact trims_ev _ _ _ _ _
    split
    next a b hparts =>
      extract_lets s3 s4 s5 s6 s7
      have h4 : Trims s2 s4 := trims_of_hide (m := 0x1000500#26) (by simp [s3, s4]) rfl rfl
      have h7 : Trims s4 s7 := ⟨rfl, rfl, List.filter_sublist.subset⟩
      have hcount : Trims s7 (pmcAdd (368 + j'.fn) 1 s7) := trims_of_hide (pmcAdd_hide _ _ _ 0x1000000#26 rfl) rfl rfl
      exact h1.trans <| h2.trans <| h4.trans <| h7.trans <| hcount.trans <|
        (trims_freeCopies _).trans (trims_afterRecord _ _)

/-! ### A job ends, by itself or by a trap -/

theorem ended_of_trims {id status : Nat} {r : BitVec 32} {s t : State} (h : Ended id status r s) (ht : Trims s t) :
    Ended id status r t := by
  obtain ⟨heng, hjobs⟩ := h
  obtain ⟨-, heng', hjobs'⟩ := ht
  exact ⟨heng' ▸ heng, fun k hk => hjobs k (hjobs' hk)⟩

/-- A job that is not over, and whose function was not reset, ends with the status and RESULT. -/
theorem finishJob_ended {id status : Nat} {r : BitVec 32} {s : State} {j : Job} (hj : job? s id = some j)
    (hph : j.ph ≠ .done) (hkeep : j.discard = false) :
    (finishJob id status r s).pln.traps = s.pln.traps ∧ Ended id status r (finishJob id status r s) := by
  unfold finishJob
  split
  next hnone => simp [hj] at hnone
  next k hk =>
    obtain rfl : j = k := Option.some.inj (hj.symm.trans hk)
    rw [if_neg hph, if_neg (by simp [hkeep])]
    extract_lets fq s1 s2 s3 s4 s5
    have h2 : Ended id status r s2 := by
      refine ⟨(gone_leaveCluster (by simp [hj])).1, fun k hk hid => ?_⟩
      obtain ⟨k', -, rfl⟩ := List.mem_map.mp (show k ∈ List.map _ s1.job.jobs from hk)
      split at hid <;> simp_all
    have h3 : Trims s2 s3 := by
      unfold s3; split
      · exact trims_ev _ _ _ _ _
      · exact .refl _
    have h4 : Trims s3 s4 := by
      unfold s4; split
      · exact trims_ev _ _ _ _ _
      · exact .refl _
    have h5 : Trims s4 s5 := trims_of_hide (freeShadows_hide _ 0x20000#26 rfl) rfl rfl
    have ht := h3.trans (h4.trans h5)
    have htraps : s5.pln.traps = s.pln.traps := ht.1.trans (leaveCluster_traps id s)
    have hend : Ended id status r s5 := ended_of_trims h2 ht
    split
    · exact ⟨(trims_tryRecord _ _).1.trans htraps, ended_of_trims hend (trims_tryRecord _ _)⟩
    · exact ⟨htraps, hend⟩

/-- The status of a job that a trap ends, by the trap's cause (10 R271). -/
def trapStatus (cause : Nat) : Nat := if cause = 6 then 0x20 else if cause = 4 || cause = 5 then 0x31 else 0x30

theorem jobTrap_ended {e cause code : Nat} {x : Engine} {j : Job} {s : State} (hx : eng? s e = some x)
    (hj : job? s x.job = some j) (hph : j.ph ≠ .done) (hkeep : j.discard = false) :
    (jobTrap e cause code s).pln.traps = bvSat s.pln.traps 1 ∧
      Ended x.job (trapStatus cause) (trapWord cause x.eid.toNat code x.pc.toNat) (jobTrap e cause code s) := by
  unfold jobTrap
  split
  next hnone => simp [hx] at hnone
  next y hy =>
    obtain rfl : x = y := Option.some.inj (hx.symm.trans hy)
    extract_lets st s1 s2
    have hj2 : job? s2 x.job = some j := by simpa [job?, s1, s2] using hj
    obtain ⟨htraps, hend⟩ :=
      finishJob_ended (status := st) (r := trapWord cause x.eid.toNat code x.pc.toNat) hj2 hph hkeep
    exact ⟨htraps.trans (by simp [s1, s2]), hend⟩

end Sys2Proof.Proofs
end

section
/-! SUPPORT. The issue of an instruction (08 R196, R198, R204): what a body that only writes registers, and one that only
traps, make of the state. -/

namespace Sys2Proof.Proofs

open Sys2Proof.Machine Sys2Proof.Safety

/-- The engine with the instruction it issues counted. -/
def counted (x : Engine) : Engine := { x with issued := x.issued + 1 }

/-- The state an issued instruction acts on: the issue counted (17 R440), and tagged where it is drawn (17 R445). -/
def issueState (e : Fin 1024) (x : Engine) (j : Job) (s : State) : State :=
  tagIssue e.val (counted x) j (pmcAdd (e.val / 16) 1 s)

theorem issueState_hide (e : Fin 1024) (x : Engine) (j : Job) (s : State) :
    hide 0x1802108#26 (issueState e x j s) = hide 0x1802108#26 s := by
  simp [issueState]

@[simp] theorem issueState_pln (e : Fin 1024) (x : Engine) (j : Job) (s : State) : (issueState e x j s).pln = s.pln :=
  hide_pln (issueState_hide e x j s) rfl
@[simp] theorem issueState_job (e : Fin 1024) (x : Engine) (j : Job) (s : State) : (issueState e x j s).job = s.job :=
  hide_job (issueState_hide e x j s) rfl
@[simp] theorem eng?_issueState (e : Fin 1024) (x : Engine) (j : Job) (s : State) (k : Nat) :
    eng? (issueState e x j s) k = eng? s k := by
  simp only [eng?, issueState_pln]
@[simp] theorem job?_issueState (e : Fin 1024) (x : Engine) (j : Job) (s : State) (id : Nat) :
    job? (issueState e x j s) id = job? s id := by
  simp only [job?, issueState_job]
@[simp] theorem inRange_issueState (e : Fin 1024) (x : Engine) (j k : Job) (s : State) (pc : BitVec 15) :
    inRange (issueState e x j s) k pc = inRange s k pc := by
  simp only [inRange, copyOf, issueState_pln]

/-- An engine that issues passes the fetch checks; what its instruction does is the body's act. -/
theorem issue_eq {e : Fin 1024} {x : Engine} {j : Job} {s : State} (body : Job → Engine → State → Act × State)
    (h : Issues e x j s) :
    issue e body s = applyAct e.val (counted x) (body j (counted x) (issueState e x j s)).1
      (body j (counted x) (issueState e x j s)).2 := by
  obtain ⟨heng, hrun, hblk, hjob, hrange, hparity⟩ := h
  simp [issue, runInstr, heng, hrun, hblk, hjob, hrange, hparity, issueState, counted]

theorem traps_of_body {c : Instr} {e : Fin 1024} {x : Engine} {j : Job} {s : State} {cause code : Nat}
    {body : Job → Engine → State → Act × State} (h : Issues e x j s) (hkeep : j.discard = false) (hph : j.ph ≠ .done)
    (hexec : exec c s = .next (issue e body s)) (hbody : ∀ t, body j (counted x) t = (.trap cause code, t)) :
    Traps c x cause code (trapStatus cause) s := by
  have ⟨heng, _, _, hjob, _, _⟩ := h
  have heng' : eng? (issueState e x j s) e.val = some x := by simpa using heng
  have hstep : issue e body s = jobTrap e.val cause code (issueState e x j s) := by
    rw [issue_eq body h, hbody, applyAct, heng']; rfl
  obtain ⟨htraps, hgone, hjobs⟩ := jobTrap_ended (cause := cause) (code := code) heng' (by simpa using hjob) hph hkeep
  rw [issueState_pln] at htraps
  exact ⟨_, hexec, hstep ▸ ⟨htraps, hgone, hjobs⟩⟩

theorem engineFrame_of_hide {s t : State} (h : hide 0x1803908#26 t = hide 0x1803908#26 s) : EngineFrame s t :=
  ⟨hide_glb h rfl, hide_pwr h rfl, hide_pins h rfl, hide_tbs h rfl, hide_rst h rfl, hide_boot h rfl, hide_nv h rfl,
    hide_fus h rfl, hide_wsh h rfl, hide_sdl h rfl, hide_prs h rfl, hide_ldg h rfl, hide_kvt h rfl, hide_ent h rfl,
    hide_att h rfl, hide_tmp h rfl, hide_wdg h rfl, hide_chp h rfl, hide_pending h rfl⟩

@[simp] theorem loopBack_issued (x : Engine) (pc npc : BitVec 15) : (loopBack x pc npc).issued = x.issued := by
  unfold loopBack; extract_lets body last; split
  · split <;> rfl
  · rfl

@[simp] theorem loopBack_job (x : Engine) (pc npc : BitVec 15) : (loopBack x pc npc).job = x.job := by
  unfold loopBack; extract_lets body last; split
  · split <;> rfl
  · rfl

/-- An engine with 256 instructions issued is at a slice point (07 R181, 08 R198). -/
def sliced (z : Engine) : Engine := if z.issued ≥ 256 then { z with st := .atSlice } else z

@[simp] theorem sliced_pc (z : Engine) : (sliced z).pc = z.pc := by
  unfold sliced; split <;> rfl

theorem issued_eq_sliced (x y : Engine) (npc : BitVec 15) :
    issued x y npc = sliced (loopBack { y with issued := x.issued + 1 } x.pc npc) := by
  simp only [issued, sliced, loopBack_issued, ge_iff_le]

/-- An engine that stays in its program's range goes on (08 R204). -/
theorem retire_of_inRange {e : Nat} {z : Engine} {j : Job} {t : State} (hjob : job? t z.job = some j)
    (hrange : inRange t j z.pc = true) : retire e z t = putEng e (sliced z) t := by
  unfold retire
  extract_lets t'
  split
  next k hk =>
    obtain rfl : j = k := Option.some.inj (hjob.symm.trans hk)
    exact if_pos hrange
  next => rfl

theorem completes_of_body {c : Instr} {e : Fin 1024} {x y : Engine} {j : Job} {s : State} {npc : BitVec 15}
    {body : Job → Engine → State → Act × State} (h : Issues e x j s) (hy : y.job = x.job)
    (hexec : exec c s = .next (issue e body s))
    (hbody : ∀ t, body j (counted x) t = (.next { y with issued := x.issued + 1 } npc, t)) :
    Completes c e (issued x y npc) j s := by
  intro hrange
  have ⟨heng, _, _, hjob, _, _⟩ := h
  have hstep : issue e body s = putEng e.val (issued x y npc) (issueState e x j s) := by
    rw [issued_eq_sliced, sliced_pc] at hrange
    rw [issue_eq body h, hbody, applyAct, eng?_issueState, heng, issued_eq_sliced]
    refine retire_of_inRange (j := j) ?_ ?_
    · rw [loopBack_job, job?_issueState]; exact hy ▸ hjob
    · rw [inRange_issueState]; exact hrange
  refine ⟨_, hexec, hstep ▸ ⟨by simp [putEng], by simp [putEng], engineFrame_of_hide ?_⟩⟩
  rw [putEng_hide _ _ _ _ rfl]
  exact hide_le (issueState_hide e x j s) rfl

end Sys2Proof.Proofs
end

section
/-! SUPPORT. MQ and its negative inverse, and the operands that trap with cause 8 (08 R193). -/

namespace Sys2Proof.Proofs

open Sys2Proof.Machine Sys2Proof.Safety

/-! ### The negative inverse of MQ -/

/-- One step of Newton's iteration squares the distance from an inverse. -/
theorem one_sub_mul_newton (m y : BitVec 24) : 1#24 - m * (y * (2 - m * y)) = (1#24 - m * y) ^ 2 := by grind

/-- 1 inverts an odd number up to an even distance. -/
theorem one_sub_even_of_odd (m : BitVec 24) (h : m.getLsbD 0 = true) :
    ∃ k : BitVec 24, 1#24 - m * 1#24 = 2#24 * k := by
  have hodd : m.toNat % 2 = 1 := by simpa [BitVec.getLsbD, Nat.testBit_zero] using h
  have hm : m = 2#24 * BitVec.ofNat 24 (m.toNat / 2) + 1#24 := by
    apply BitVec.eq_of_toNat_eq
    simp only [BitVec.toNat_add, BitVec.toNat_mul, BitVec.toNat_ofNat]
    omega
  exact ⟨-BitVec.ofNat 24 (m.toNat / 2), by grind⟩

/-- Five squarings of an even number give a multiple of 2^32, which is 0 in 24 bits. -/
theorem even_squared_five_times (k : BitVec 24) : (((((2#24 * k) ^ 2) ^ 2) ^ 2) ^ 2) ^ 2 = 0#24 := by grind

theorem negInv24_mul_self (m : BitVec 24) (h : m.getLsbD 0 = true) : negInv24 m * m = -1#24 := by
  obtain ⟨k, hk⟩ := one_sub_even_of_odd m h
  have hdist : 1#24 - m * -negInv24 m = 0#24 := by
    simp only [negInv24, BitVec.zero_sub, BitVec.neg_neg, one_sub_mul_newton, hk, even_squared_five_times]
  grind

/-! ### What the bodies do -/

/-- The values MTS accepts for MQ. -/
def IsModulus (a : BitVec 24) : Prop := a.getLsbD 0 = true ∧ 3 ≤ a.toNat ∧ a.toNat ≤ 8388607

theorem mtsInstr_mq_of_isModulus {ga : BitVec 5} {x : Engine} (j : Job) (t : State) (h : IsModulus (rg x ga)) :
    mtsInstr 0#8 ga j x t =
      (.next { x with mq := rg x ga, mqi := negInv24 (rg x ga), mqG := rgG x ga } (x.pc + 1), t) := by
  obtain ⟨hodd, hlo, hhi⟩ := h
  simp [mtsInstr, pureInstr, Act.seq, hodd, hlo, hhi]

theorem mtsInstr_mq_of_not_isModulus {ga : BitVec 5} {x : Engine} (j : Job) (t : State) (h : ¬ IsModulus (rg x ga)) :
    mtsInstr 0#8 ga j x t = (.trap 8 0, t) := by
  have hcheck : ¬ ((rg x ga).getLsbD 0 && decide (3 ≤ (rg x ga).toNat ∧ (rg x ga).toNat ≤ 8388607)) = true := by
    simpa [IsModulus] using h
  exact congrArg (·, t) (if_neg hcheck)

theorem mtsInstr_unwritable {n : BitVec 8} {ga : BitVec 5} (x : Engine) (j : Job) (t : State)
    (h : n = 1#8 ∨ 5 ≤ n.toNat) : mtsInstr n ga j x t = (.trap 8 0, t) := by
  obtain rfl | h := h
  · rfl
  · obtain ⟨k, hk⟩ := Nat.exists_eq_add_of_le' h
    simp [mtsInstr, pureInstr, hk]

theorem mfsInstr_undefined {gd : BitVec 5} {n : BitVec 8} (x : Engine) (j : Job) (t : State) (h : 7 ≤ n.toNat) :
    mfsInstr gd n j x t = (.trap 8 0, t) := by
  obtain ⟨k, hk⟩ := Nat.exists_eq_add_of_le' h
  simp [mfsInstr, pureInstr, hk]

theorem modular_of_mq_zero {f : Engine → Act} {x : Engine} (j : Job) (t : State) (h : x.mq = 0#24) :
    modular f j x t = (.trap 8 0, t) := by
  simp [modular, pureInstr, h]

theorem exec_undefinedOpcode {e : Fin 1024} {w : BitVec 24} {s : State} (h : wordDecodes w = false) :
    exec (.undefinedOpcode e w) s = .next (issue e (pureInstr fun _ => .trap 8 0) s) :=
  congrArg Host.Outcome.next (if_neg (by simp [h]))

/-! ### The statement -/

/-- Settles O24: MTS to MQ writes the negative inverse of an odd value, and each excluded operand's body only traps. -/
theorem modulusRegister : Obligations.ModulusRegister := by
  intro e x j s ga h
  refine ⟨fun ha => ⟨negInv24 (rg x ga), negInv24_mul_self _ ha.1, ?_⟩, fun hkeep hph => ?_⟩
  · exact completes_of_body h rfl rfl fun t => mtsInstr_mq_of_isModulus j t ha
  have bad {c : Instr} {body : Job → Engine → State → Act × State} (hexec : exec c s = .next (issue e body s))
      (hbody : ∀ t, body j (counted x) t = (.trap 8 0, t)) : Traps c x 8 0 0x30 s :=
    traps_of_body h hkeep hph hexec hbody
  refine ⟨fun ha => ?_, fun n hn => ?_, fun gd n hn => ?_, fun hmq gd gb => ?_, fun w hw => ?_⟩
  · exact bad rfl fun t => mtsInstr_mq_of_not_isModulus j t ha
  · exact bad rfl fun t => mtsInstr_unwritable _ j t hn
  · exact bad rfl fun t => mfsInstr_undefined _ j t hn
  · have hmod (f : Engine → Act) (t : State) : modular f j (counted x) t = (.trap 8 0, t) :=
      modular_of_mq_zero j t hmq
    exact ⟨bad rfl (hmod _), bad rfl (hmod _), bad rfl (hmod _), bad rfl (hmod _), bad rfl (hmod _)⟩
  · exact bad (exec_undefinedOpcode hw) fun _ => rfl

/-! ### A state that meets the hypotheses -/

/-- An engine of job 0 with 3,329 in g1. -/
def modulusEngine : Engine := { g := (Vector.replicate 32 0#24).set 1 3329#24 }

/-- The state after reset with that engine at the first word of a ROM program, in cluster 1. -/
def modulusState : State :=
  (State.reset.modPln fun p => { p with engines := [(16, modulusEngine)] }).modJob fun b => { b with jobs := [{}] }

theorem modulusEngine_issues : Issues 16 modulusEngine {} modulusState :=
  ⟨rfl, rfl, rfl, rfl, by decide, by decide⟩

theorem issued_modulusEngine (q : BitVec 24) :
    issued modulusEngine { modulusEngine with mq := 3329#24, mqi := q, mqG := false } 1#15 =
      { modulusEngine with mq := 3329#24, mqi := q, pc := 1#15, issued := 1 } := by
  simp [issued, loopBack, modulusEngine]

/-- The engine takes 3,329 as its modulus, and traps on g0, which reads as 0. -/
theorem modulusRegister_at_modulusState :
    (∃ q : BitVec 24, q * 3329#24 = -1#24 ∧ Does (.iMts 16 0#8 1#5) modulusState fun t =>
      eng? t 16 = some { modulusEngine with mq := 3329#24, mqi := q, pc := 1#15, issued := 1 }) ∧
    Traps (.iMts 16 0#8 0#5) modulusEngine 8 0 0x30 modulusState := by
  obtain ⟨hmts, -⟩ := modulusRegister 16 modulusEngine {} modulusState 1#5 modulusEngine_issues
  obtain ⟨-, hbad⟩ := modulusRegister 16 modulusEngine {} modulusState 0#5 modulusEngine_issues
  obtain ⟨q, hq, hdone⟩ := hmts (by decide)
  have hdone : Completes (.iMts 16 0#8 1#5) 16 _ {} modulusState := issued_modulusEngine q ▸ hdone
  obtain ⟨t, hexec, hpln, -, -⟩ := hdone rfl
  exact ⟨⟨q, hq, t, hexec, by simp only [eng?, hpln]; rfl⟩, (hbad rfl (by decide)).1 (by decide)⟩

end Sys2Proof.Proofs
end

section
/-! SUPPORT. The records that count for an object's ledger floor (12 R323). -/

namespace Sys2Proof.Proofs

open Sys2Proof.Machine

/-- The records that count for the ledger floor of an object: its FLOOR records, and its ACTIVE records whose ORIGIN is not 2. -/
def floorRecords (s : State) (o : Nat) : List LedRec :=
  s.ldg.recs.filter fun r => decide (r.obj.toNat = o) && (r.st == 5 || (r.st == 3 && r.origin != 2))

theorem mem_floorRecords {s : State} {o : Nat} {r : LedRec} :
    r ∈ floorRecords s o ↔ r ∈ s.ldg.recs ∧ r.obj.toNat = o ∧ (r.st = 5 ∨ r.st = 3 ∧ r.origin ≠ 2) := by
  simp [floorRecords]

theorem ledFloor_eq_max? (s : State) (o : Nat) :
    ledFloor s o = ((floorRecords s o).map (·.secver.toNat)).max?.getD 0 :=
  calc ledFloor s o = ((floorRecords s o).map (·.secver.toNat)).foldl max 0 := List.foldl_map.symm
    _ = max 0 (((floorRecords s o).map (·.secver.toNat)).max?.getD 0) := List.foldl_max
    _ = _ := Nat.zero_max _

theorem ledFloor_of_floorRecords_eq_nil {s : State} {o : Nat} (h : floorRecords s o = []) : ledFloor s o = 0 := by
  simp [ledFloor_eq_max?, h]

theorem secver_le_ledFloor {s : State} {o : Nat} {r : LedRec} (h : r ∈ floorRecords s o) :
    r.secver.toNat ≤ ledFloor s o := by
  rw [ledFloor_eq_max?]
  exact List.le_max?_getD_of_mem (List.mem_map_of_mem h)

theorem exists_secver_eq_ledFloor {s : State} {o : Nat} (h : floorRecords s o ≠ []) :
    ∃ r ∈ floorRecords s o, r.secver.toNat = ledFloor s o := by
  have hne : (floorRecords s o).map (·.secver.toNat) ≠ [] := mt List.map_eq_nil_iff.mp h
  obtain ⟨m, hm⟩ := Option.ne_none_iff_exists'.mp (mt List.max?_eq_none_iff.mp hne)
  rw [ledFloor_eq_max?, hm]
  exact List.mem_map.mp (List.max?_mem hm)

/-- Settles O44: the floor is the maximum over the records that count, which one of them attains unless there are none. -/
theorem ledgerFloor : Obligations.LedgerFloor := by
  intro s o counts
  refine ⟨fun r hr hcounts => secver_le_ledFloor (mem_floorRecords.mpr ⟨hr, hcounts⟩), ?_⟩
  by_cases hnone : floorRecords s o = []
  · refine .inr ⟨fun r hr hcounts => ?_, ledFloor_of_floorRecords_eq_nil hnone⟩
    exact List.ne_nil_of_mem (mem_floorRecords.mpr ⟨hr, hcounts⟩) hnone
  · obtain ⟨r, hr, heq⟩ := exists_secver_eq_ledFloor hnone
    obtain ⟨hmem, hcounts⟩ := mem_floorRecords.mp hr
    exact .inl ⟨r, hmem, hcounts, heq⟩

end Sys2Proof.Proofs
end
